-- ==== Sys2Proof/Word.lean ====
section
/-! DEFINITION. The word types of the Funath model and their plainest arithmetic (00_scope.md R6, R10). -/

namespace Sys2Proof

/-- One byte. -/
abbrev Byte := BitVec 8

/-- A 32-bit word: the unit of the scratchpad, of descriptors and of registers (R10, R124, R436). -/
abbrev W32 := BitVec 32

/-- A 64-bit doubleword: a scalar register, a bundle slot (R94, R96). -/
abbrev W64 := BitVec 64

/-- A 48-bit counter value (R110, R250). -/
abbrev W48 := BitVec 48

/-- A QCP descriptor, CWQ entry, NSQ entry or TOL entry: sixteen 32-bit words (R114, R343, Table 9-1). -/
abbrev Desc := List W32

/-- Word `i` of a descriptor; words past the end read 0. -/
def Desc.word (d : Desc) (i : Nat) : W32 := d.getD i 0#32

/-- Two descriptor words read as one 64-bit quantity, low word first (R10). -/
def Desc.dword (d : Desc) (i : Nat) : W64 := Desc.word d (i + 1) ++ Desc.word d i

end Sys2Proof
end

