-- ==== Sys2Proof/Inputs.lean ====
section
/-! DEFINITION. The kinds of value that commands carry from outside the block: what the check bits of a memory
found, requests that arrive in one cycle, measurements of the plant (light, power, temperature, flash, images).
They are inputs of the model; the rule that reads each one is named beside it. -/

namespace Sys2Proof

/-- What the check of a stored word, unit or line finds (R143, R144, R167): a physical fact. -/
inductive Ecc where
  | clean
  | corrected
  | uncorrectable
  deriving DecidableEq, Repr

/-- What the checks of one access find: addresses corrected and addresses found uncorrectable. Floor addresses are
word addresses; device memory addresses are byte addresses of the unit. -/
structure EccFind where
  fixed : List Nat
  bad   : List Nat
  deriving DecidableEq, Repr

/-- One transfer received on a group of a bonded stream (R136, R138): its words with their spoil bits, the lane its code
names when one lane failed, and whether the error is uncorrectable. -/
structure BondXfer where
  words : List W32
  spoil : List Bool
  lane  : Option Nat
  bad   : Bool
  deriving DecidableEq, Repr

/-- Who sends a device memory request, as R154, R157 and R173 tell requesters apart. -/
inductive Requester where
  | core (c : Nat)
  | engine (e : Nat)
  | coll (e : Nat)
  | host
  | service
  | hub
  | maint
  deriving DecidableEq, Repr

/-- A device memory request for one 32-byte unit (R160). -/
structure UnitReq where
  id    : Nat
  who   : Requester
  group : Nat
  addr  : Nat
  write : Bool
  data  : List Byte
  mask  : BitVec 32
  spoil : BitVec 8
  part  : Nat
  input : Nat
  cyc   : Nat
  deriving DecidableEq, Repr

/-- A message or bulk transfer that an engine turns into a cell on a VC (R180, R192). `lid` names the LID of a single-hop class
(R201). -/
structure InjReq where
  vc      : Nat
  dest    : Nat
  typ     : Nat
  qtag    : Nat
  flags   : BitVec 8
  part    : Nat
  msgoff  : Nat
  payload : List Byte
  lid     : Nat
  deriving DecidableEq, Repr

/-- What the device measures of one comb input (R216): the power of each line and the total in 0.01 dBm, whether the
total fell by 3 dB or more within 10 µs, and whether a line has been below +9.0 dBm for 10 s. -/
structure CombRead where
  lines  : List Int
  total  : Int
  fell3  : Bool
  low10s : Bool
  deriving DecidableEq, Repr

/-- What a line's receiver counts and measures with a frame (R219, R239, R247): codewords corrected and uncorrectable since the frame
before, and the line's power in 0.01 dBm. -/
structure LineRead where
  corr  : Nat
  unc   : Nat
  power : Int
  deriving DecidableEq, Repr

/-- What a 100 ms soak measures (R244): pre-FEC errors per 10^7 bits, codewords corrected and uncorrectable, marker mismatches and
the line power in 0.01 dBm. -/
structure SoakRead where
  ber7  : Nat
  corr  : Nat
  unc   : Nat
  mism  : Nat
  power : Int
  deriving DecidableEq, Repr

/-- The header and checks of a checkpoint or drain image (Tables 10-12, 10-13): `good` when every chunk digest and
EDIGEST match, `spoiled` when an entry is SPOILED. `regions` holds the image's regions in state-entry order, `log` the bytes of its
REGION 255 entries with the unit offset of the log's TAIL (Table 10-15 step 4). -/
structure ImageRead where
  kind    : Nat
  lnode   : Nat
  step    : Nat
  e       : Int
  clean   : Nat
  nchunk  : Nat
  good    : Bool
  spoiled : Bool
  regions : List (List Byte)
  log     : Option (Nat × List Byte)
  deriving DecidableEq, Repr

/-- What the boot ROM reads of one firmware bank (Table 15-8): `valid` is the outcome of the checks of R426 on the
key, the signature and GEN; SVN is compared with the fused counter by the model. -/
structure FwBank where
  valid : Bool
  svn   : Nat
  fwver : W32
  deriving DecidableEq, Repr

/-- What training of one HBM stack finds (R151, R152): identification good, the highest rate that trains (0 none,
1 6.4, 2 8.0, 3 10.0 Gb/s), a channel with a lane that cannot be repaired, and how many of the ledger's rows the spare rows cover
(R169). -/
structure StackFind where
  ident   : Bool
  rate    : Nat
  lane    : Bool
  repairs : Nat
  deriving DecidableEq, Repr

/-- What start-up of one engine finds (R235, R236): per bus the heater power needed for physical line `w` on ring `k`
(0.25 mW units, 255 and above when out of reach), as rows by ring. -/
structure EngineFind where
  rx : List (List Nat)
  tx : List (List Nat)
  deriving DecidableEq, Repr

/-- What start-up finds on the device's dies (R139, R148, R151, R216, R236, R369, R370). `bond`: (interface, group, lane)
found failing by the bond self-test; `fuse`: lanes repaired by the fuse map; `mesh`: a stop that fails; `trim`, `fmax`
and `slack` by trim index 0–11; `full` says the full-load power is within Table 1-4. -/
structure StartFind where
  fuse    : List (Nat × Nat × Nat)
  bond    : List (Nat × Nat × Nat)
  mesh    : Option Nat
  hbms    : List StackFind
  combA   : CombRead
  combB   : CombRead
  engines : List EngineFind
  trim    : List Int
  fmax    : List Nat
  slack   : List Nat
  full    : Bool
  temps   : List Nat
  deriving DecidableEq, Repr

/-- What a journal scan finds (R423): flash addresses of invalid records. -/
structure ScanFind where
  invalid : List Nat
  missing : Bool
  deriving DecidableEq, Repr

/-- One domain's coefficients and measured power for the budget share (R363, R364), in W. -/
structure DomRead where
  stat : Nat
  dyn  : Nat
  meas : Nat
  deriving DecidableEq, Repr

end Sys2Proof
end

