-- ==== Sys2Proof/Syntax.lean ====
section
/-! DEFINITION. The commands of the Funath block: one constructor per row of spec/opcode_table.json, in the table's
order. The table gives its rows no bits and no operands; the operands here are what the rule of each row reads from
outside the block: which unit acts, what arrives, what a sensor or a check finds, and how long a condition has held. -/

namespace Sys2Proof

/-- One command. Each constructor's line cites the rule its row names; `q` and `d` are the submitting queue and the
descriptor of a QCP command. -/
inductive Instr where
  /-- BUNDLE_ISSUE (R97). A core issues all four slots of its next bundle together in one core cycle once nothing stalls it. -/
  | bundleIssue (c wait : Nat) (ierr : Bool)
  /-- T_ACCESS_PERFORMED (R111). A T-slot load, store or AADD is performed at its bank, returning data and raising its counter. -/
  | tAccessPerformed (c i : Nat)
  /-- HGET_HPUT_COMPLETE (R105). The last byte of an HGET or HPUT is written and its counter is raised. -/
  | hgetHputComplete (c i : Nat)
  /-- WAIT_SATISFIED (R110). A counter change satisfies a pending WAIT and releases the bundle. -/
  | waitSatisfied (c : Nat)
  /-- WAIT_TIME_LIMIT (R110). A WAIT unsatisfied for COR_WAIT_LIMIT microseconds raises exception 0x07. -/
  | waitTimeLimit (c us : Nat)
  /-- GETW_TAKE (R114). A stalled GETW takes a posted head entry, checks it and writes its registers. -/
  | getwTake (c wait : Nat)
  /-- BALANCING_TAKE (R117). An idle core takes a movable aged head entry from another core of its group. -/
  | balancingTake (cs waits : List (Nat × Nat)) (cyc : Nat)
  /-- CORE_SELFTEST_SELECT (R122). The control complex selects a core for an in-field self-test window at the interval. -/
  | coreSelftestSelect (c sec : Nat)
  /-- CORE_SELFTEST_ENTER (R122). The selected core reaches GETW and enters TEST, holding posts. -/
  | coreSelftestEnter (c : Nat)
  /-- CORE_SELFTEST_START (R122). Outstanding T and M operations complete and the test starts. -/
  | coreSelftestStart (c : Nat)
  /-- CORE_SELFTEST_PASS (R122). The test passes; registers and arrays reset and the core resumes. -/
  | coreSelftestPass (c : Nat)
  /-- CORE_SELFTEST_FAIL (R122). The test fails and the core is retired as lasting. -/
  | coreSelftestFail (c : Nat)
  /-- CORE_SELFTEST_CANCEL (R122). A window whose core has not reached GETW within 50 ms is cancelled. -/
  | coreSelftestCancel (c ms : Nat)
  /-- FLD_START (R86). The head FLD of the feeder-load queue starts once its interlocks allow. -/
  | fldStart (c : Nat)
  /-- FLD_COMPLETE (R88). Every named buffer of an FLD is written and its counter is raised. -/
  | fldComplete (c : Nat)
  /-- MMA_START (R87). A queued MMA starts its first k-step once operands and interlocks allow. -/
  | mmaStart (c a : Nat)
  /-- MMA_COMPLETE (R73). The last update of an MMA is written to its tile. -/
  | mmaComplete (c a : Nat)
  /-- EXACT_EMISSION (R77). An array emits a block partial to its ring at a 128 boundary, waiting for a free slot. -/
  | exactEmission (c a : Nat)
  /-- EMISSION_PERFORMED (R80). An emission's writes are performed at their banks and the ring counter is raised. -/
  | emissionPerformed (c a : Nat)
  /-- DRN_READ (R84). A drain reads and converts its tile once earlier MMAs complete. -/
  | drnRead (c a : Nat)
  /-- DRN_COMPLETE (R88). Every write of a drain is performed and its counter is raised. -/
  | drnComplete (c a : Nat)
  /-- EMC_PERFORM (R80). A queued EMC configures the ring after earlier exact MMAs complete. -/
  | emcPerform (c a : Nat)
  /-- MCLR_ACT (R87). A queued MCLR clears its tiles and scale files once interlocks allow. -/
  | mclrAct (c a : Nat)
  /-- BANK_ACCESS (R133). A bank grants one port a line access in a floor cycle. -/
  | bankAccess (r b cyc : Nat) (f : EccFind)
  /-- MAINT_WRITEBACK (R143). A queued write-back of a corrected word is granted through MAINT. -/
  | maintWriteback (r b cyc : Nat)
  /-- PATROL_SCRUB (R145). Patrol scrub reads one line per bank every 4,096 floor cycles. -/
  | patrolScrub (r b cyc : Nat) (f : EccFind)
  /-- BANK_SELFTEST_SLICE (R146). A bank tests one row with march patterns every second. -/
  | bankSelftestSlice (r b cyc len faulty : Nat)
  /-- MESH_FLIT_ARRIVAL (R132). A flit arrives at a mesh stop and is forwarded by age arbitration. -/
  | meshFlitArrival (stop plane out cyc : Nat)
  /-- BOND_TRANSFER_RECEIVE (R138). A bond group receives a transfer and checks its SEC-DED code. -/
  | bondTransferReceive (c g : Nat) (x : BondXfer)
  /-- BOND_REPLAY (R138). A sender receiving a retry request replays from its replay buffer in order. -/
  | bondReplay (c g : Nat)
  /-- BOND_CREDIT_RETURN (R137). A receiver returns a bond credit once an entry is emptied. -/
  | bondCreditReturn (c k : Nat)
  /-- LANE_RETIRE_SWITCH (R140). After in-flight transfers drain, both ends switch a lasting lane to the spare. -/
  | laneRetireSwitch (c g : Nat)
  /-- HBM_UNIT_REQUEST (R156). A 32-byte unit request is translated by the region table and checked. -/
  | hbmUnitRequest (r : UnitReq)
  /-- REGULATOR_ADMIT (R163). A request of a regulator group is admitted when its bucket holds tokens. -/
  | regulatorAdmit (g cyc : Nat)
  /-- BORROW_AGE_EXPIRY (R164). A borrowing request that has waited 4,096 cycles is admitted without a token. -/
  | borrowAgeExpiry (g cyc : Nat)
  /-- PC_QUEUE_ACCEPT (R161). A pseudo-channel queue accepts one request per controller cycle by age. -/
  | pcQueueAccept (st pc cyc : Nat)
  /-- HBM_REQUEST_SERVE (R162). The controller performs a queued read or write of a unit. -/
  | hbmRequestServe (st pc i cyc : Nat) (e : Ecc)
  /-- HBM_AGE_LIMIT (R162). A request that has waited 512 cycles is served before later ones. -/
  | hbmAgeLimit (st pc cyc : Nat) (e : Ecc)
  /-- HBM_MAINT_WRITEBACK (R167). A queued HBM write-back of a corrected unit is performed. -/
  | hbmMaintWriteback (st so cyc : Nat)
  /-- HBM_PATROL_SCRUB (R168). Patrol scrub reads the next unit of a stack through MAINT. -/
  | hbmPatrolScrub (st cyc : Nat)
  /-- HBM_REFRESH (R153). The controller issues refresh to a bank, doubled above 85 °C. -/
  | hbmRefresh (st bank : Nat)
  /-- STACK_HOT_CHANGE (R153). A stack sensor crossing 85 °C changes the refresh rate. -/
  | stackHotChange (st temp : Nat)
  /-- HBM_SELFTEST_SLICE (R170). A pseudo-channel tests one row of a bank group in a 2 µs slice. -/
  | hbmSelftestSlice (st pc row ms faults : Nat) (fin refPend spare : Bool) (e : Ecc)
  /-- REGION_SET_DRAINED (R156). The last unit admitted under an old region entry completes and REGION_SET completes. -/
  | regionSetDrained (n : Nat)
  /-- CELL_INJECT (R180). An engine forms a cell, translating the destination through LOG2PHYS. -/
  | cellInject (x : InjReq) (cyc : Nat)
  /-- FRAME_SEND (R191). A LID's data arbiter sends a frame on a VC holding a credit. -/
  | frameSend (lid cyc : Nat)
  /-- CONTROL_FRAME_SEND (R187). A LID sends a control frame with cumulative credit counts and NAK. -/
  | controlFrameSend (lid : Nat)
  /-- CONTROL_FRAME_DUE (R187). A pending count forces a control frame at least every 2 µs. -/
  | controlFrameDue (lid us : Nat)
  /-- FRAME_RECEIVE (R193). A data frame is received, checked for CRC and SEQ, and accepted or discarded. -/
  | frameReceive (lid line cyc : Nat) (bytes : List Byte) (shared : Bool) (rd : LineRead)
  /-- CONTROL_FRAME_RECEIVE (R186). A control frame returns credits, acknowledges frames and signals NAK. -/
  | controlFrameReceive (lid line : Nat) (bytes : List Byte) (rd : LineRead)
  /-- RETRY_TIMEOUT (R193). No ACK advance for 16 µs replays from the oldest frame. -/
  | retryTimeout (lid us : Nat)
  /-- MASK_CHANGE_REPORT (R195). Once leaving-wavelength frames are acknowledged, the sender reports the new mask. -/
  | maskChangeReport (lid : Nat)
  /-- LID_TRAINING_START (R212). Admitted wavelengths put a LID into TRAINING. -/
  | lidTrainingStart (lid : Nat)
  /-- LID_TRAINING_COMPLETE (R196). Training exchanges identities, measures T_rt and enters UP with credits. -/
  | lidTrainingComplete (lid rtt genmask node part : Nat)
  /-- SOFT_FENCE_COMPLETE (R208). A draining LID has emptied its buffers and the soft fence completes. -/
  | softFenceComplete (lid : Nat)
  /-- SOFT_FENCE_TIMEOUT (R208). A soft fence not complete after 50 ms becomes a hard fence. -/
  | softFenceTimeout (lid ms : Nat)
  /-- REQ_MESSAGE_SERVE (R182). A target serves a SEND, WRITE or GET message and returns RSP cells. -/
  | reqMessageServe (i : Nat)
  /-- NRQ_WAIT_EXPIRY (R182). A SEND waiting for a posted buffer beyond NRQ_WAIT is discarded with NO_RESOURCE. -/
  | nrqWaitExpiry (i us : Nat)
  /-- MESSAGE_LOST_TIMEOUT (R182). A requester with no final RSP 100 ms after sending completes with MSG_LOST. -/
  | messageLostTimeout (i ms : Nat)
  /-- DETSEQ_BATCH_RELEASE (R184). A receive queue releases B DETSEQ completions in logical-node order. -/
  | detseqBatchRelease (q : Nat)
  /-- EPOCH_SUM (R205). Every 100 µs the job-wide sum of INJ minus DLV is taken; zero frees the old set. -/
  | epochSum (others : Int) (lost : List Nat)
  /-- COMB_MEASURE (R216). Every 10 µs the device measures both comb inputs and sets their states. -/
  | combMeasure (a b : CombRead) (found : List (Nat × EngineFind))
  /-- COMB_AGED_SWITCH (R217). An aged selected input is switched at the next outcome or release or after 10 s. -/
  | combAgedSwitch (sec : Nat)
  /-- MARKER_RECEIVE (R221). A line marker is checked against the pass entry and locks framing. -/
  | markerReceive (p w : Nat) (bytes : List Byte)
  /-- MARKER_ABSENT_TIMEOUT (R221). No valid marker for 4 µs with light present makes a line FOREIGN. -/
  | markerAbsentTimeout (p w us : Nat)
  /-- RING_LOOP_UPDATE (R224). Every 2 µs each locked ring's control loop corrects its heater. -/
  | ringLoopUpdate (p w tx : Nat) (err : Int) (heat : Nat) (lostNs : Nat)
  /-- SPARE_ROTATION_START (R237). Every ROT_INT the initiating end adds the spare to the next eligible line's LID. -/
  | spareRotationStart (p sec : Nat)
  /-- ROTATION_MASK_ACK (R238). The other end acknowledges, PASS_EP advances and LINEMAP swaps. -/
  | rotationMaskAck (p i : Nat)
  /-- ROTATION_LINE_LEAVE (R238). The old physical line leaves the mask in both directions. -/
  | rotationLineLeave (p : Nat)
  /-- ROTATION_CAL_DONE (R238). The old line's rings are recalibrated and locked as the spare. -/
  | rotationCalDone (p : Nat)
  /-- ROTATION_SOAK_END (R238). The soak of the new spare passes or fails the line. -/
  | rotationSoakEnd (p : Nat) (r : SoakRead)
  /-- APR_LIGHT_LOSS (R240). Received power below −30 dBm on a port starts automatic power reduction. -/
  | aprLightLoss (p : Nat) (power : Int)
  /-- APR_DECLARE (R240). Loss of light is declared, dark LIDs go DOWN and launch is reduced. -/
  | aprDeclare (p ms : Nat)
  /-- APR_LIGHT_RETURN (R240). Received power back at −25 dBm starts readmission of the port. -/
  | aprLightReturn (p : Nat) (power : Int)
  /-- SOAK_END (R244). A 100 ms soak ends, passing or failing the line or port. -/
  | soakEnd (p : Nat) (line : Option Nat) (r : SoakRead)
  /-- SOAK_REPEAT (R244). A failed soak is repeated after 1 s, up to 10 times. -/
  | soakRepeat (p : Nat) (line : Option Nat) (ms : Nat)
  /-- PASS_SWITCH_DRAINED (R231). Every changed LID has drained or been hard-fenced and the drain counter rises. -/
  | passSwitchDrained
  /-- PASS_SWITCH_RELEASE (R231). The release counter reaches its threshold and the target set becomes active. -/
  | passSwitchRelease
  /-- RING_SHIFT_DONE (R231). Changed rings finish retuning and new ADD lines emit. -/
  | ringShiftDone
  /-- PASS_SWITCH_RECOVERED (R231). Carrier and phase are recovered on new DROP lines. -/
  | passSwitchRecovered
  /-- PASS_SWITCH_LOCKED (R231). Marker lock and credits make changed LIDs UP and the completion counter rises. -/
  | passSwitchLocked
  /-- PASS_LID_TRAIN_TIMEOUT (R232). A changed LID not UP 1 ms after release enters DOWN. -/
  | passLidTrainTimeout (lid us : Nat)
  /-- TELEMETRY_MEASURE (R242). Every second each port measures powers and losses and updates TELEM. -/
  | telemetryMeasure (p : Nat) (rx tx : Int) (ret : Nat) (dark : Nat)
  /-- COUNTER_REQUEST (R250). A counter bank grants one add, set or read per hub cycle. -/
  | counterRequest (b cyc : Nat)
  /-- TOL_ENTRY_START (R252). The head entry of a TOL starts when its trigger holds. -/
  | tolEntryStart (q : Nat)
  /-- COLL_CELL_SEND (R249). An engine sends a collective cell while it holds enough slot credits. -/
  | collCellSend (tp tree : Nat) (down : Bool)
  /-- COLL_CELL_RECEIVE (R249). A collective cell arrives in a slot and the engine combines or forwards it. -/
  | collCellReceive (lid : Nat)
  /-- VOTE_ROOT_TIMEOUT (R268). A root timer expiry sends H 0, O 0, TMO 1 down its tree. -/
  | voteRootTimeout (tree ms : Nat)
  /-- COLL_TIMEOUT (R269). A collective with no progress for COLL_TMO aborts or reports a cut-off. -/
  | collTimeout (cid ms : Nat)
  /-- CENSUS_TIMEOUT (R256). No down census within 10 ms rejects the tree plan. -/
  | censusTimeout (ms : Nat)
  /-- ATTEMPT_START (R285). The sequencer clears counters and flags and starts an attempt. `recs`: in a replay, the log records of the
  step that its source holds (R322). -/
  | attemptStart (recs : List (List Byte))
  /-- GATHER_COMPLETE (R285). GCTR reaches GTHR and unit posting begins. -/
  | gatherComplete
  /-- UNIT_POST (R281). The head unit is posted to its stage's cores once its conditions hold. -/
  | unitPost
  /-- UNIT_COMPLETE (R281). All items of a unit complete; the last B unit starts reduce-scatter. -/
  | unitComplete (kind v m : Nat)
  /-- REDUCE_DONE (R285). RCTR reaches RTHR; the mirror record is sent and optimizer items posted. -/
  | reduceDone
  /-- UPDATE_COMPLETE (R286). Mirror acknowledged and optimizer items complete; H and O formed and VOTE posted. -/
  | updateComplete
  /-- SEQ_WAIT_TIMEOUT (R287). A phase wait beyond WAIT_TMO triggers an early vote with H = 0. -/
  | seqWaitTimeout (ms : Nat)
  /-- MIRROR_WAIT_TIMEOUT (R287). A mirror not acknowledged within MIRROR_WAIT triggers an early vote. -/
  | mirrorWaitTimeout (ms : Nat)
  /-- OUTCOME_GRACE_TIMEOUT (R292). No outcome within VOTE_TMO plus OUT_GRACE makes the watershed UNRESOLVED. -/
  | outcomeGraceTimeout (ms : Nat)
  /-- ATTEMPT_REST (R296). After an abort every core reaches a boundary and the device retries or holds. -/
  | attemptRest
  /-- CORE_BOUNDARY_TIMEOUT (R296). A core not at a boundary within WAIT_TMO is stopped and relaunched. -/
  | coreBoundaryTimeout (c ms : Nat)
  /-- CKPT_IMAGE_COMPLETE (R300). Storage acknowledges every chunk of a checkpoint image and CKPT completes. -/
  | ckptImageComplete (spoiled : Bool)
  /-- REBUILD_IMAGE_LOADED (R302). A replacement has loaded and checked the image and starts replay. -/
  | rebuildImageLoaded (img : ImageRead)
  /-- REBUILD_RECORD_FETCHED (R302). A GRAD record fetched from the buddy is checked and its optimizer items posted. -/
  | rebuildRecordFetched (bytes : List Byte)
  /-- REBUILD_RECORD_APPLIED (R302). A replayed record's items complete and its outcome is applied locally. -/
  | rebuildRecordApplied
  /-- DRAIN_IMAGE_CHECKED (R304). The standby has checked every drained chunk and EDIGEST. -/
  | drainImageChecked (img : ImageRead)
  /-- INGEST_COMPLETE (R319). An ingest shard is wholly in HBM; its completion is posted with its ORDER. -/
  | ingestComplete (obj off dst : Nat) (data : List Byte)
  /-- EXPORT_ACK (R321). Storage acknowledges an exported INPUT record. -/
  | exportAck
  /-- REPLAY_INPUT_DELIVER (R322). During replay the device writes the next recorded input and posts its completion. -/
  | replayInputDeliver (data : List Byte)
  /-- CERTIFY_HASH_COMPLETE (R326). Hashing ends, the digest record is written and CERTIFY completes. -/
  | certifyHashComplete
  /-- CONFIG_REQUEST (R25). A PCIe configuration request is answered in the standby domain. -/
  | configRequest (off : Nat) (write : Option W32)
  /-- PERST_ASSERT (R333). Assertion of PERST_N starts a device reset. -/
  | perstAssert
  /-- PERST_RELEASE (R333). Release of PERST_N starts link training and readiness. -/
  | perstRelease
  /-- FLR (R334). A function-level reset closes every host session. -/
  | flr
  /-- BAR4_READ (R331). A host read through the BAR4 aperture into device memory. -/
  | bar4Read (off len : Nat) (e : EccFind)
  /-- BAR4_WRITE (R331). A host write through the BAR4 aperture into device memory. -/
  | bar4Write (off : Nat) (data : List Byte) (poisoned : Bool)
  /-- DOORBELL_WRITE (R336). A doorbell write sets a producer queue's TAIL. -/
  | doorbellWrite (q hi size : Nat) (v : W64)
  /-- CEQ_DOORBELL (R336). A doorbell write sets a CEQ's HEAD and may re-arm it. -/
  | ceqDoorbell (q hi size : Nat) (v : W64)
  /-- COMMAND_ADMIT (R355). The command arbiter admits one fetched command per hub cycle. -/
  | commandAdmit
  /-- COMPLETION_RECORD_WRITE (R338). A record is written at a CEQ's TAIL once the CEQ has room. -/
  | completionRecordWrite (q : Nat)
  /-- MSIX_TIMER (R338). TMR µs after the first unsignalled record an armed CEQ sends its vector. -/
  | msixTimer (q us : Nat)
  /-- AQ_ENABLE (R357). Writing EN = 1 resets and enables the admin queues. -/
  | aqEnable (v : W32)
  /-- AQ_DISABLE (R357). Writing EN = 0 discards unfetched admin entries. -/
  | aqDisable (v : W32)
  /-- REGISTER_WRITE (R13). A BAR0 write to a register with no row of its own takes its access-code effect or is ignored. -/
  | registerWrite (off size : Nat) (v : W64)
  /-- W1C_WRITE (R11). A write clears the W1C bits written as 1. -/
  | w1cWrite (off size : Nat) (v : W64)
  /-- RC_FIELD_READ (R437). A 4- or 8-byte read covering an RC field returns and clears it. -/
  | rcFieldRead (off size : Nat)
  /-- NOP (R348). Command with no effect. -/
  | nop (q : Nat) (d : Desc)
  /-- SES_OPEN (R340). Open a host session and negotiate the QCP version. -/
  | sesOpen (q : Nat) (d : Desc)
  /-- SES_CLOSE (R342). Close a session, resetting and deleting its queues. -/
  | sesClose (q : Nat) (d : Desc)
  /-- DEV_INFO (R440). Copy the IDN_ block to device memory or the FATAL buffer. -/
  | devInfo (q : Nat) (d : Desc)
  /-- QUE_CREATE (R335). Create a queue-table entry. -/
  | queCreate (q : Nat) (d : Desc)
  /-- QUE_DELETE (R348). Reset a queue and free its entry. -/
  | queDelete (q : Nat) (d : Desc)
  /-- QUE_RESET (R354). Reset one queue, aborting its entries in order. -/
  | queReset (q : Nat) (d : Desc)
  /-- DOMAIN_RESET (R354). Reset every queue of a session or job. -/
  | domainReset (q : Nat) (d : Desc)
  /-- DEV_RESET (R425). Complete with OK and start a device reset or, in FATAL, a power cycle. -/
  | devReset (q : Nat) (d : Desc)
  /-- HANDLE_QUERY (R346). Return the state of a long-command handle. -/
  | handleQuery (q : Nat) (d : Desc)
  /-- HANDLE_CANCEL (R346). Cancel a cancellable long command. -/
  | handleCancel (q : Nat) (d : Desc)
  /-- REGION_SET (R156). Replace a region-table entry after checking it. -/
  | regionSet (q : Nat) (d : Desc)
  /-- MEM_CONFIG (R164). Set regulator parameters and the scrub period. -/
  | memConfig (q : Nat) (d : Desc)
  /-- APERTURE_SET (R331). Set the BAR4 aperture base. -/
  | apertureSet (q : Nat) (d : Desc)
  /-- DMA_H2D (R348). Copy host memory to device memory. -/
  | dmaH2d (q : Nat) (d : Desc)
  /-- DMA_D2H (R348). Copy device memory to host memory. -/
  | dmaD2h (q : Nat) (d : Desc)
  /-- DMA_D2D (R348). Copy within device memory. -/
  | dmaD2d (q : Nat) (d : Desc)
  /-- MEM_FILL (R348). Fill device memory. -/
  | memFill (q : Nat) (d : Desc)
  /-- WINDOW_SET (R351). Install a memory window entry. -/
  | windowSet (q : Nat) (d : Desc)
  /-- WINDOW_CLEAR (R351). Remove a memory window entry. -/
  | windowClear (q : Nat) (d : Desc)
  /-- NET_SEND (R182). NSQ entry sending a SEND message to a logical node. -/
  | netSend (q : Nat) (d : Desc)
  /-- NET_WRITE (R182). NSQ entry sending a WRITE message. -/
  | netWrite (q : Nat) (d : Desc)
  /-- NET_GET (R182). NSQ entry sending a GET message. -/
  | netGet (q : Nat) (d : Desc)
  /-- PROG_LOAD (R349). Load program images into instruction stores and extend the program digest. -/
  | progLoad (q : Nat) (d : Desc)
  /-- JOB_ATTACH (R206). Attach a job and set the device partition and logical node. -/
  | jobAttach (q : Nat) (d : Desc)
  /-- JOB_CONFIG (R350). Install the job configuration block. -/
  | jobConfig (q : Nat) (d : Desc)
  /-- JOB_LAUNCH (R95). Launch the job's cores and optionally the step sequencer. -/
  | jobLaunch (q : Nat) (d : Desc)
  /-- JOB_DETACH (R348). Detach a job from the device. -/
  | jobDetach (q : Nat) (d : Desc)
  /-- CORE_RELAUNCH (R121). Restart STOPPED cores at their entry bundle. -/
  | coreRelaunch (q : Nat) (d : Desc)
  /-- WORK_POST (R114). Post one checked entry to a CWQ. -/
  | workPost (q : Nat) (d : Desc)
  /-- L2P_SET (R22). Install the whole LOG2PHYS table before launch. -/
  | l2pSet (q : Nat) (d : Desc)
  /-- FAB_TABLES (R204). Write a shadow table set with its switch point. -/
  | fabTables (q : Nat) (d : Desc)
  /-- FAB_FENCE (R208). Fence one LID or every LID of a partition. -/
  | fabFence (q : Nat) (d : Desc)
  /-- FAB_UNFENCE (R404). Return a fenced LID to DOWN. -/
  | fabUnfence (q : Nat) (d : Desc)
  /-- PASS_PLAN (R228). Write and check one or more pass sets. -/
  | passPlan (q : Nat) (d : Desc)
  /-- PASS_CONFIG (R218). Select a comb input or set the rotation interval. -/
  | passConfig (q : Nat) (d : Desc)
  /-- PORT_READMIT (R243). Readmit a port through soak and training. -/
  | portReadmit (q : Nat) (d : Desc)
  /-- TREE_PLAN (R255). Write and check tree-pair entries and start the census. -/
  | treePlan (q : Nat) (d : Desc)
  /-- VC_WEIGHTS (R191). Set the VC arbiter weights. -/
  | vcWeights (q : Nat) (d : Desc)
  /-- STAGE_TABLE (R279). Install and check the stage table. -/
  | stageTable (q : Nat) (d : Desc)
  /-- CKPT (R300). Stream the committed state image to storage. -/
  | ckpt (q : Nat) (d : Desc)
  /-- CKPT_SEAL (R300). Seal a checkpoint at a named watershed. -/
  | ckptSeal (q : Nat) (d : Desc)
  /-- REPLACE (R302). Attach a replacement device and start its rebuild. -/
  | replace (q : Nat) (d : Desc)
  /-- DRAIN (R304). Move a live logical node to a standby. -/
  | drain (q : Nat) (d : Desc)
  /-- ROLLBACK (R303). Load every device's checkpoint image and reset the step state. -/
  | rollback (q : Nat) (d : Desc)
  /-- WS_QUERY (R294). Seal a VSEQ and return the watershed state and outcome. -/
  | wsQuery (q : Nat) (d : Desc)
  /-- WS_RESOLVE (R294). Impose an outcome on a sealed device with none. -/
  | wsResolve (q : Nat) (d : Desc)
  /-- CFG_WATERSHED (R295). Run a configuration watershed between attempts. -/
  | cfgWatershed (q : Nat) (d : Desc)
  /-- JOB_HOLD (R296). Hold the job at the next outcome. -/
  | jobHold (q : Nat) (d : Desc)
  /-- JOB_RESUME (R296). Resume a held job. -/
  | jobResume (q : Nat) (d : Desc)
  /-- SET_PSTATE (R367). Enter COMPAT mode with a Hollek P-state. -/
  | setPstate (q : Nat) (d : Desc)
  /-- PWR_LIMIT (R359). Set the tray ceiling or host power limit. -/
  | pwrLimit (q : Nat) (d : Desc)
  /-- PWR_MODE (R365). Select FIXED or CAPPED clock mode. -/
  | pwrMode (q : Nat) (d : Desc)
  /-- PWR_SHARE (R371). Join, update or dissolve a rack balance group. -/
  | pwrShare (q : Nat) (d : Desc)
  /-- THERM_LIMIT (R374). Lower the alert and throttle thresholds by an offset. -/
  | thermLimit (q : Nat) (d : Desc)
  /-- FLT_READ (R407). Copy the FLT_ block. -/
  | fltRead (q : Nat) (d : Desc)
  /-- FLT_CLEAR (R407). Clear first-error latches and COVF. -/
  | fltClear (q : Nat) (d : Desc)
  /-- HEALTH_READ (R407). Copy health ledger entries. -/
  | healthRead (q : Nat) (d : Desc)
  /-- LINK_COUNT (R205). Return the ACC and TXA counters of LIDs. -/
  | linkCount (q : Nat) (d : Desc)
  /-- UNIT_READMIT (R398). Test and readmit a retired core, region or die. -/
  | unitReadmit (q : Nat) (d : Desc)
  /-- FLT_WINDOWS (R392). Set the count limit and period of a fault window. -/
  | fltWindows (q : Nat) (d : Desc)
  /-- FW_STAGE (R427). Write and verify an image in the bank not running. -/
  | fwStage (q : Nat) (d : Desc)
  /-- FW_ACTIVATE (R427). Name the staged bank in both boot selector copies. -/
  | fwActivate (q : Nat) (d : Desc)
  /-- ATTEST (R428). Return a signed attestation of the running image. -/
  | attest (q : Nat) (d : Desc)
  /-- DBG_UNLOCK (R428). Open vendor opcodes to the session with a signed token. -/
  | dbgUnlock (q : Nat) (d : Desc)
  /-- REPLAY (R322). Launch a replay from a checkpoint to a stop step. -/
  | replay (q : Nat) (d : Desc)
  /-- CERTIFY (R326). Hash an output and state and write a digest record. -/
  | certify (q : Nat) (d : Desc)
  /-- VENDOR_OPCODE (R348). A vendor opcode accepted only in an unlocked session. -/
  | vendorOpcode (q : Nat) (d : Desc)
  /-- I3C_SUBMIT (R356). A 64-byte I3C write becomes a descriptor on the tray HSQ. -/
  | i3cSubmit (bytes : List Byte)
  /-- I3C_FETCH (R356). An I3C read consumes the oldest record of the tray CEQ. -/
  | i3cFetch
  /-- I3C_STATUS (R356). An I3C read returns readiness and queue status. -/
  | i3cStatus
  /-- I3C_BUFREAD (R356). An I3C transfer reads the FATAL read buffer from an offset. -/
  | i3cBufread (off len : Nat)
  /-- I3C_ADDRESS_ASSIGN (R356). The target takes a dynamic address by SETDASA or ENTDAA. -/
  | i3cAddressAssign (entdaa : Bool) (addr : Nat)
  /-- INPUT_POWER_SAMPLE (R358). Every 10 µs the input power is sampled and the fast path applied. -/
  | inputPowerSample (w avg100 avg1s vin iin : Nat)
  /-- BUDGET_SHARE (R363). Every 10 µs the controller shares the load budget among the domains. -/
  | budgetShare (pbase : Nat) (link mem comp : DomRead)
  /-- CLOCK_MODE_CHANGE (R365). A pending mode or clock change takes effect at an attempt boundary. -/
  | clockModeChange
  /-- DROOP_DETECT (R368). A supply fall of more than 5 % stretches the island's clock. -/
  | droopDetect (i : Nat)
  /-- DROOP_RECOVER (R368). After 64 cycles within 2 % of setpoint the clock returns to normal. -/
  | droopRecover (i cycles : Nat)
  /-- TRIM_DAILY (R369). Every 24 h trims are raised where margin is short. -/
  | trimDaily (slack : List (List Nat))
  /-- THERMAL_SAMPLE (R374). Every 100 µs each die reports its highest sensor reading. -/
  | thermalSample (i temp : Nat)
  /-- THROTTLE_STEP_DOWN (R375). Every 1 ms above throttle the thermal level falls by 8. -/
  | throttleStepDown (i : Nat)
  /-- THROTTLE_STEP_UP (R375). Every 10 ms below throttle the thermal level rises by 1. -/
  | throttleStepUp (i : Nat)
  /-- COOLANT_OK_FALL (R377). COOLANT_OK goes low. -/
  | coolantOkFall
  /-- COOLANT_OK_RISE (R377). COOLANT_OK goes high; a pulse under 100 µs is counted as a glitch. -/
  | coolantOkRise
  /-- COOLANT_STOP (R377). COOLANT_OK low for 100 µs runs the coolant stop sequence. -/
  | coolantStop (us : Nat)
  /-- COOLANT_EXIT_READY (R378). Coolant good for 5 s and dies below 60 °C release a waiting reset. -/
  | coolantExitReady (sec : Nat)
  /-- BALANCE_REPORT_RECEIVE (R373). The leader receives a member's balance report. -/
  | balanceReportReceive (slot vseq slack avg share ceil : Nat)
  /-- BALANCE_WAIT_EXPIRY (R373). After 5 ms the leader ranks reports and sends DECs. -/
  | balanceWaitExpiry (us : Nat)
  /-- BALANCE_DEC (R373). A member applies a lower share and answers ACK. -/
  | balanceDec (vseq share : Nat)
  /-- BALANCE_ACK (R373). The leader receives an ACK and sends INCs once all DECs are acknowledged. -/
  | balanceAck (slot vseq share : Nat)
  /-- BALANCE_ACK_TIMEOUT (R373). After 10 ms the leader sends the INCs whose DECs were acknowledged. -/
  | balanceAckTimeout (us : Nat)
  /-- BALANCE_INC (R373). A member applies a higher share and answers ACK. -/
  | balanceInc (vseq share : Nat)
  /-- COLLECTOR_TAKE (R387). The collector takes the next report and starts its reaction. -/
  | collectorTake
  /-- CONTAINED_REACTION_DONE (R390). A contained reaction's operations complete and its event is posted. -/
  | containedReactionDone
  /-- COALESCE_HOLD_EXPIRY (R389). After 1 s held corrected reports of a key are posted together. -/
  | coalesceHoldExpiry (die sub cause ms : Nat)
  /-- FATAL_CAPTURE_WRITTEN (R399). The fault capture reaches flash and shutdown follows. -/
  | fatalCaptureWritten (written : Bool)
  /-- LEDGER_ENTRY_WRITE (R405). A health ledger entry is written within 1 s of its event. -/
  | ledgerEntryWrite
  /-- DAILY_LEDGER (R405). Every 24 h of power-on a DAILY entry is written per die. -/
  | dailyLedger
  /-- INPUT_FAILURE (R419). The input fails; the store takes the bus and the power-fail sequence runs. -/
  | inputFailure (kind vin us : Nat)
  /-- FLUSH_UNIT (R420). Before each unit the energy is checked and the unit or TRUNC written. -/
  | flushUnit (v : Nat)
  /-- INPUT_RETURN (R419). The input held at 40 V for 100 ms returns the bus to the input. -/
  | inputReturn (vin ms : Nat)
  /-- SUPERVISOR_HOLD_END (R416). The supervisor's hold ends and the standby converter restarts. -/
  | supervisorHoldEnd (vin ms : Nat)
  /-- HOTSWAP_FAST_TRIP (R414). Input current of 96 A opens the gate within 1 µs. -/
  | hotswapFastTrip (amp : Nat)
  /-- HOTSWAP_SLOW_TRIP (R414). Current above 48 A for 6 ms opens the gate. -/
  | hotswapSlowTrip (amp ms : Nat)
  /-- RAMP_TIMEOUT (R414). A bus short of 90 % after 20 ms of ramp opens the gate. -/
  | rampTimeout (ms pct : Nat)
  /-- OVERVOLTAGE_TRIP (R414). Input above 62 V for 10 µs opens the gate. -/
  | overvoltageTrip (vin us : Nat)
  /-- TRIP_RETRY (R415). One second after a trip the gate ramps again or latches off. -/
  | tripRetry (ms : Nat)
  /-- TRIP_COUNT_CLEAR (R415). Sixty seconds in ON clears the trip count. -/
  | tripCountClear (sec : Nat)
  /-- INPUT_CYCLED (R415). Input below 20 V for 1 s clears a latched gate. -/
  | inputCycled (vin ms : Nat)
  /-- STORE_MEASURE (R417). The store capacitance is measured after READY and every 24 h. -/
  | storeMeasure (cap v : Nat)
  /-- STORE_BELOW_MIN (R418). A store below 60 J after 10 s halts start-up at step 6. -/
  | storeBelowMin (e sec : Nat)
  /-- STARTUP_INPUT_UP (R424). The input reaches 40 V; the standby domain and boot ROM start. -/
  | startupInputUp (vin : Nat) (a b : FwBank)
  /-- STARTUP_GATE_RAMP (R424). After 100 ms of steady input the gate ramps, NODE_ID is read and journals scanned. -/
  | startupGateRamp (ms node : Nat) (scan : ScanFind) (vstore cap : Nat)
  /-- STARTUP_MAIN_RAILS (R424). Once the store and coolant allow, main rails rise and the dies start. -/
  | startupMainRails (f : StartFind)
  /-- SECTOR_ERASE (R423). A journal sector ahead of the write point is erased while input is good. -/
  | sectorErase (sector : Nat) (failed : Bool)
  /-- HUB_WATCHDOG (R425). A hub watchdog expiry resets the device or, for the control complex, is fatal. -/
  | hubWatchdog (control : Bool)
  /-- QUIESCE_REQUEST (R429). QUIESCE_REQ_N low for 1 ms starts an orderly shutdown. -/
  | quiesceRequest (us : Nat)
  /-- BUTTON_LONG_PRESS (R429). A 5 s press of the attention button requests or cancels shutdown. -/
  | buttonLongPress (ms : Nat)
  /-- BUTTON_SHORT_PRESS (R431). A press under 2 s toggles LOCATE. -/
  | buttonShortPress (ms : Nat)
  /-- LATCH_OPEN (R429). The handle latch open for 2 s starts an immediate shutdown. -/
  | latchOpen (ms : Nat)
  /-- LATCH_CLOSE (R431). The handle latch closes, cancelling a pending latch shutdown. -/
  | latchClose
  /-- SHUTDOWN_PROCEED (R429). The job leaves RUN and the shutdown stops cores, fences, flushes and drops rails. -/
  | shutdownProceed
  /-- SHUTDOWN_WAIT_TIMEOUT (R429). After 10 s of tray quiesce wait the shutdown proceeds regardless. -/
  | shutdownWaitTimeout (ms : Nat)
  /-- HOST_READ_COMPLETION (R337). Data that the device read from host memory over PCIe arrives: a fetched HSQ descriptor or DMA_H2D source bytes. -/
  | hostReadCompletion (tag : Nat) (data : List Byte)
  /-- FW_STAGE_COMPLETE (R427). Programming and verification of a staged image in the bank not running ends, and FW_STAGE completes with DONE or AUTH_FAIL. -/
  | fwStageComplete (good : Bool)
  /-- ROLLBACK_IMAGE_LOADED (R303). A device has loaded and checked its checkpoint image from storage for ROLLBACK or REPLAY and sets STEP, SLOT, E and CLEAN. -/
  | rollbackImageLoaded (img : ImageRead)
  /-- ETHERNET_LINK_OR_FRAME_ERROR (R394). An Ethernet port reports a link or frame error, which is counted, reported as cause 0x5B, and retried by the services. -/
  | ethernetLinkOrFrameError (port : Nat) (frame : Bool)
  /-- PCIE_UNCORRECTABLE_ERROR (R394). The PCIe endpoint detects an uncorrectable error, which is handled under the AER rules and reported as cause 0x5A. -/
  | pcieUncorrectableError (aer : Nat)
  /-- STORE_CHARGED (R417). The hold-up store finishes charging to 16.0 V after start-up or after an in-service measurement, and SSTATE leaves CHARGING for READY. -/
  | storeCharged (v : Nat)
  deriving DecidableEq, Repr

end Sys2Proof
end

