-- ==== Sys2Proof/Config.lean ====
section
/-! DEFINITION. What one part fixes and the spec leaves to it: fuse contents, keys and values the spec does not state.
None of these constants has a body, so no proof can see a value. -/

namespace Sys2Proof.Config

/-- The PCI-SIG vendor ID of Olpor (R329). -/
opaque vendorId : BitVec 16

/-- STEPPING of the part (R440), from fuses. -/
opaque stepping : BitVec 8

/-- The fused 128-bit serial number (R440). -/
opaque serial : Nat → BitVec 32

/-- The MIPI manufacturer ID (R440). -/
opaque mipiId : BitVec 15

/-- The fused minimum security version number (R426). -/
opaque svnFuse : Nat

/-- The device attestation key signs a message (R428). -/
opaque sign : List (BitVec 8) → List (BitVec 8)

/-- SHA-384 of the image that a firmware bank was shipped with (R428). -/
opaque imageDigest : Nat → List (BitVec 8)

/-- The unlock key's signature check of a token for a nonce (R428). -/
opaque tokenGood : List (BitVec 8) → List (BitVec 8) → Bool

/-- Bank group (mod 4) in which the controller's internal mapping places a row, the row named by bits [35:14] of the
stack offset of its first unit (R159). -/
opaque hbmBg : Nat → Nat

/-- Bits [35:14] of the stack offset of the first unit of the row that holds a unit, from bits [35:14] of the unit's own
stack offset: the rows of the controller's internal mapping (R159, R169). -/
opaque hbmRowFirst : Nat → Nat

/-- The core of a terrace (mod 128) at whose stop the terrace's edge units enter the mesh (R128). -/
opaque edgeStop : Nat → Nat

/-- Bulk buffers that an engine posts on each of VCs 12 and 13 of a LID as it comes UP (R190). -/
opaque bulkBuffers : Nat

/-- A value the spec leaves open, by the count of such values already drawn. -/
opaque freeWord : Nat → BitVec 64

/-- A choice between alternatives that the spec leaves open, by the count of free values already drawn. -/
opaque freeChoice : Nat → Nat

/-- What the check of a stored word or unit finds where no command carries the finding, by the count of free values already
drawn and the address (R142, R167). -/
opaque freeCheck : Nat → Nat → Nat

end Sys2Proof.Config
end

