-- ==== Sys2Proof/Machine/State.lean ====
section
/-! DEFINITION. The state of the Funath block as plain data, its stops and its state after reset. Each field's line
gives its width, the file and rule of spec/ that names it, and its reset value; [n] is the assumption-log entry where
the spec states no reset value or where the field is the model's own. Sets of numbered things are sparse tables: an
unlisted key holds the default named in the line. -/

namespace Sys2Proof.Machine

/-- A sparse table keyed by number, keys strictly rising. -/
abbrev Tab (α : Type) := List (Nat × α)

/-- An addressed store: bytes in canonical form (Host.Cell, an unlisted byte reads 0) and the words whose spoil bit is
set, as rising word indices (byte address / 4) (R142, R166). -/
structure Ram where
  bytes : List Host.Cell
  spoil : List Nat
  deriving DecidableEq, Repr

/-- An EX320 value: the integer N and its class (R57, Tables 2-7 and 2-8). -/
structure Ex where
  n   : BitVec 320
  cls : BitVec 2
  deriving DecidableEq, Repr

/-! ## Requests inside the device -/

/-- The four ports of a bank (R133). -/
inductive BankPort where
  | homeT
  | homeM
  | mesh
  | maint
  deriving DecidableEq, Repr

/-- Whose bank access it is, and so where its data or acknowledgement goes: a T-slot access of a core by issue number, an
FLD, the scale vector of a Q8 drain, the old words of an adding drain, a drain's or an emission's writes (core, array, issue
number), the two scratchpad sides of an HPUT and an HGET (core, issue number, unit), and the three users of MAINT (R133). -/
inductive Acc where
  | t (c id : Nat)
  | fld (c id : Nat)
  | vec (c a id : Nat)
  | old (c a id : Nat)
  | drain (c a id : Nat)
  | emit (c a id : Nat)
  | copyRd (c id n : Nat)
  | copyWr (c id n : Nat)
  | back
  | scrub
  | slice
  deriving DecidableEq, Repr

/-- One line access (R125, R133, R135): its port, the floor cycle of its arrival at the arbiter, its words in line order,
the bytes it covers, the spoil bits it carries, whose it is and the stop its reply goes to. -/
structure BankReq where
  port  : BankPort
  age   : Nat
  write : Bool
  aadd  : Bool
  word  : Nat
  data  : List W32
  bmask : BitVec 16
  spoil : BitVec 4
  who   : Acc
  src   : Nat
  deriving DecidableEq, Repr

/-- One flit at a mesh stop (R129, R132): its input (0 LOCAL, 1 X+, 2 X−, 3 Y+, 4 Y−), the floor cycle of its arrival, the
stop it goes to, and the request (plane 0) or the reply with its words (plane 1) that it carries. -/
structure Flit where
  inp  : Nat
  age  : Nat
  dst  : Nat
  req  : Option BankReq
  rep  : Option (Acc × List (Nat × W32 × Bool))
  deriving DecidableEq, Repr

/-- An operation on a triggered counter (R250). -/
inductive CtrOp where
  | add (v : W48)
  | set (v : W48)
  | read
  deriving DecidableEq, Repr

/-- Who makes a counter request: it settles the port (R250), the job's rights (R251) and where a value read goes. -/
inductive CtrSrc where
  | core (c : Nat) (dst : Nat) (after : Nat)
  | array (c : Nat) (a : Nat)
  | engine (e : Nat)
  | sequencer
  | arbiter
  deriving DecidableEq, Repr

/-- A request at the counter unit, with the hub cycle of its arrival (R250). -/
structure CtrReq where
  src : CtrSrc
  age : Nat
  ctr : Nat
  op  : CtrOp
  deriving DecidableEq, Repr

/-! ## Cores and arrays (03, 04) -/

/-- COR_CORE_STAT.STATE (Table 4-14). -/
inductive RunState where
  | idle
  | run
  | stopped
  | test
  deriving DecidableEq, Repr

/-- The work item a core runs (R94, R114, R118); `job` names the step sequencer's unit that posted it (R281). -/
structure Item where
  q      : Nat
  tag    : W32
  home   : Nat
  notify : Bool
  job    : Option (Nat × Nat × Nat)
  deriving DecidableEq, Repr

/-- An issued T-slot access that has not been performed (R97, R105): operation, registers, base word address, active
lanes, stride, per-lane indices, store data with spoil marks, counter of TRG, device address and units of a copy; the units
of a copy not yet requested of device memory, the accesses not yet performed, and the words returned, which stand in the
reply buffer entry reserved at issue (R131). -/
structure TAcc where
  id     : Nat
  top    : Nat
  td     : Nat
  base   : Nat
  act    : W64
  stride : Nat
  idx    : List Nat
  data   : List (W32 × Bool)
  trg    : Option Nat
  dev    : Nat
  units  : Nat
  todo   : List Nat
  left   : Nat
  got    : List (Nat × W32 × Bool)
  deriving DecidableEq, Repr

/-- An issued M-slot operation: issue number, the slot's bits, the scalar registers it read at issue (R87, R90), and the
home core and step of the item it was issued under, which key its draws (R83, R109). -/
structure MOp where
  id  : Nat
  raw : W64
  r1  : W64
  r2  : W64
  r3  : W64
  home : Nat
  step : W64
  deriving DecidableEq, Repr

/-- An MMA in progress: its operation, the next k-step, whether an emission is due before it goes on, and whether the
last k-step has been updated (R73, R77). -/
structure MmaRun where
  op   : MOp
  k    : Nat
  emit : Bool
  done : Bool
  deriving DecidableEq, Repr

/-- An FLD in progress: its operation, the line reads outstanding and the words returned (R86). -/
structure FldRun where
  op   : MOp
  left : Nat
  got  : List (Nat × W32 × Bool)
  deriving DecidableEq, Repr

/-- The scale vector of the Q8 drain at the head of the queue: the reads outstanding and the words returned (R81). -/
structure VecRd where
  id   : Nat
  left : Nat
  got  : List (Nat × W32 × Bool)
  deriving DecidableEq, Repr

/-- A drain read from its tile whose writes are not performed (R81, R84): target rows as words with spoil, the codes
rewritten to the scale vector with their spoil, ADD, the counter of TRG, how far it is (0 held by an earlier drain, 1 reading
the old words of ADD, 2 writing), the accesses outstanding and the old words returned. -/
structure DrainW where
  id    : Nat
  base  : Nat
  strd  : Nat
  rows  : List (List (W32 × Bool))
  codes : List (Nat × Byte × Bool)
  add   : Bool
  trg   : Option Nat
  phase : Nat
  left  : Nat
  got   : List (Nat × W32 × Bool)
  deriving DecidableEq, Repr

/-- An emission whose writes are not performed (R80): its own number and the issue number of its MMA, the slot's word address, its
words, the tile's spoil flag, the ring's counter and the writes outstanding. -/
structure EmitW where
  id    : Nat
  op    : Nat
  base  : Nat
  words : List W32
  spoil : Bool
  ctr   : Nat
  left  : Nat
  deriving DecidableEq, Repr

/-- One matrix array (Table 3-1). -/
structure Arr where
  /-- A feeder buffer; 64 KiB; 03 R65; reset 0 -/
  aBuf : List Host.Cell
  /-- B feeder buffer; 64 KiB; 03 R65; reset 0 -/
  bBuf : List Host.Cell
  /-- spoiled bytes of the A buffer's records; 64 Ki marks; 03 R89; reset none -/
  aSp : List Nat
  /-- spoiled bytes of the B buffer's records; 64 Ki marks; 03 R89; reset none -/
  bSp : List Nat
  /-- A scale file; 64 x 8 bits, unlisted 127; 03 R65 R93; reset 127 -/
  aScl : Tab Byte
  /-- B scale file; 64 x 8 bits, unlisted 127; 03 R65 R93; reset 127 -/
  bScl : Tab Byte
  /-- spoil marks of the A scale file; 64 bits; 03 R89; reset none -/
  aSclSp : List Nat
  /-- spoil marks of the B scale file; 64 bits; 03 R89; reset none -/
  bSclSp : List Nat
  /-- accumulator tiles acc0-acc7, key 1024*tile + 32*row + column; 8 x 1024 x 32 bits; 03 R65 R93; reset +0 -/
  acc : Tab W32
  /-- tiles whose spoil flag is set; 8 bits; 03 R65 R89; reset none -/
  accSp : List Nat
  /-- operation queue; 8 entries; 03 R65; reset empty -/
  opq : List MOp
  /-- MMA in progress; one; 03 R73; reset none -/
  mma : Option MmaRun
  /-- scale vector being read for the Q8 drain at the head of the queue; 03 R81; reset none -/
  vec : Option VecRd
  /-- drains read and not yet written; 03 R84; reset none -/
  drains : List DrainW
  /-- emissions not yet performed; 03 R80; reset none -/
  emits : List EmitW
  /-- emission ring base word address; 29 bits; 03 R80; reset unconfigured 0 -/
  ringBase : Nat
  /-- emission ring slot count S; 8 bits, 0 unconfigured; 03 R80 R93; reset 0 -/
  ringS : Nat
  /-- free slots; 8 bits; 03 R80; reset 0 -/
  ringFree : Nat
  /-- next slot; 8 bits; 03 R80; reset 0 -/
  ringNext : Nat
  /-- ring counter number; 12 bits; 03 R80; reset 0 -/
  ringCtr : Nat
  /-- S of the latest EMC issued; 8 bits; 03 R80; reset 0 -/
  issuedS : Nat
  /-- exception flag byte MFa; 8 bits W1C; 03 R71 Table 3-10; reset 0 -/
  flags : Byte
  deriving DecidableEq, Repr

/-- One core (Table 4-1, Tables 4-14 to 4-17). -/
structure Cor where
  /-- COR_CORE_STAT.STATE; 2 bits; 04 R123 R95; reset IDLE -/
  st : RunState
  /-- TPEND; 1 bit; 04 R122; reset 0 -/
  tpend : Bool
  /-- the test itself has started (Table 4-13 step 3); 1 bit; 04 R122; reset 0 -/
  testing : Bool
  /-- RETIRED; 1 bit; 04 R123, 14 R396; reset 0 -/
  retired : Bool
  /-- retirement in progress: steps 1 and 2 of R396; 1 bit; 14 R396; reset 0 -/
  retiring : Bool
  /-- WAITING: stalled in WAIT; 1 bit; 04 R110; reset 0 -/
  waiting : Bool
  /-- the counter and threshold of the stalled WAIT; 12 + 48 bits; 04 R110; reset none -/
  waitOn : Option (Nat × Nat)
  /-- the stalled WAIT has been satisfied; 1 bit; 04 R110; reset 0 -/
  waitOk : Bool
  /-- stalled in GETW; 1 bit; 04 R97 R123; reset 0 -/
  idleq : Bool
  /-- hub cycle in which the core began its wait in GETW with every queue empty; 04 R119; reset 0 -/
  idleAt : Nat
  /-- PC; 11 bits; 04 R94; reset 0 -/
  pc : Nat
  /-- entry bundle; 11 bits; 04 R95, 12 Table 12-12; reset 0 -/
  entry : Nat
  /-- loaded extent in bundles; 0-2048; 04 R95; reset 0 -/
  extent : Nat
  /-- instruction store; 2048 x 256 bits, unlisted 0; 04 R94 R95; reset 0 -/
  imem : Tab (BitVec 256)
  /-- s1-s31; 64 bits each, unlisted 0, s0 reads 0; 04 R94; reset 0 [4] (R95 zeroes them at launch) -/
  sreg : Tab W64
  /-- spoil marks of s registers; 04 R94; reset none [4] -/
  sSp : List Nat
  /-- v0-v31, key 64*register + lane; 32 bits each; 04 R94; reset 0 [4] -/
  vreg : Tab W32
  /-- spoil marks of v lanes; 04 R94; reset none [4] -/
  vSp : List Nat
  /-- p1-p7; 64 bits, unlisted 0, p0 reads ones; 04 R94; reset 0 [4] -/
  preg : Tab W64
  /-- xa0-xa15, key 64*register + lane; EX320; 04 R94; reset 0 FIN [4] -/
  xa : Tab Ex
  /-- spoil marks of xa lanes; 04 R94; reset none [4] -/
  xaSp : List Nat
  /-- VFLAGS; 8 bits W1C; 04 R123 Table 4-16; reset 0 -/
  vflags : Byte
  /-- COR_EXC.CAUSE; 8 bits; 04 Table 4-15; reset 0 -/
  excCause : Nat
  /-- COR_EXC.SLOT; 2 bits; 04 Table 4-15; reset 0 -/
  excSlot : Nat
  /-- COR_EXC.PC; 11 bits; 04 Table 4-15; reset 0 -/
  excPc : Nat
  /-- COR_WAIT_LIMIT; 32 bits RW; 04 Table 4-17; reset 0 -/
  waitLimit : W32
  /-- LASTERR of COR_MAT_STAT; 8 bits RC; 03 Table 3-9; reset 0 -/
  lastErr : Byte
  /-- current item; 04 R94; reset none -/
  item : Option Item
  /-- special register STEP; 64 bits; 04 R109; reset 0 -/
  step : W64
  /-- special register CYCLE: core cycles since reset; 64 bits; 04 Table 4-8; reset 0 -/
  cyc : Nat
  /-- first cycle at which the next bundle may issue (branches, intervals); 04 R99; reset 0 -/
  nextAt : Nat
  /-- first cycle at which the vector unit takes its next operation; 04 R97 R99; reset 0 -/
  vFree : Nat
  /-- cycle at which each register's S or V result is ready, key 0-31 s, 32-63 v, 64-71 p, 72-87 xa; 04 R97 R99; reset none -/
  rdy : Tab Nat
  /-- an M or T result arrived since the last bundle, so the issue cycle does not follow from the program; 04 R99; reset 0 -/
  async : Bool
  /-- issue number of the next T or M operation; 04 R111, 03 R87; reset 0 [5] -/
  nextId : Nat
  /-- outstanding loads, stores and AADDs; 16; 04 R97; reset empty -/
  tacc : List TAcc
  /-- outstanding HGET and HPUT; 8; 04 R97; reset empty -/
  hacc : List TAcc
  /-- feeder-load queue; 8; 03 R65 R86; reset empty -/
  fldq : List MOp
  /-- FLD in progress; 03 R86; reset none -/
  fldRun : Option FldRun
  /-- arrays 0-3; 03 R65 -/
  arr0 : Arr
  arr1 : Arr
  arr2 : Arr
  arr3 : Arr
  /-- core reaches a boundary for the sequencer and takes no further item; 10 R296; reset 0 -/
  held : Bool
  /-- the core's latest self-test window was cancelled and waits to be retried; 1 bit; 04 R122; reset 0 -/
  tcancel : Bool
  deriving DecidableEq, Repr

/-! ## Floor (05) -/

/-- The request queues of one bank (R133) and its rotating index. -/
structure Bank where
  /-- HOME-T queue; 05 R133; reset empty -/
  homeT : List BankReq
  /-- HOME-M queue; 05 R133; reset empty -/
  homeM : List BankReq
  /-- MESH queue; 05 R133; reset empty -/
  mesh : List BankReq
  /-- MAINT queue; 05 R133 R134; reset empty -/
  maint : List BankReq
  /-- rotating index: 0 HOME-T, 1 HOME-M, 2 MESH; 05 R133; reset HOME-T -/
  rot : Nat
  /-- floor cycle until which the bank is occupied (AADD, slice); 05 R135 R146; reset 0 -/
  busy : Nat
  /-- next row of patrol scrub; 13 bits; 05 R145; reset 0 [5] -/
  scrubRow : Nat
  /-- next row of the self-test slices; 13 bits; 05 R146; reset 0 [5] -/
  bistRow : Nat
  deriving DecidableEq, Repr

/-- FLR_ECC_STAT_t (Table 5-6). -/
structure Terr where
  /-- CE_CNT; 16 bits RC; 05 R150; reset 0 -/
  ce : Nat
  /-- UE_CNT; 8 bits RC; 05 R150; reset 0 -/
  ue : Nat
  /-- SCRUB; 1 bit; 05 R150; reset 0 -/
  scrub : Bool
  /-- BIST; 1 bit; 05 R150; reset 0 -/
  bist : Bool
  /-- READY; 1 bit; 05 R150; reset 0 -/
  ready : Bool
  deriving DecidableEq, Repr

/-- FLR_BOND_c (Table 5-7); keys 512 (hub) and 513+e (engine e) are the edge links (R141). -/
structure Bond where
  /-- UNREP; 1 bit; 05 R150; reset 0 -/
  unrep : Bool
  /-- SPARED; 9 bits; 05 R150; reset 0 -/
  spared : Nat
  /-- LASTGRP; 9 bits; 05 R150; reset 0 -/
  lastGrp : Nat
  /-- LASTLANE; 5 bits; 05 R150; reset 0 -/
  lastLane : Nat
  /-- LANE_EVT; 8 bits RC; 05 R150; reset 0 -/
  laneEvt : Nat
  deriving DecidableEq, Repr

/-- One stream group (R136 to R140). -/
structure Group where
  /-- lane moved to the spare; 0-16; 05 R139 R140; reset none -/
  spare : Option Nat
  /-- a lasting lane waits for its switch to the spare; 05 R140; reset none -/
  retire : Option Nat
  /-- replay buffer: the transfer that failed and those sent after it; 32 transfers; 05 R138; reset empty -/
  replay : List BondXfer
  /-- a retry has been requested of the sender; 05 R138; reset 0 -/
  retry : Bool
  /-- the group cannot be repaired; 05 R139 R140; reset 0 -/
  unrep : Bool
  /-- failed retries of the transfer in hand; 05 R138; reset 0 -/
  fails : Nat
  /-- words of the transfer delivered last, with their spoil bits; 05 R136 R138; reset none -/
  got : List (W32 × Bool)
  deriving DecidableEq, Repr

/-- The floor (05). -/
structure Floor where
  /-- scratchpad; 2^29 x 32 bits and spoil bits; 05 R124 R142 R148; reset 0 -/
  ram : Ram
  /-- banks, key 32*region + bank; 05 R133; reset as Bank -/
  banks : Tab Bank
  /-- terraces 0-3; 05 R150 -/
  terr : Tab Terr
  /-- bond interfaces; 05 R150 -/
  bond : Tab Bond
  /-- stream groups, key 512*core + group; 05 R136 -/
  groups : Tab Group
  /-- bond credits in use, key 1024*interface + k: k = 0–31 write lines of a bank, 32–63 commands of a bank, 64 and 65 read lines of HOME-T and HOME-M, 66 commands to the stop; 05 R137 Table 5-4; reset none in use -/
  spent : Tab Nat
  /-- credits in use whose receive entry has been emptied, to be returned, by the same key; 05 R137 Table 5-4; reset none -/
  owed : Tab Nat
  /-- requests that wait at a core for credits, oldest first, key 4*core + 0 HOME-T, 1 HOME-M, 2 and 3 the same units' requests to other regions; 05 R137; reset empty -/
  outq : Tab (List BankReq)
  /-- FLR_RETBANK_c; 32 bits; 05 Table 5-8; reset 0 -/
  retbank : Tab W32
  /-- flits waiting at a stop, key 2*stop + plane; 05 R132; reset empty -/
  stops : Tab (List Flit)
  /-- rotating index of each stop output, key 10*stop + 5*plane + output; 05 R132; reset 0, LOCAL [172] -/
  stopRot : Tab Nat
  /-- latest floor cycle that a command of the floor named; the model's own [173]; reset 0 -/
  clk : Nat
  deriving DecidableEq, Repr

/-! ## Device memory (06) -/

/-- A region-table entry (Table 6-9) with the units in flight under it. -/
structure Region where
  valid : Bool
  map   : Nat
  sel   : Nat
  chan  : Nat
  part  : Nat
  size  : Nat
  base  : Nat
  soff  : Nat
  deriving DecidableEq, Repr

/-- A unit admitted by translation (R156): stack, stack offset, entry and generation of the entry that translated it. -/
structure HUnit where
  req : UnitReq
  st  : Nat
  so  : Nat
  rgn : Nat
  gen : Nat
  deriving DecidableEq, Repr

/-- A regulator group (R163). -/
structure RGrp where
  /-- RATE in GB/s; 16 bits; 06 Table 6-2; reset Table 6-2 -/
  rate : Nat
  /-- DEPTH in KiB; 16 bits; 06 Table 6-2; reset Table 6-2 -/
  depth : Nat
  /-- BORROW; 1 bit; 06 R164; reset 0 -/
  borrow : Bool
  /-- bucket level in 1/5 byte; 06 R163; reset full -/
  level : Nat
  /-- controller cycle up to which the bucket has gained; 06 R163; reset 0 -/
  at_ : Nat
  /-- STALL; 24 bits RC; 06 Table 6-8; reset 0 -/
  stall : Nat
  /-- rotating index over requester numbers; 06 R164; reset 0 -/
  rot : Nat
  deriving DecidableEq, Repr

/-- An HBM stack's registers (Tables 6-5 to 6-7) and repair state. -/
structure Stack where
  /-- STATE: 0 OFF, 1 OK, 2 DEGRADED, 3 FAILED; 2 bits; 06 R172; reset 0 -/
  st : Nat
  /-- RATE; 2 bits; 06 Table 6-5; reset 0 -/
  rate : Nat
  /-- SLICE; 1 bit; 06 Table 6-5; reset 0 -/
  slice : Bool
  /-- SCRUB; 1 bit; 06 Table 6-5; reset 0 -/
  scrub : Bool
  /-- HOT; 1 bit; 06 Table 6-5; reset 0 -/
  hot : Bool
  /-- TEMP; 8 bits; 06 Table 6-5; reset 0 -/
  temp : Nat
  /-- PPR; 8 bits; 06 Table 6-5; reset 0 -/
  ppr : Nat
  /-- CE_CNT; 16 bits RC; 06 Table 6-6; reset 0 -/
  ce : Nat
  /-- UE_CNT; 16 bits RC; 06 Table 6-6; reset 0 -/
  ue : Nat
  /-- HBM_ERRLOC; 32 bits; 06 Table 6-7; reset 0 -/
  errloc : W32
  /-- rows marked for repair; 06 R169; reset none -/
  marked : List Nat
  /-- rows tracked by window 5, with start and count; 256; 14 R393; reset none -/
  rows : List (Nat × Nat × Nat)
  /-- patrol scrub position, unit number; 06 R168; reset 0 [5] -/
  scrubAt : Nat
  /-- controller cycle from which the next unit is scrubbed; 06 R168; reset 0 [5] -/
  scrubDue : Nat
  /-- stacks in self-refresh; 13 Table 13-5; reset 0 -/
  selfref : Bool
  /-- refreshes issued by bank; 06 R153; reset 0 [5] -/
  refreshes : Tab Nat
  deriving DecidableEq, Repr

/-- A REGION_SET that waits (R156): handle, and the entry words. -/
structure RgnSet where
  n    : Nat
  hnd  : Nat
  ent  : Region
  live : Bool
  deriving DecidableEq, Repr

/-- Device memory (06). -/
structure Hbm where
  /-- stored units of every stack, byte key 2^36*stack + SO; 12 x 48 GiB; 06 R151 R166 R174; reset 0 -/
  ram : Ram
  /-- region table; 64 entries; 06 R154 R174; reset empty -/
  rgns : Tab Region
  /-- generation of each region entry; 06 R156; reset 0 [5] -/
  rgnGen : Tab Nat
  /-- REGION_SET commands started or waiting; 06 R156; reset none -/
  sets : List RgnSet
  /-- regulator groups 0-15; 06 R163; reset Table 6-2, full -/
  grps : Tab RGrp
  /-- units that wait for tokens; 06 R163; reset none -/
  waitq : List HUnit
  /-- units offered to a pseudo-channel queue, not accepted; 06 R161; reset none -/
  offer : List HUnit
  /-- units in the pseudo-channel queues with acceptance cycle, in acceptance order; 64 each; 06 R161; reset none -/
  pcq : List (Nat × HUnit)
  /-- rotating index of each queue, key 64*stack + 2*channel + pc; 06 R161; reset T0 -/
  pcRot : Tab Nat
  /-- stacks 0-11; 06 R175 -/
  stks : Tab Stack
  /-- self-test slices running: stack, 2*channel + pc, bank group, row; 06 R170 Table 6-3; reset none -/
  test : List (Nat × Nat × Nat × Nat)
  /-- controller cycle of the latest acceptance of each queue, plus 1; key 64*stack + 2*channel + pc; 06 R161; reset 0 [5] -/
  accAt : Tab Nat
  /-- request of each queue that a slice held longest and that is served first; 06 R171; reset none -/
  first : List (Nat × HUnit)
  /-- scrub period in hours; 8 bits; 06 R168; reset 24 -/
  scrubH : Nat
  /-- self-test interval in ms; 06 R170, 12 Table 12-13; reset 50 -/
  sliceMs : Nat
  /-- next bank group of each pseudo-channel, key 64*stack + 2*channel + pc; 06 R170; reset 0 [5] -/
  sliceBg : Tab Nat
  deriving DecidableEq, Repr

/-! ## Tensor fabric (07) -/

/-- A 256-byte cell (Table 7-2). Payload bytes beyond the list are 0; `rsv` is true when a reserved bit was set. -/
structure Cell where
  src     : Nat
  dest    : Nat
  typ     : Nat
  gen     : Nat
  epoch   : Nat
  vc      : Nat
  qtag    : Nat
  flags   : Byte
  len     : Nat
  part    : Nat
  msgoff  : Nat
  payload : List Byte
  rsv     : Bool
  deriving DecidableEq, Repr

/-- LID states (Table 7-1). -/
inductive LidState where
  | down
  | training
  | up
  | draining
  | fenced
  deriving DecidableEq, Repr

/-- A link-table entry of one table set (R176, Table 12-15). -/
structure LinkEnt where
  port : Nat
  peer : Nat
  part : Nat
  deriving DecidableEq, Repr

/-- The running state of one LID (R176 to R195, Tables 7-10 to 7-12). -/
structure Lid where
  /-- STATE; 3 bits; 07 R177; reset DOWN -/
  st : LidState
  /-- PORT; 3 bits; 07 Table 7-10; reset 0 -/
  port : Nat
  /-- WMASK in effect, physical lines; 17 bits; 07 Table 7-10; reset 0 -/
  wmask : BitVec 17
  /-- PEER; 16 bits; 07 Table 7-10; reset 0xFFFF -/
  peer : Nat
  /-- PART; 12 bits; 07 Table 7-10; reset 0 -/
  part : Nat
  /-- RTT in ns; 16 bits; 07 Table 7-10; reset 0 -/
  rtt : Nat
  /-- w, logical lines at training; 0-16; 07 R189 R194; reset 0 -/
  w : Nat
  /-- next SEQ to send; 16 bits; 07 R193; reset 0 -/
  seq : Nat
  /-- next SEQ expected; 16 bits; 07 R193; reset 0 -/
  exp : Nat
  /-- NAK valid; 07 R193; reset 0 -/
  nak : Bool
  /-- retry buffer, oldest first; 15,887*w/16 frames; 07 R193 R194; reset empty -/
  retry : List (Nat × Cell)
  /-- SEQs of the retry buffer whose frames spent a shared credit; 07 R190; reset none -/
  shrSeqs : List Nat
  /-- frames of the retry buffer still to be replayed; 07 R193; reset none -/
  replay : List (Nat × Cell)
  /-- replays in a row without ACK advance; 07 R194; reset 0 -/
  replays : Nat
  /-- frames rejected for CRC in the present second: window start and count; 07 R194; reset 0 -/
  crcWin : Nat × Nat
  /-- receive entries held: cells of routed VCs that have not left the device, with the credit kind spent (true shared); 07 R189 R190; reset none -/
  held : List (Cell × Bool)
  /-- output queues of the LID, cells waiting to be sent, with age and source requester; 07 R192; reset empty -/
  outq : List (Nat × Nat × Cell)
  /-- rotating index of each VC queue; 07 R192; reset 0 -/
  vcRot : Tab Nat
  /-- reserved credits held by VC; 07 R189; reset 0 -/
  resv : Tab Nat
  /-- shared credits held; 07 R189; reset 0 -/
  shared : Nat
  /-- cumulative CRD counts sent by VC; 32 bits; 07 R186; reset 0 -/
  crdOut : Tab W32
  /-- cumulative SHR count sent; 32 bits; 07 R186; reset 0 -/
  shrOut : W32
  /-- cumulative CRD counts received by VC; 32 bits; 07 R186; reset 0 -/
  crdIn : Tab W32
  /-- cumulative SHR count received; 32 bits; 07 R186; reset 0 -/
  shrIn : W32
  /-- a count or NAK waits for a control frame; 07 R187; reset 0 -/
  due : Bool
  /-- weights W0-W15; 64 bits; 07 R191 Table 7-7; reset Table 7-7 -/
  vcw : W64
  /-- VC the arbiter visits and frames left of this visit; 07 R191; reset 0 0 -/
  visit : Nat × Nat
  /-- physical line at or after which the next data frame goes; 07 R185; reset 0 [5] -/
  rr : Nat
  /-- the lines that unacknowledged data frames were sent on, by SEQ; 07 R185 R195; reset none -/
  lines : List (Nat × Nat)
  /-- mask that this end changes to and the peer has not yet acknowledged; 17 bits; 07 R195; reset none -/
  newMask : Option (BitVec 17)
  /-- mask that this end's control frames carry; 17 bits; 07 R186 R195; reset 0 -/
  repMask : BitVec 17
  /-- mask that the peer's control frames last carried; 17 bits; 07 R186 R195; reset 0 -/
  rmask : BitVec 17
  /-- the peer has reported a mask change since training; 07 R186 R195; reset 0 -/
  maskAck : Bool
  /-- CRC_ERR; 16 bits RC; 07 Table 7-12; reset 0 -/
  crcErr : Nat
  /-- REPLAY; 8 bits RC; 07 Table 7-12; reset 0 -/
  replayCnt : Nat
  /-- FMT_ERR; 8 bits RC; 07 Table 7-12; reset 0 -/
  fmtErr : Nat
  /-- FENCE_DROP; 16 bits RC; 07 Table 7-12; reset 0 -/
  fenceDrop : Nat
  /-- EPOCH_DROP; 8 bits RC; 07 Table 7-12; reset 0 -/
  epochDrop : Nat
  /-- ROUTE_ERR; 8 bits RC; 07 Table 7-12; reset 0 -/
  routeErr : Nat
  /-- ACC by epoch; 07 R205; reset 0 -/
  acc : Tab Nat
  /-- TXA by epoch; 07 R205; reset 0 -/
  txa : Tab Nat
  /-- handle of the FAB_FENCE that waits for this LID; 07 R208; reset none -/
  fenceHnd : Option Nat
  /-- why the LID drains: soft fence (true) or pass-set switch (false); 07 R208; reset 0 -/
  fencing : Bool
  /-- the LID drains because the set that named it is retired; 07 R177; reset 0 -/
  retire : Bool
  /-- link cycle in which the fence of the LID took effect; 07 R208 R211; reset none -/
  fenceCyc : Option Nat
  deriving DecidableEq, Repr

/-- A memory-window entry (Table 12-14). -/
structure Window where
  remote : Bool
  wrprot : Bool
  part   : Nat
  base   : Nat
  size   : Nat
  rnode  : Nat
  rwin   : Nat
  deriving DecidableEq, Repr

/-- A table set: link table, DIRTAB, ring geometry and window table (R197, R203, Table 12-15). -/
structure TabSet where
  org   : List Nat
  len   : List Nat
  links : Tab LinkEnt
  /-- DIRTAB entries, key 16*(2*axis+dir) + d-1 (Table 7-10) -/
  dir   : Tab (BitVec 16)
  wins  : Tab Window
  deriving DecidableEq, Repr

/-- A message being received or served at this device as target (R180 to R182): the LID it came on (127 for this device's
own), its first cell, its operation header, the data received and not yet written with spoil marks, the bytes written,
whether the last cell has come, the posted buffer taken (queue, address, length, TAG), and the status that refuses it;
`acked` once its ACK has been sent. -/
structure InMsg where
  lid    : Nat
  cell   : Cell
  woff   : Nat
  mlen   : Nat
  rqtag  : Nat
  orig   : Nat
  data   : List (Byte × Bool)
  done   : Nat
  last   : Bool
  waits  : Bool
  buf    : Option (Nat × Nat × Nat × W32)
  refuse : Option Nat
  acked  : Bool
  deriving DecidableEq, Repr

/-- A message that this device sent and that awaits its final RSP (R182): `use` 0 of an NSQ entry, 1 a mirror of the attempt in
progress (R298), 2 one of an earlier attempt. -/
structure OutMsg where
  slot  : Nat
  typ   : Nat
  q     : Nat
  tag   : W32
  sqh   : Nat
  dev   : Nat
  len   : Nat
  got   : Nat
  sent  : Bool
  use   : Nat
  part  : Nat
  deriving DecidableEq, Repr

/-- A completion held by an NRQ for its batch, with its status (R184). -/
structure NrqHold where
  q    : Nat
  node : Nat
  tag  : W32
  len  : Nat
  status : Nat
  deriving DecidableEq, Repr

/-- The tensor fabric (07). -/
structure Fab where
  /-- FAB_NODE.PHYS; 16 bits; 07 R212, 15 R413; reset 0 [6], read from the slot straps at start-up -/
  phys : Nat
  /-- FAB_NODE.LNODE; 15 bits; 07 Table 7-9; reset 0x7FFF -/
  lnode : Nat
  /-- FAB_STAT.PART; 12 bits; 07 R206 R212; reset 0 -/
  part : Nat
  /-- CUR_EP; 2 bits; 07 R203; reset 0 -/
  curEp : Nat
  /-- the current table set; 07 R203; reset empty -/
  cur : TabSet
  /-- shadow set and its switch point: SWITCH, VSEQ or tree pair, handle; 07 R204; reset none -/
  shadow : Option TabSet
  shadowEp : Nat
  shadowSw : Bool
  shadowAt : Nat
  shadowHnd : Nat
  /-- old set being retired, and its epoch; 07 R204; reset none -/
  old : Option TabSet
  oldEp : Nat
  /-- INJ by epoch; 64 bits; 07 R205; reset 0 -/
  inj : Tab Nat
  /-- DLV by epoch; 64 bits; 07 R205; reset 0 -/
  dlv : Tab Nat
  /-- LIDs 0-95; 07 R176; reset DOWN -/
  lids : Tab Lid
  /-- STBYPOS; 3,072 bytes, unlisted 0; 07 R197; reset empty -/
  stby : Tab Byte
  /-- STBYPOS entries to be cleared when the epoch that used them is retired; 07 R197; reset none -/
  stbyClr : List Nat
  /-- LOG2PHYS; 24,576 x 16 bits, unlisted 0xFFFF; 01 R22; reset 0xFFFF [4] -/
  l2p : Tab Nat
  /-- partitions under a fence; 07 R208; reset none -/
  fenced : List Nat
  /-- messages at this device as target; 07 R182; reset none -/
  inMsgs : List InMsg
  /-- messages sent and unanswered; 07 R182; reset none -/
  outMsgs : List OutMsg
  /-- next reply slot; 07 R180; reset 0 [5] -/
  nextSlot : Nat
  /-- RSP cells that arrived late; 07 R182; reset 0 [5] -/
  lateRsp : Nat
  /-- completions held in DETSEQ batches; 07 R184; reset none -/
  holds : List NrqHold
  /-- bulk cells delivered to this device, with their LID; 07 R201; reset none -/
  bulk : List (Nat × Cell)
  /-- latest link cycle that a cell's arrival or forming has named; 07 R192; reset 0 [173] -/
  clk : Nat
  /-- VC weights that a command has set for the next boundary, by port; 07 R191; reset none -/
  vcwNext : Tab W64
  /-- management inbox; 07 R202 R206; reset empty -/
  mgt : List Cell
  deriving DecidableEq, Repr

/-! ## Light and passes (08) -/

/-- Ring states (Table 8-5). -/
inductive Ring where
  | parked
  | search
  | cal
  | drop
  | block
  | add
  | failed
  deriving DecidableEq, Repr

/-- One physical line at one port (Table 8-17). -/
structure Line where
  /-- RXR; 3 bits; 08 Table 8-17; reset PARKED -/
  rxr : Ring
  /-- TXR; 3 bits; 08 Table 8-17; reset PARKED -/
  txr : Ring
  /-- FOREIGN; 1 bit; 08 R221; reset 0 -/
  foreign_ : Bool
  /-- HEAT; 7 bits; 08 Table 8-17; reset 0 -/
  heat : Nat
  /-- RXPWR; 16 bits signed; 08 Table 8-17; reset 0x8000 -/
  rxpwr : Int
  /-- CWCORR; 16 bits RC; 08 Table 8-17; reset 0 -/
  cwcorr : Nat
  /-- CWUNC; 8 bits RC; 08 Table 8-17; reset 0 -/
  cwunc : Nat
  /-- LOCKLOSS; 8 bits RC; 08 Table 8-17; reset 0 -/
  lockloss : Nat
  /-- FAILMASK bit of the line; 1 bit; 08 Table 8-16; reset 0 -/
  failed : Bool
  /-- mismatching markers in a row; 08 R221; reset 0 -/
  mism : Nat
  /-- valid markers in a row; 08 R220; reset 0 -/
  good : Nat
  /-- framing locked; 08 R220; reset 0 -/
  framed : Bool
  /-- failed soaks in a row; 08 R244; reset 0 -/
  soaks : Nat
  /-- soak passed, waiting for PASS_EP to advance; 08 R243; reset 0 -/
  ready : Bool
  /-- last heater setting recorded by the search; 08 R225; reset 0 [5] -/
  set_ : Nat
  /-- a failed soak waits for its repeat; 08 R244; reset 0 -/
  wait : Bool
  /-- the check of markers is suspended until marker lock; 08 R221; reset 0 -/
  susp : Bool
  /-- corrected codewords below a unit of CWCORR; 16 bits; 08 Table 8-17; reset 0 -/
  cwsub : Nat
  /-- MCNT of the next marker sent; 16 bits; 08 R220; reset 0 -/
  mcnt : Nat
  /-- frame slots since the last marker sent; 08 R220; reset 0 -/
  slots : Nat
  deriving DecidableEq, Repr

/-- PSTATE (Table 8-16). -/
inductive PState where
  | dark
  | search
  | ready
  | soak
  | apr
  | failed
  deriving DecidableEq, Repr

/-- One port (Table 8-16, R226, R237 to R244). -/
structure Port where
  /-- PSTATE; 3 bits; 08 Table 8-16; reset DARK -/
  st : PState
  /-- DEGR; 1 bit; 08 Table 8-16; reset 0 -/
  degr : Bool
  /-- RXTOT; 16 bits signed; 08 Table 8-16; reset 0x8000 -/
  rxtot : Int
  /-- TXTOT; 16 bits signed; 08 Table 8-16; reset 0x8000 -/
  txtot : Int
  /-- SPANLOSS; 16 bits signed; 08 Table 8-16; reset 0 -/
  span : Int
  /-- RETLOSS; 16 bits; 08 Table 8-16; reset 0 -/
  ret : Nat
  /-- RETIRE; 8 bits RC; 08 Table 8-16; reset 0 -/
  retire : Nat
  /-- TELEM; 2 bits; 08 Table 8-16; reset CLEAN -/
  telem : Nat
  /-- SPANLOSS baseline since readmission; 08 R242; reset none -/
  base : Option Int
  /-- marker TXTOT of the span's neighbour; 08 R220 R242; reset none -/
  nbTx : Option Int
  /-- SRC of the spare line's markers: the span's neighbour; 08 R237; reset none -/
  nbr : Option Nat
  /-- LINEMAP, unlisted identity; 17 x 5 bits; 08 R226; reset identity -/
  lmap : Tab Nat
  /-- rotation step of Table 8-11 (0 none) and its logical line; 08 R238; reset 0 -/
  rot : Nat
  rotLine : Nat
  /-- next logical line in turn; 08 R237; reset 0 [5] -/
  rotNext : Nat
  /-- logical line whose rotation waits for the pass-set switch to end; 08 R239 R245; reset none -/
  rotDue : Option Nat
  /-- the spare has passed its soak; 08 R239; reset 0 -/
  soaked : Bool
  /-- failed soaks in a row of the port; 08 R244; reset 0 -/
  soaks : Nat
  /-- APR step of Table 8-12 reached (0 none, 1 light lost, 2 declared); 08 R240; reset 0 -/
  aprAt : Nat
  /-- port waits for its soak and for PASS_EP before its LIDs train; 08 R243; reset 0 -/
  pend : Bool
  /-- a failed soak waits for its repeat; 08 R244; reset 0 -/
  wait : Bool
  /-- readmission command that waits on this port: handle; 08 R243; reset none -/
  hnd : Option Nat
  /-- the start-up search and assignment have been made; 08 R235; reset 0 -/
  searched : Bool
  /-- shift of the receive and of the transmit bus; 5 bits each; 08 R236; reset 0 -/
  rxShift : Nat
  txShift : Nat
  /-- FAILED for an edge group that cannot be repaired; 08 R246; reset 0 -/
  broken : Bool
  deriving DecidableEq, Repr

/-- Light and passes (08). -/
structure Light where
  /-- PASS_EP; 3 bits; 08 R230; reset 0 -/
  passEp : Nat
  /-- ACTSET; 3 bits; 08 R229; reset 0 -/
  actSet : Nat
  /-- PENDSET; 3 bits; 08 Table 8-14; reset 0 -/
  pendSet : Nat
  /-- SWPEND; 1 bit; 08 Table 8-14; reset 0 -/
  swPend : Bool
  /-- step of Table 8-8 reached (0 none) ; 08 R231; reset 0 -/
  swStep : Nat
  /-- LIDs that the switch changes; 08 R231; reset none -/
  swLids : List Nat
  /-- entries that the switch changes, 17*port + logical line; 08 R231; reset none -/
  swLines : List Nat
  /-- LIDs that the switch's own drain hard-fenced; 08 R231, 07 R208; reset none -/
  swFenced : List Nat
  /-- the PSW entry that runs the switch, and PSWs waiting behind it; 09 R273; reset none -/
  swEnt : Option (Nat × Desc)
  swWait : List (Nat × Desc)
  /-- SETVALID; 8 bits; 08 Table 8-14; reset 0x01 -/
  valid : Byte
  /-- VER of set n; 3 bits each; 08 R229; reset 0 -/
  ver : Tab Nat
  /-- pass entries, key 102*set + 17*port + line; 32 bits; 08 R227 Table 8-6; reset 0x507FFFFF (set 0), 0x007FFFFF -/
  sets : Tab W32
  /-- shadows by set, written while the set was active, with 17*port + line as key of an entry; 08 R229; reset none -/
  shadow : Tab (Tab W32)
  /-- ROT_INT; 16 bits; 08 R237; reset 30 -/
  rotInt : Nat
  /-- SEL; 1 bit; 08 R216; reset 0 -/
  sel : Nat
  /-- ASTATE, BSTATE: 0 ABSENT, 1 OK, 2 AGED, 3 FAILED; 2 bits each; 08 R216; reset 0 -/
  aSt : Nat
  bSt : Nat
  /-- SWCNT; 8 bits RC; 08 Table 8-15; reset 0 -/
  swCnt : Nat
  /-- APWR and BPWR of line i; 16 bits signed; 08 Table 8-15; reset 0x8000 -/
  aPwr : Tab Int
  bPwr : Tab Int
  /-- ports 0-5; 08 R247 -/
  ports : Tab Port
  /-- lines, key 17*port + physical line; 08 R247 -/
  lines : Tab Line
  deriving DecidableEq, Repr

/-! ## Collectives (09) -/

/-- A tree-plan entry (Table 9-6). -/
structure TreeEnt where
  valid  : Bool
  parent : Nat
  child0 : Nat
  child1 : Nat
  pset   : Nat
  depth  : Nat
  rank   : Nat
  size   : Nat
  c0size : Nat
  slots  : Nat
  base   : Nat
  deriving DecidableEq, Repr

/-- A unit of collective data in transit in a node: its bytes (an element, a row with its code, or a limb packet), whether a spoiled
source reached all of it, and for a row the elements that a spoiled source word reached (R262, R265). -/
structure Elem where
  bytes : List Byte
  spoil : Bool
  marks : List Bool
  deriving DecidableEq, Repr

/-- A run of collective data with the index of its first unit in the tree half (R262). -/
structure Chunk where
  idx   : Nat
  units : List Elem
  deriving DecidableEq, Repr

/-- Progress of one collective on one tree of this device (R259 to R268). -/
structure TreeRun where
  /-- next unit to send up; 09 R259 -/
  upAt : Nat
  /-- partials of CHILD0 and CHILD1 consumed from their slots and not yet combined, by unit index; 09 R260 R263, 02 R64 -/
  c0 : List (Nat × Elem)
  c1 : List (Nat × Elem)
  /-- gather data to forward toward the root; 09 R259 -/
  fwd : List Chunk
  /-- data to send down, with the child it is for (0, 1); 09 R259 -/
  dnq : List (Nat × Chunk)
  /-- units of DST written: first unit and count; 09 R266 R270 -/
  wrote : List (Nat × Nat)
  /-- units sent of each segment, key 3*segment + direction (0 up, 1 CHILD0, 2 CHILD1); 09 R262 -/
  out : Tab Nat
  /-- SEAL, BAR or VOTE arrived from CHILD0, CHILD1 and the root side; 09 R266 R267 -/
  got0 : Bool
  got1 : Bool
  gotP : Bool
  /-- SEAL, BAR or VOTE sent up, or down at the root; 09 R266 -/
  sent : Bool
  /-- combined vote pair H, O of the inputs so far; 09 R268 -/
  voteH : Bool
  voteO : Bool
  /-- down pair received: H, O, TMO; 09 R268 -/
  down : Option (Bool × Bool × Bool)
  deriving DecidableEq, Repr

/-- A TOL entry in progress: a COLL, BAR or VOTE (R258, R267, R268). -/
structure CollRun where
  cid : Nat
  opc : Nat
  q   : Nat
  eng : Nat
  ent : Desc
  tp  : Nat
  a   : TreeRun
  b   : TreeRun
  /-- time of its start, µs; 09 R268 -/
  at_ : Nat
  deriving DecidableEq, Repr

/-- A slot that holds a cell (R249): pair, tree, ring (0 CHILD0, 1 CHILD1, 2 PARENT), slot number, LID and cell. -/
structure CSlot where
  tp   : Nat
  tree : Nat
  ring : Nat
  idx  : Nat
  lid  : Nat
  cell : Cell
  deriving DecidableEq, Repr

/-- A collective engine (Table 9-9). -/
structure Eng where
  /-- INPROG; 4 bits; STATE reads from it and from the engine's TOLs; 09 Table 9-9; reset 0 -/
  inprog : Nat
  /-- FLAGS; 8 bits W1C; 09 Table 9-9; reset 0 -/
  flags : Byte
  /-- ABORTS; 8 bits RC; 09 Table 9-9; reset 0 -/
  aborts : Nat
  /-- STALE; 8 bits RC; 09 Table 9-9; reset 0 -/
  stale : Nat
  /-- LASTCID; 16 bits; 09 Table 9-9; reset 0 -/
  lastCid : Nat
  deriving DecidableEq, Repr

/-- Collectives and counters (09). -/
structure Coll where
  /-- counters 0-4095, unlisted 0; 48 bits; 09 R250 R276; reset 0 -/
  ctrs : Tab W48
  /-- requests waiting at the counter unit; 09 R250; reset none -/
  reqs : List CtrReq
  /-- latest hub cycle that a command named; the model's own [173]; reset 0 -/
  clk : Nat
  /-- rotating index of each counter bank; 0-15; 09 R250; reset 0 -/
  rot : Tab Nat
  /-- engines 0-5; 09 R277 -/
  engs : Tab Eng
  /-- tree plan, key 2*pair + tree; 09 R254 R276; reset invalid -/
  plan : Tab TreeEnt
  /-- plan written and under census: entries, handle, pairs left; 09 R256; reset none -/
  newPlan : Option (Tab TreeEnt × Nat)
  /-- census counts received: key 4*(2*pair+tree) + child, and down values checked; 09 R256; reset none -/
  census : Tab Nat
  censusDn : List Nat
  /-- collectives in progress; 09 R252; reset none -/
  runs : List CollRun
  /-- slots holding cells, in arrival order; 09 R249; reset empty -/
  slots : List CSlot
  /-- next slot of each ring to fill, key 6*pair + 3*tree + ring; 09 R249; reset 0 -/
  fill : Tab Nat
  /-- CIDs completed or aborted per pair, for R271; 09 R271; reset none -/
  dead : List (Nat × Nat)
  /-- COL_VOTE; 09 Table 9-10; reset 0 -/
  vVseq : W32
  vValid : Bool
  vCommit : Bool
  vOvf : Bool
  vAtmo : Bool
  vBtmo : Bool
  vDrop : Nat
  vLat : W32
  deriving DecidableEq, Repr

/-! ## Training steps (10) -/

/-- Job states (Table 10-1). -/
inductive JState where
  | idle
  | loaded
  | run
  | held
  | rebuild
  | pending
  deriving DecidableEq, Repr

/-- Watershed states (Table 10-17). -/
inductive WState where
  | none_
  | open_
  | voting
  | committed
  | aborted
  | unresolved
  deriving DecidableEq, Repr

/-- A stage entry (Table 10-3). -/
structure Stage where
  fopc  : Nat
  bopc  : Nat
  mov   : Bool
  cwq   : Nat
  ncm1  : Nat
  cbase : Nat
  abCtr : Nat
  afCtr : Nat
  quota : Nat
  stash : W64
  ssize : Nat
  deriving DecidableEq, Repr

/-- An installed stage table (Table 10-2). -/
structure StageTab where
  pidx   : Nat
  pm1    : Nat
  v      : Nat
  voteTp : Nat
  optSlot : Nat
  optNm1 : Nat
  m      : Nat
  mentee : Nat
  buddy  : Nat
  rctr   : Nat
  gctr   : Nat
  gthr   : Nat
  rthr   : Nat
  logwin : Nat
  optOpc : Nat
  shardLen : Nat
  shard  : Nat
  logBase : Nat
  logSize : Nat
  aux    : Nat
  auxw   : Nat
  crstN  : Nat
  crstB  : Nat
  stages : List Stage
  states : List (Nat × Nat × Nat)
  tq     : List Nat
  tpl    : List Desc
  deriving DecidableEq, Repr

/-- A unit posted and not complete (R281): kind 0 F, 1 B, 2 optimizer; items left. -/
structure UnitOut where
  kind : Nat
  v    : Nat
  m    : Nat
  left : Nat
  deriving DecidableEq, Repr

/-- A replacement, drain or rollback in progress (R302 to R304). -/
structure Repl where
  /-- RSTATE; 3 bits; 10 Table 10-20; reset NONE -/
  st : Nat
  /-- ROLE: drain source; 1 bit; 10 Table 10-20; reset 0 -/
  source : Bool
  /-- LNODE; 15 bits; 10 Table 10-20; reset 0 -/
  lnode : Nat
  /-- CDONE; 16 bits; 10 Table 10-20; reset 0 -/
  cdone : Nat
  /-- CTOTAL; 16 bits; 10 Table 10-20; reset 0 -/
  ctotal : Nat
  /-- RLEFT; 32 bits; 10 Table 10-20; reset 0 -/
  rleft : Nat
  /-- step of the image and the job's step T; 10 R302 -/
  image : Nat
  t_ : Nat
  /-- record fetched whose items run; 10 Table 10-14; reset none -/
  rec_ : Option (List Byte)
  /-- digest failures so far; 10 R302; reset 0 -/
  tries : Nat
  /-- a drain (true) or a replacement (false) fills this device; 10 R304; reset 0 -/
  drain : Bool
  /-- regulator group of a drain source's copy; 10 R304; reset 0 -/
  grp : Nat
  deriving DecidableEq, Repr

/-- A change named for a watershed (R289 action 4). -/
structure Pending where
  kind : Nat
  vseq : Nat
  n    : Nat
  y    : Nat
  s    : Nat
  stby : Nat
  hnd  : Nat
  deriving DecidableEq, Repr

/-- The step sequencer (10). -/
structure Train where
  /-- JSTATE; 3 bits; 10 Table 10-1; reset IDLE -/
  js : JState
  /-- WSTATE; 3 bits; 10 Table 10-17; reset NONE -/
  ws : WState
  /-- PHASE; 3 bits; 10 Table 10-17; reset 0 -/
  phase : Nat
  /-- SLOT; 1 bit; 10 Table 10-17; reset 0 -/
  slot : Nat
  /-- LOGGAP; 1 bit; 10 Table 10-17; reset 0 -/
  loggap : Bool
  /-- CFGW; 1 bit; 10 Table 10-17; reset 0 -/
  cfgw : Bool
  /-- HOLD; 4 bits; 10 Table 10-17; reset 0 -/
  hold : Nat
  /-- E; 8 bits two's complement; 10 R291; reset 0 -/
  e : Int
  /-- RETRY; 8 bits; 10 Table 10-17; reset 0 -/
  retry : Nat
  /-- STEP; 64 bits; 10 R309; reset 0 -/
  step : W64
  /-- VSEQ; 32 bits; 10 R288; reset 0 -/
  vseq : W32
  /-- CLEAN; 16 bits; 10 R291; reset 0 -/
  clean : Nat
  /-- ABORTS; 16 bits RC; 10 Table 10-18; reset 0 -/
  aborts : Nat
  /-- OVFRUN; 8 bits; 10 Table 10-18; reset 0 -/
  ovfrun : Nat
  /-- the counters of the attempt about to start have been asked to be set to 0; 10 Table 10-7, 09 R250; reset 0 -/
  prep : Bool
  /-- consecutive aborts with H = 0; 10 R296; reset 0 -/
  hrun : Nat
  /-- installed stage table; 10 R279 R308; reset none -/
  tab : Option StageTab
  /-- job attached: session, partition; 12 Table 12-7; reset none -/
  sid : Nat
  /-- the job has been launched; 01 R22; reset 0 -/
  launched : Bool
  /-- launched with TRAIN = 1; 10 R448; reset 0 -/
  train : Bool
  /-- rotating index of balancing takes over a group's cores, key first core of the group; 04 R119; reset 0 -/
  balRot : Tab Nat
  /-- N, devices of the job; 15 bits; 12 Table 12-12; reset 0 -/
  n : Nat
  /-- order position of the next unit to post; 10 R281; reset 0 -/
  upos : Nat
  /-- units posted and not complete; 10 R281; reset none -/
  units : List UnitOut
  /-- the sequencer's entries posted and not yet taken: queue, ring index, unit (kind, v, m); 10 R281; reset none -/
  posts : List (Nat × Nat × (Nat × Nat × Nat))
  /-- completed units (kind, v, m); 10 R281; reset none -/
  udone : List (Nat × Nat × Nat)
  /-- an item or template entry of the attempt completed with an error; 10 R286; reset 0 -/
  itemErr : Bool
  /-- a template COLL, BAR or PSW did not complete with DONE; 10 R286; reset 0 -/
  tplErr : Bool
  /-- a contained or fatal error was reported since the attempt started; 10 R286; reset 0 -/
  errSince : Bool
  /-- mirror messages sent and not acknowledged; a mirror failed; the record was sent; 10 R285 R286; reset 0 -/
  mirrors : Nat
  mirBad : Bool
  mirSent : Bool
  /-- a gather is due at the next attempt; 10 R296; reset 0 -/
  gather : Bool
  /-- the log had no room for the attempt's record; 10 R299; reset 0 -/
  full : Bool
  /-- cause of the hold that the job enters when the abort has come to rest, 0 to retry; 10 R296; reset 0 -/
  due : Nat
  /-- the VSEQ held has not been used by a watershed yet; 10 R288; reset 0 -/
  fresh : Bool
  /-- VOTE entries on the sequencer's own list, not started; 10 R288; reset none -/
  votes : List Desc
  /-- records of the attempt sent to the buddy: offset, units, STEP, VSEQ, KIND; 10 R297, 11 R320; reset none -/
  sent : List (Nat × Nat × Nat × Nat × Nat)
  /-- vote bits formed; 10 R286; reset 0 -/
  h : Bool
  o : Bool
  /-- time of step 6 of the attempt, µs; 13 R372; reset 0 -/
  voteAt : Nat
  /-- VSEQ sealed; 10 R292 R294; reset 0 -/
  sealed_ : Bool
  /-- outcome taken of the VSEQ and its OVF; 10 R292; reset none -/
  out : Option (Bool × Bool)
  /-- hold command or resume waits for the outcome; 10 R296; reset 0 -/
  wantHold : Bool
  wantRun : Bool
  /-- changes named for a watershed; 10 R289; reset none -/
  pend : List Pending
  /-- configuration watershed in progress: handle; 10 R295; reset none -/
  cfgHnd : Option Nat
  /-- the abort has brought the job to rest; 10 R296; reset 1 -/
  atRest : Bool
  /-- log at the buddy as this device computes it: HEAD and TAIL; 32 bits each; 10 R297; reset 0 -/
  bHead : Nat
  bTail : Nat
  /-- log of the mentee held here: HEAD and TAIL; 32 bits each; 10 R297 R309; reset 0 -/
  head : Nat
  tail : Nat
  /-- records in the log at the buddy: offset, units, STEP, VSEQ, KIND; 10 R297; reset none -/
  bRecs : List (Nat × Nat × Nat × Nat × Nat)
  /-- records of the mentee held here: offset, units, STEP, VSEQ, KIND; 10 R297; reset none -/
  recs : List (Nat × Nat × Nat × Nat × Nat)
  /-- SEALED; 64 bits; 10 Table 10-19; reset 0 -/
  sealStep : W64
  /-- CSTATE: 0 none, 1 reading, 2 done, 3 failed; 2 bits; 10 Table 10-19; reset 0 -/
  cstate : Nat
  /-- step of the image being read, and its handle; 10 R300; reset none -/
  ckpt : Option (Nat × Nat)
  /-- a chunk of the image being read holds a spoiled word; 1 bit; 10 R300; reset 0 -/
  ckptBad : Bool
  /-- replacement state; 10 Table 10-20 -/
  repl : Repl
  /-- handle of REPLACE, DRAIN or ROLLBACK in progress; reset none -/
  replHnd : Option Nat
  rollHnd : Option Nat
  /-- units of an optimizer pass in a rebuild still running; 10 R302; reset 0 -/
  rebuilding : Bool
  deriving DecidableEq, Repr

/-! ## Determinism (11) -/

/-- An external input of the attempt (Table 11-4). -/
structure InputRec where
  order : Nat
  srck  : Nat
  len   : Nat
  obj   : Nat
  off   : Nat
  dst   : Nat
  dig   : List Byte
  data  : List Byte
  deriving DecidableEq, Repr

/-- What CERTIFY found between attempts, when its hashing began (R326): SLOT, STEP, VSEQ, E, CLEAN and FIXFREQ of step T. -/
structure CertAt where
  slot  : Nat
  step  : W64
  vseq  : W32
  e     : Int
  clean : Nat
  ff    : Bool
  deriving DecidableEq, Repr

/-- Determinism, replay and audit (11). -/
structure Det where
  /-- inputs of the present attempt, in ORDER; 11 R319; reset none -/
  inputs : List InputRec
  /-- RECS; 16 bits RC; 11 Table 11-7; reset 0 -/
  recs : Nat
  /-- EXPPEND; 16 bits; 11 Table 11-7; reset 0 -/
  expPend : Nat
  /-- REPLAY: a replay runs; 1 bit; 11 Table 11-7; reset 0 -/
  replay : Bool
  /-- MISMATCH, DIVERGE; 1 bit each; 11 Table 11-8; reset 0 -/
  mismatch : Bool
  diverge : Bool
  /-- MORDER; 32 bits; 11 Table 11-8; reset 0 -/
  morder : Nat
  /-- DSTEP; 64 bits; 11 Table 11-8; reset 0 -/
  dstep : W64
  /-- T_stop and SOURCE of the replay, its handle; 11 R322; reset 0 -/
  tstop : W64
  source : Nat
  rhnd : Nat
  /-- recorded inputs still to deliver in the replayed attempt; 11 R322; reset none -/
  feed : List InputRec
  /-- shard digests of the original GRAD records by STEP; 11 R323; reset none -/
  origDig : List (Nat × List Byte)
  /-- CERTIFY waiting or hashing: handle, address, length, T, record address; 11 R326; reset none -/
  cert : Option (Nat × Nat × Nat × W64 × Nat)
  /-- the state that CERTIFY hashes, once its hashing has begun; 11 R326; reset none -/
  certAt : Option CertAt
  /-- FFHELD at the end of each committed step, with its STEP, latest first; 13 R366; reset none -/
  ffAt : List (W64 × Bool)
  /-- digest of the GRAD record of the present attempt; 11 R323; reset none -/
  sentDig : List Byte
  /-- committed INPUT payloads by STEP, for INDIG and for replay; 11 R322 R326; reset none -/
  inPay : List (Nat × List Byte)
  /-- program images of the job in load order; 11 R325; reset empty -/
  prog : List Byte
  deriving DecidableEq, Repr

/-! ## Host interface (12) -/

/-- A queue-table entry (Table 12-5) with the CEQ's own counts. -/
structure QEnt where
  /-- TYPE; 3 bits; 12 Table 12-5; reset 0 -/
  typ : Nat
  /-- STATE: 0 DISABLED, 1 ENABLED, 2 RESETTING, 3 ERROR, 4 STOPPED; 3 bits; 12 Table 12-5; reset 0 -/
  st : Nat
  /-- LOC; 2 bits; 12 Table 12-5; reset 0 -/
  loc : Nat
  /-- LOG2N; 5 bits; 12 Table 12-5; reset 0 -/
  log2n : Nat
  /-- SID; 6 bits; 12 Table 12-5; reset 0 -/
  sid : Nat
  /-- BINDQ; 13 bits; 12 Table 12-5; reset 0x1FFF -/
  bindq : Nat
  /-- PART; 12 bits; 12 Table 12-5; reset 0 -/
  part : Nat
  /-- BNONE; 1 bit; 12 Table 12-5; reset 1 -/
  bnone : Bool
  /-- DBC; 1 bit; 12 Table 12-5; reset 0 -/
  dbc : Bool
  /-- DBCTR; 12 bits; 12 Table 12-5; reset 0 -/
  dbctr : Nat
  /-- BASE; 64 bits; 12 Table 12-5; reset 0 -/
  base : Nat
  /-- HEAD; 16 bits; 12 Table 12-5; reset 0 -/
  head : Nat
  /-- TAIL; 16 bits; 12 Table 12-5; reset 0 -/
  tail : Nat
  /-- CEQ VEC, ARM, PHASE, CNT, TMR; 12 Table 12-5; reset 0 -/
  vec : Nat
  arm : Bool
  phase : Bool
  cnt : Nat
  tmr : Nat
  /-- CWQ core and slot; 12 Table 12-5; reset 0 -/
  core : Nat
  slot : Nat
  /-- TOL engine; 12 Table 12-5; reset 0 -/
  eng : Nat
  /-- NRQ batch size; 12 Table 12-5; reset 0 -/
  batch : Nat
  /-- DBERR; 16 bits RC; 12 Table 12-5; reset 0 -/
  dberr : Nat
  /-- CEQ records not yet signalled; 12 R338; reset 0 -/
  unsig : Nat
  deriving DecidableEq, Repr

/-- A completion record (Table 12-6) with the NOIRQ of its command. -/
structure Rec where
  tag    : W32
  hnd    : W32
  kind   : Nat
  sq     : Nat
  status : Nat
  sqhead : Nat
  d0     : W32
  d1     : W32
  d2     : W32
  d3     : W32
  noirq  : Bool
  deriving DecidableEq, Repr

/-- A session (R339, R340). -/
structure Sess where
  v13   : Bool
  evq   : Nat
  unlocked : Bool
  deriving DecidableEq, Repr

/-- A long command outstanding (R345, R346). -/
structure Long where
  idx    : Nat
  gen    : Nat
  tag    : W32
  q      : Nat
  sid    : Nat
  opc    : Nat
  sqhead : Nat
  noirq  : Bool
  d      : Desc
  deriving DecidableEq, Repr

/-- A read of host memory that the device has sent (R337). `use` 0 fetches descriptors of queue `q`; 1 brings DMA_H2D
source bytes for the long command `idx`. -/
structure HRead where
  tag  : Nat
  use  : Nat
  q    : Nat
  addr : Nat
  len  : Nat
  dst  : Nat
  deriving DecidableEq, Repr

/-- A descriptor fetched from a queue and not yet admitted. -/
structure Fetched where
  q      : Nat
  d      : Desc
  sqhead : Nat
  deriving DecidableEq, Repr

/-- A storage target (Table 12-16). -/
structure Target where
  gid   : Nat
  dqpn  : Nat
  port  : Nat
  rkey  : Nat
  rbase : Nat
  deriving DecidableEq, Repr

/-- The job configuration block (Table 12-13) with defaults applied. -/
structure JobCfg where
  detmode : Nat
  rec_ : Nat
  exportOn : Bool
  dlb : Bool
  group : Nat
  stepOnly : Bool
  coreRg : Nat
  age : Nat
  ctrBase : Nat
  ctrN : Nat
  seqCeq : Nat
  waitLimit : Nat
  seed : W64
  testInt : Nat
  hbmSlice : Nat
  nrqWait : Nat
  collTmo : Nat
  voteTmo : Nat
  outGrace : Nat
  mirrorWait : Nat
  waitTmo : Nat
  retryMax : Nat
  ovfMax : Nat
  nRaise : Nat
  eInit : Int
  ovfMask : Byte
  expTgt : Nat
  targets : List Target
  deriving DecidableEq, Repr

/-- What leaves the module at its connectors, in order. -/
inductive Out where
  | hostWrite (addr : Nat) (bytes : List Byte)
  | hostRead (tag addr len : Nat)
  | msix (vec : Nat)
  | readData (bytes : List Byte) (poisoned : Bool)
  | cfgData (v : W32)
  | i3cData (bytes : List Byte)
  | i3cNack
  | ibi (b : Byte)
  | frame (lid line : Nat) (bytes : List Byte) (shared : Bool)
  | marker (port line : Nat) (bytes : List Byte)
  | storage (tgt : Nat) (off : Nat) (bytes : List Byte)
  | unitData (id : Nat) (bytes : List Byte) (spoil : BitVec 8)
  deriving DecidableEq, Repr

/-- The host interface (12). -/
structure HostIf where
  /-- SES_STAT.READY; 1 bit; 12 Table 12-11; reset 0 -/
  ready : Bool
  /-- SES_STAT.PHASE; 3 bits; 12 Table 12-11; reset 0 -/
  phase : Nat
  /-- SES_STAT.SPEED, WIDTH; 4 + 8 bits; 12 Table 12-11; reset 0 -/
  speed : Nat
  width : Nat
  /-- SES_AQ_SQB; 64 bits RW; 12 Table 12-11; reset 0 -/
  sqb : W64
  /-- SES_AQ_CQB; 64 bits RW; 12 Table 12-11; reset 0 -/
  cqb : W64
  /-- SES_AQ_CFG fields EN, SQLOG2, CQLOG2, VEC; 12 Table 12-11; reset 0 -/
  aqEn : Bool
  sqlog2 : Nat
  cqlog2 : Nat
  aqVec : Nat
  /-- B4BASE; 64 bits; 12 Table 12-11; reset 0 -/
  b4base : Nat
  /-- BAR4 size exponent; 30-40; 12 Table 12-2; reset 36 (64 GiB) -/
  b4log2 : Nat
  /-- TIES; 16 bits RC; 12 Table 12-11; reset 0 -/
  ties : Nat
  /-- queue table; 8,192 entries; 12 R335; reset Table 12-5, queues 0, 1, 8190, 8191 fixed -/
  qs : Tab QEnt
  /-- sessions by SID; 12 R339; reset SID 0 only -/
  sess : Tab Sess
  /-- descriptors fetched and not admitted; 12 R337; reset none -/
  fetched : List Fetched
  /-- tray descriptors on queue 8190 and not admitted; 16; 12 R356; reset none -/
  tray : List Desc
  /-- host memory reads outstanding; 12 R337; reset none -/
  reads : List HRead
  /-- next read tag; 12 R329; reset 0 [5] -/
  nextTag : Nat
  /-- fetch engine's rotating index; 12 R355; reset 0 [5] -/
  rot : Nat
  /-- a tie's winner must be admitted next: 0 none, 1 host, 2 tray; 12 R355; reset 0 -/
  tieNext : Nat
  /-- records that wait for their CEQ, oldest first; 12 R338; reset none -/
  recs : List (Nat × Rec)
  /-- long commands outstanding; 12 R346; reset none -/
  longs : List Long
  /-- generation of each handle index; 8 bits; 12 R346; reset 0 [5] -/
  hgen : Tab Nat
  /-- records of queue 8191 in hub memory, unread; 15 at most; 12 R356; reset none -/
  trayRecs : List Rec
  /-- I3C dynamic address; 7 bits; 12 R356; reset none -/
  i3cAddr : Option Nat
  /-- configuration space words written by the host, by offset; 12 R329; reset Table 12-1 -/
  cfg : Tab W32
  /-- configuration requests are answered; 12 R333; reset 0 -/
  cfgOn : Bool
  /-- MSI-X table and pending bits, words by BAR0 offset; 12 R329; reset 0 [4] -/
  msix : Tab W32
  /-- FATAL read buffer; 64 KiB; 14 R401; reset 0 -/
  fbuf : List Host.Cell
  /-- job configuration; 12 R350; reset none -/
  job : Option JobCfg
  /-- nonce issued by ATTEST; 15 R428; reset none -/
  nonce : Option (List Byte)
  deriving DecidableEq, Repr

/-! ## Power, clocks, thermal (13) -/

/-- A gate's levels (Table 13-9). -/
structure Gate where
  pwr : Nat
  thm : Nat
  eff : Nat
  deriving DecidableEq, Repr

/-- A member's balance report (R372, R373). -/
structure BalRep where
  slot  : Nat
  slack : Nat
  avg   : Nat
  share : Nat
  ceil_ : Nat
  deriving DecidableEq, Repr

/-- Power, clocks and thermal control (13). -/
structure Power where
  /-- coolant stop and trip latches (STATE 3 and 4); 13 Table 13-7; reset 0 -/
  coolStop : Bool
  trip : Bool
  /-- MODE: 0 FIXED, 1 CAPPED, 2 COMPAT; 2 bits; 13 R365 R380; reset 1 [6], set at start-up -/
  mode : Nat
  /-- mode change waiting for an attempt boundary: mode, FSET, P-state; 13 R365; reset none -/
  next : Option (Nat × Nat × Nat)
  /-- FFCAP; 1 bit; 13 R370; reset 0 [6], set at start-up -/
  ffcap : Bool
  /-- FFHELD; 1 bit; 13 R366; reset 0 -/
  ffheld : Bool
  /-- ALERT: THERM_ALERT_N asserted; 1 bit; 13 R375; reset 0 -/
  alert : Bool
  /-- COOLANT_OK level; 1 bit; 13 Table 13-7; reset 0 -/
  coolOk : Bool
  /-- EXIT_OK; 1 bit; 13 R378; reset 0 -/
  exitOk : Bool
  /-- PSTATE; 3 bits; 13 R367; reset 0 -/
  pstate : Nat
  /-- TRAY_CEIL, HOST_LIM; 16 bits each; 13 R359; reset 1600 -/
  trayCeil : Nat
  hostLim : Nat
  /-- BAL_SHARE; 16 bits; 13 Table 13-7; reset 0 -/
  balShare : Nat
  /-- AVG1S, PEAK (RC); 16 bits each; 13 Table 13-7; reset 0 -/
  avg1s : Nat
  peak : Nat
  /-- CPW, MEMW, LNKW; 10 bits each; 13 Table 13-7; reset 0 -/
  cpw : Nat
  memw : Nat
  lnkw : Nat
  /-- FSET, FCUR, FMAX in 10 MHz; 8 bits each; 13 Table 13-8; reset 210; FCUR and FMAX 0 [6], set at start-up -/
  fset : Nat
  fcur : Nat
  fmax : Nat
  /-- MINL; 6 bits; 13 Table 13-8; reset 8 -/
  minl : Nat
  /-- PRIO; 6 bits; 13 Table 13-8; reset 0x24 -/
  prio : Nat
  /-- DROOP, COOLGLITCH, EXCUR; 16, 8, 8 bits RC; 13 Table 13-8; reset 0 -/
  droop : Nat
  glitch : Nat
  excur : Nat
  /-- OPTOFS, MEMOFS, SILOFS; 8 bits each; 13 Table 13-8; reset 0 -/
  optOfs : Nat
  memOfs : Nat
  silOfs : Nat
  /-- balancing EN, LEADER, MEMBERS, SLACK, G; 13 Table 13-8; reset 0 -/
  balEn : Bool
  leader : Bool
  members : Nat
  slack : Nat
  g : Nat
  /-- BAL_STEP, BAL_MIN; 12 Table 12-12; reset 10, 1100 -/
  balStep : Nat
  balMin : Nat
  /-- reports held by the leader, its VSEQ; 13 R373; reset none -/
  reps : List BalRep
  repVseq : Nat
  /-- the reports of that VSEQ have been ranked; 1 bit; 13 R373; reset 0 -/
  ranked : Bool
  /-- DECs sent and not acknowledged: (slot, watts given); 13 R373; reset none -/
  decs : List (Nat × Nat)
  /-- INCs held back: (slot, new share, watts taken); 13 R373; reset none -/
  incs : List (Nat × Nat × Nat)
  /-- watts of acknowledged DECs that no INC has spent; 13 R373; reset 0 -/
  freed : Nat
  /-- gates: key 0-7 dies, 16-27 stacks, 32-37 ports, unlisted 64 64 64; 13 R361 R380; reset 64 -/
  gates : Tab Gate
  /-- thermal level of each die by index 0-30, unlisted 64; the LTHM of a gate is the smallest of the dies that throttle it; 7 bits; 13 R375; reset 64 -/
  thm : Tab Nat
  /-- TJ, TJMAX by index 0-30; 8 bits each; 13 Table 13-9; reset 0 -/
  tj : Tab Nat
  tjmax : Tab Nat
  /-- VTRIM, die FMAX, MARGIN, DROOP (RC) by index 0-11; 13 Table 13-9; reset 0 [6], set at start-up -/
  vtrim : Tab Int
  dfmax : Tab Nat
  margin : Tab Nat
  ddroop : Tab Nat
  /-- islands whose clock is stretched, by die index; 13 R368; reset none -/
  stretched : List Nat
  /-- learned demand, key 8*phase + domain (0 COMPUTE, 1 MEMORY, 2 LINK), in 1/8 W; 13 R364; reset full (none learned) -/
  demand : Tab Nat
  /-- static and dynamic power in W of each domain (0 COMPUTE, 1 MEMORY, 2 LINK) as the controller last had them; 13 R364; reset 0 [6] -/
  coef : Tab (Nat × Nat)
  /-- power of hub and floor in W as last measured; 13 R363; reset 0 [6] -/
  pbase : Nat
  /-- power of each domain scaled to level 64 in the present occurrence of the phase: sum and samples; 13 R364; reset none -/
  occ : Tab (Nat × Nat)
  /-- the fast path holds every level at 0 until the next sample; 13 R358; reset 0 -/
  fast : Bool
  /-- dies at or above throttle (index), dies at or above alert; 13 R375; reset none -/
  hot : List Nat
  warm : List Nat
  /-- time at which the last die fell 3 °C below alert; 13 R375; reset 0 [5] -/
  coolAt : Nat
  deriving DecidableEq, Repr

/-! ## Faults (14) -/

/-- A report (R384, R385, R389). -/
structure Report where
  cls   : Nat
  die   : Nat
  sub   : Nat
  unit  : Nat
  cause : Nat
  info  : Nat
  count : Nat
  deriving DecidableEq, Repr

/-- A reporter latch (Table 14-10). -/
structure Latch where
  valid : Bool
  ovf   : Bool
  rec_  : W32
  info  : Nat
  time  : Nat
  ce    : Nat
  cont  : Nat
  deriving DecidableEq, Repr

/-- A health-ledger entry (R405, Table 14-7): header fields and bytes 16–31. -/
structure Ledg where
  typ  : Nat
  die  : Nat
  sub  : Nat
  unit : Nat
  time : Nat
  seq  : Nat
  body : List Byte
  deriving DecidableEq, Repr

/-- Fault collection (14). -/
structure Flt where
  /-- DSTATE = FATAL is latched; DSTATE (2 bits) reads FATAL under it and otherwise NORMAL or DEGRADED from the units' own states; 14 R409; reset 0 -/
  fatal : Bool
  /-- the ACTIVE report; 14 R387; reset none -/
  active : Option Report
  /-- reports pre-empted, innermost first; 14 R387; reset none -/
  stopped : List Report
  /-- pending CONTAINED reports; 64; 14 R387; reset none -/
  pendCont : List Report
  /-- pending CORRECTED reports; 64; 14 R387; reset none -/
  pendCe : List Report
  /-- a FATAL report waiting; 14 R387; reset none -/
  pendFatal : List Report
  /-- keys held for 1 s and the report coalesced under each; 14 R389; reset none -/
  heldCe : List (Nat × Nat × Nat × Option Report)
  /-- tie index; 14 R388; reset 0 -/
  tie : Nat
  /-- FAULT_N asserted; 1 bit; 14 Table 14-9; reset 0 -/
  faultN : Bool
  /-- PWR_CYCLE_REQ_N asserted; 1 bit; 14 Table 14-9; reset 0 -/
  pwrCyc : Bool
  /-- COVF; 1 bit; 14 Table 14-9; reset 0 -/
  covf : Bool
  /-- LEDGFULL; 1 bit; 14 Table 14-9; reset 0 -/
  ledgFull : Bool
  /-- FLT_FIRST; 14 Table 14-10; reset 0 -/
  first : Latch
  /-- FLT_DIE_i, i = 0-30; 14 Table 14-10; reset 0 -/
  dies : Tab Latch
  /-- windows N and T in ms, unlisted Table 14-4; 14 R392; reset Table 14-4 -/
  wins : Tab (Nat × Nat)
  /-- window counts: (window, instance) to start and count; 14 R391; reset none -/
  cnts : List ((Nat × Nat) × (Nat × Nat))
  /-- health ledger in flash, oldest first; 14 R405; survives resets; empty when new [4] -/
  ledger : List Ledg
  /-- entries not yet written; 14 R405; reset none -/
  ledgq : List Ledg
  /-- next sequence number; 14 R405; 0 when new [4] -/
  ledgSeq : Nat
  /-- lifetime CORRECTED and CONTAINED counts and droop of the day by die index; 14 Table 14-7; 0 when new [4] -/
  lifeCe : Tab Nat
  lifeCont : Tab Nat
  /-- lifetime counts as the last COUNTERS record holds them; 15 R420 R422; empty when new [4] -/
  lifeSv : Tab (Nat × Nat)
  dayDroop : Tab Nat
  dayTj : Tab Nat
  /-- UNIT_READMIT waiting for the attempt boundary; 14 R398; reset none -/
  readmits : List Fetched
  deriving DecidableEq, Repr

/-! ## Module (15) -/

/-- A journal record header as written (R422). -/
structure Jrec where
  kind : Nat
  n    : Nat
  seq  : Nat
  time : Nat
  a    : Nat
  b    : Nat
  deriving DecidableEq, Repr

/-- Module power, start-up, shutdown and service (15). -/
structure Module where
  /-- VIN, IIN; 16 bits each, 10 mV and 10 mA; 15 Table 15-13; reset 0 -/
  vin : Nat
  iin : Nat
  /-- HSSTATE: 0 OFF, 1 RAMP, 2 ON, 3 RETRY, 4 LATCHED; 3 bits; 15 Table 15-13; reset 0 -/
  hs : Nat
  /-- LASTTRIP; 2 bits; 15 Table 15-13; reset 0 -/
  lastTrip : Nat
  /-- RETRIES; 2 bits; 15 Table 15-13; reset 0 -/
  retries : Nat
  /-- SSTATE: 0 CHARGING, 1 READY, 2 HOLDING, 3 WORN, 4 BELOW_MIN; 3 bits; 15 Table 15-13; reset 0 -/
  ss : Nat
  /-- CAP in 10 mF; 8 bits; 15 Table 15-13; reset 0 -/
  cap : Nat
  /-- EUSE in 0.1 J; 16 bits; 15 Table 15-13; reset 0 -/
  euse : Nat
  /-- WORN reported in this power-on; 15 R417; reset 0 -/
  wornSaid : Bool
  /-- SAFE, SHUT, QUIESCE, LATCH, LOCATE, NODEBAD; 1 bit each; 15 Table 15-13; reset 0 -/
  safe : Bool
  shut : Bool
  quiesce : Bool
  latch : Bool
  locate : Bool
  nodebad : Bool
  /-- BTN; 8 bits RC; 15 Table 15-13; reset 0 -/
  btn : Nat
  /-- BANK, PEND, SVNFUSE, SVN, FAILBOOT; 15 Table 15-13; reset 0, SVNFUSE 0 [6] -/
  bank : Nat
  pend : Bool
  svnFuse : Nat
  svn : Nat
  failBoot : Nat
  /-- IDN_FWVER; 32 bits; 16 Table 16-3 R440; reset 0 until firmware is verified -/
  fwver : W32
  /-- boot selector: bank named and sequence number of the two copies; 15 R427; bank A, 0 when new [4] -/
  sel : Nat
  selSeq : Nat
  /-- firmware bank not running: 0 nothing staged, 1 staged and valid, 2 invalid; 15 R427; 0 when new [4] -/
  staged : Nat
  /-- FW_STAGE in progress: handle; 15 R427; reset none -/
  stHnd : Option Nat
  /-- images staged, by bank; a bank not listed holds what it was shipped with; 15 R427; empty when new [4] -/
  imgs : Tab (List Byte)
  /-- start-ups of the running image that reached step 11; 15 R427; 0 when new [4] -/
  okBoots : Nat
  /-- LASTFL, DONE, PLAN; 2 + 8 + 8 bits; 15 Table 15-13; reset 0 -/
  lastFl : Nat
  flDone : Nat
  flPlan : Nat
  /-- power-fail step of Table 15-4 reached (0 none); 15 R419; reset 0 -/
  pf : Nat
  /-- flush units still to write, in order: KIND and data pages; 15 R420; reset none -/
  units : List (Nat × Nat)
  /-- journal records written, ledger and capture; 15 R422; empty when new [4] -/
  jrecs : List Jrec
  /-- erased sectors ahead of the write point, ledger and capture journals; 15 R423; 4 when new [4] -/
  erased : List Nat
  /-- start-up step of Table 15-7 reached; 0-11; 15 R424; reset 0 -/
  step : Nat
  /-- main rails up; 15 R424; reset 0 -/
  rails : Bool
  /-- standby domain powered; 15 R416; reset 0 -/
  standby : Bool
  /-- supervisor hold: 0 none, 1 after a flush, 2 power cycle; 15 R416; reset 0 -/
  hold : Nat
  /-- a reset waits for the conditions of R378, after a coolant stop or trip; 13 R378; reset 0 -/
  coolWait : Bool
  /-- orderly shutdown: cause 0 none, 1 tray, 2 button, 3 latch; step of Table 15-9; 15 R429; reset 0 -/
  sdCause : Nat
  sdStep : Nat
  /-- a DEV_RESET waits for the shutdown to end; 15 R432; reset 0 -/
  resetAfter : Bool
  /-- queue whose DEV_RESET has completed and whose record is not yet written; 12 R348; reset none -/
  resetBy : Option Nat
  /-- PERST_N level low; 12 R333; reset 0 -/
  perst : Bool
  /-- power-on time in s; 14 R405; reset 0 -/
  onSec : Nat
  deriving DecidableEq, Repr

/-! ## The whole state -/

/-- The state of the block. -/
structure State where
  /-- commands that wait, first in first out; the model's own [1]; reset empty -/
  pending : List Instr
  /-- time since reset in µs; 14 Table 14-10; the idle step advances it [2]; reset 0 -/
  now : Nat
  /-- index of the next free value; the model's own [3]; reset 0 -/
  free : Nat
  /-- what has left the connectors, oldest first; 00 R1; reset none -/
  outs : List Out
  /-- cores 0-511, unlisted as after reset; 04 R94 -/
  cores : Tab Cor
  /-- scratchpad, banks, mesh, bonds; 05 R148; reset Floor.init -/
  floor : Floor
  /-- device memory, regions, regulators, stacks; 06 R174; reset Hbm.init -/
  hbm : Hbm
  /-- node, tables, LIDs, messages; 07 R212; reset Fab.init -/
  fab : Fab
  /-- passes, ports, lines, combs; 08 R229; reset Light.init -/
  light : Light
  /-- counters, engines, trees, collectives; 09 R276; reset Coll.init -/
  coll : Coll
  /-- step sequencer; 10 R308; reset Train.init -/
  train : Train
  /-- recording, replay, certification; 11 R328; reset Det.init -/
  det : Det
  /-- sessions, queues, endpoint, I3C; 12 R357; reset HostIf.init -/
  host : HostIf
  /-- power, clocks, temperatures; 13 R380; reset Power.init -/
  power : Power
  /-- collector, latches, windows, ledger; 14 R409; reset Flt.init -/
  flt : Flt
  /-- module power, store, journals, panel, firmware; 15 Table 15-13; reset Module.init -/
  mod : Module
  deriving DecidableEq, Repr

/-! ## Stops -/

/-- The ways the block stops with a fault. -/
inductive Fault where
  /-- A command names a unit that the spec's numbering does not have (R14): a core above 511, a LID above 95, a stack
  above 11. Raised by every command that names a unit. Safe: hardware has no such unit. -/
  | noSuchUnit
  deriving DecidableEq, Repr

/-- The ways the block refuses a command. -/
inductive Refusal where
  /-- A command without a meaning in this model, by its mnemonic. Raised only by the dispatch. Safe. -/
  | notModelled (mnemonic : String)
  /-- A vendor opcode in an unlocked session: R348 accepts it and no rule gives its effect. Raised by VENDOR_OPCODE.
  Safe: the hardware may do anything vendor firmware does. -/
  | vendorEffect
  deriving DecidableEq, Repr

/-! ## After reset -/

/-- An empty store. -/
def Ram.empty : Ram := { bytes := [], spoil := [] }

/-- The value of an EX320 lane after reset: 0, class FIN (R95). -/
def Ex.zero : Ex := { n := 0#320, cls := 0#2 }

/-- A matrix array after device reset (R93). -/
def Arr.init : Arr :=
  { aBuf := [], bBuf := [], aSp := [], bSp := [], aScl := [], bScl := [], aSclSp := [], bSclSp := [], acc := [],
    accSp := [], opq := [], mma := none, drains := [], emits := [], ringBase := 0, ringS := 0, ringFree := 0,
    ringNext := 0, ringCtr := 0, issuedS := 0, flags := 0#8, vec := none }

/-- A core after device reset (R95, Tables 4-14 to 4-17). -/
def Cor.init : Cor :=
  { st := .idle, tpend := false, testing := false, retired := false, retiring := false, waiting := false, waitOn := none,
    waitOk := false, idleq := false, idleAt := 0, pc := 0, entry := 0, extent := 0, imem := [],
    sreg := [], sSp := [], vreg := [], vSp := [], preg := [], xa := [], xaSp := [], vflags := 0#8, excCause := 0,
    excSlot := 0, excPc := 0, waitLimit := 0#32, lastErr := 0#8, item := none, step := 0#64, cyc := 0, nextAt := 0,
    vFree := 0, rdy := [], async := false, nextId := 0, tacc := [], hacc := [], fldq := [],
    fldRun := none, arr0 := Arr.init, arr1 := Arr.init, arr2 := Arr.init, arr3 := Arr.init, held := false,
    tcancel := false }

/-- A bank arbiter after reset: index at HOME-T, nothing queued (R133). -/
def Bank.init : Bank :=
  { homeT := [], homeM := [], mesh := [], maint := [], rot := 0, busy := 0, scrubRow := 0, bistRow := 0 }

/-- FLR_ECC_STAT_t after reset (Table 5-6). -/
def Terr.init : Terr := { ce := 0, ue := 0, scrub := false, bist := false, ready := false }

/-- FLR_BOND_c after reset (Table 5-7). -/
def Bond.init : Bond := { unrep := false, spared := 0, lastGrp := 0, lastLane := 0, laneEvt := 0 }

/-- A stream group after reset (R136). -/
def Group.init : Group := { spare := none, retire := none, replay := [], retry := false, unrep := false, fails := 0, got := [] }

/-- The floor after reset (R148). -/
def Floor.init : Floor :=
  { ram := Ram.empty, banks := [], terr := [], bond := [], groups := [], spent := [], owed := [], outq := [], retbank := [], stops := [],
    stopRot := [], clk := 0 }

/-- A region-table entry after reset: not valid, every field 0 (Table 6-9). -/
def Region.none : Region :=
  { valid := false, map := 0, sel := 0, chan := 0, part := 0, size := 0, base := 0, soff := 0 }

/-- RATE and DEPTH of group `g` after reset (Table 6-2). -/
def rgDefault (g : Nat) : Nat × Nat :=
  match g with
  | 1 => (6000, 1024)
  | 2 => (6000, 1024)
  | 3 => (130, 256)
  | 4 => (100, 64)
  | 5 => (1000, 1024)
  | 6 => (20, 16)
  | _ => (0, 64)

/-- Group `g` after reset: Table 6-2 with a full bucket (R163); the level counts fifths of a byte. -/
def RGrp.init (g : Nat) : RGrp :=
  { rate := (rgDefault g).1, depth := (rgDefault g).2, borrow := false, level := (rgDefault g).2 * 1024 * 5, at_ := 0,
    stall := 0, rot := 0 }

/-- A stack after reset: OFF and untrained (R172). -/
def Stack.init : Stack :=
  { st := 0, rate := 0, slice := false, scrub := false, hot := false, temp := 0, ppr := 0, ce := 0, ue := 0,
    errloc := 0#32, marked := [], rows := [], scrubAt := 0, scrubDue := 0, selfref := false, refreshes := [] }

/-- Device memory after reset: region table empty, every bucket full (R174). -/
def Hbm.init : Hbm :=
  { ram := Ram.empty, rgns := [], rgnGen := [], sets := [], grps := (List.range 16).map fun g => (g, RGrp.init g),
    waitq := [], offer := [], pcq := [], pcRot := [], stks := [], test := [], accAt := [], first := [], scrubH := 24, sliceMs := 50,
    sliceBg := [] }

/-- The VC weights at reset (Table 7-7), laid out as FAB_VCW_n. -/
def vcwReset : W64 := 0x007711FF_FF773333#64

/-- A LID after reset (R212). -/
def Lid.init : Lid :=
  { st := .down, port := 0, wmask := 0#17, peer := 0xFFFF, part := 0, rtt := 0, w := 0, seq := 0, exp := 0,
    nak := false, retry := [], shrSeqs := [], replay := [], replays := 0, crcWin := (0, 0), held := [], outq := [], vcRot := [],
    resv := [], shared := 0, crdOut := [], shrOut := 0#32, crdIn := [], shrIn := 0#32, due := false, vcw := vcwReset,
    visit := (0, 0), rr := 0, lines := [], newMask := none, repMask := 0#17, rmask := 0#17, maskAck := false, crcErr := 0, replayCnt := 0, fmtErr := 0,
    fenceDrop := 0, epochDrop := 0, routeErr := 0, acc := [], txa := [], fenceHnd := none, fencing := false,
    retire := false, fenceCyc := none }

/-- An empty table set (R212). -/
def TabSet.empty : TabSet := { org := [], len := [], links := [], dir := [], wins := [] }

/-- The fabric after reset (R212). -/
def Fab.init : Fab :=
  { phys := 0, lnode := 0x7FFF, part := 0, curEp := 0, cur := TabSet.empty, shadow := none, shadowEp := 0,
    shadowSw := false, shadowAt := 0, shadowHnd := 0, old := none, oldEp := 0, inj := [], dlv := [], lids := [],
    stby := [], stbyClr := [], l2p := [], fenced := [], inMsgs := [], outMsgs := [], nextSlot := 0, lateRsp := 0,
    holds := [], bulk := [], clk := 0, vcwNext := [], mgt := [] }

/-- A line after reset: rings parked, no reading (R222, Table 8-17). -/
def Line.init : Line :=
  { rxr := .parked, txr := .parked, foreign_ := false, heat := 0, rxpwr := -32768, cwcorr := 0, cwunc := 0,
    lockloss := 0, failed := false, mism := 0, good := 0, framed := false, soaks := 0, ready := false, set_ := 0, wait := false,
    susp := false, cwsub := 0, mcnt := 0, slots := 0 }

/-- A port after reset (Table 8-16). -/
def Port.init : Port :=
  { st := .dark, degr := false, rxtot := -32768, txtot := -32768, span := 0, ret := 0, retire := 0, telem := 0,
    base := none, nbTx := none, nbr := none, lmap := [], rot := 0, rotLine := 0, rotNext := 0, rotDue := none,
    soaked := false, soaks := 0, aprAt := 0, pend := false, wait := false, hnd := none, searched := false, rxShift := 0, txShift := 0,
    broken := false }

/-- Light and passes after reset: set 0 valid and active with the dark pass (R229). -/
def Light.init : Light :=
  { passEp := 0, actSet := 0, pendSet := 0, swPend := false, swStep := 0, swLids := [], swLines := [], swFenced := [], swEnt := none, swWait := [],
    valid := 1#8, ver := [], sets := [], shadow := [], rotInt := 30, sel := 0, aSt := 0, bSt := 0, swCnt := 0,
    aPwr := [], bPwr := [], ports := [], lines := [] }

/-- A tree-plan entry after reset (Table 9-6). -/
def TreeEnt.none : TreeEnt :=
  { valid := false, parent := 0x7F, child0 := 0x7F, child1 := 0x7F, pset := 0, depth := 0, rank := 0, size := 0,
    c0size := 0, slots := 0, base := 0 }

/-- A collective engine after reset (R276). -/
def Eng.init : Eng := { inprog := 0, flags := 0#8, aborts := 0, stale := 0, lastCid := 0 }

/-- Collectives after reset (R276). -/
def Coll.init : Coll :=
  { ctrs := [], reqs := [], clk := 0, rot := [], engs := [], plan := [], newPlan := none, census := [], censusDn := [],
    runs := [], slots := [], fill := [], dead := [], vVseq := 0#32, vValid := false, vCommit := false,
    vOvf := false, vAtmo := false, vBtmo := false, vDrop := 0, vLat := 0#32 }

/-- No replacement in progress (Table 10-20). -/
def Repl.init : Repl :=
  { st := 0, source := false, lnode := 0, cdone := 0, ctotal := 0, rleft := 0, image := 0, t_ := 0, rec_ := none,
    tries := 0, drain := false, grp := 0 }

/-- The sequencer after reset (R308). -/
def Train.init : Train :=
  { js := .idle, ws := .none_, phase := 0, slot := 0, loggap := false, cfgw := false, hold := 0, e := 0, retry := 0,
    step := 0#64, vseq := 0#32, clean := 0, aborts := 0, ovfrun := 0, prep := false, hrun := 0, tab := none, sid := 0,
    launched := false, train := false, balRot := [], n := 0, upos := 0, units := [], posts := [], udone := [], itemErr := false, tplErr := false,
    errSince := false, mirrors := 0, mirBad := false, mirSent := false, gather := false, full := false, due := 0, fresh := false,
    votes := [], sent := [], h := false,
    o := false, voteAt := 0, sealed_ := false, out := none, wantHold := false, wantRun := false, pend := [], cfgHnd := none,
    atRest := true, bHead := 0, bTail := 0, head := 0, tail := 0, bRecs := [], recs := [], sealStep := 0#64,
    cstate := 0, ckpt := none, ckptBad := false, repl := Repl.init, replHnd := none, rollHnd := none, rebuilding := false }

/-- Determinism state after reset (R328). -/
def Det.init : Det :=
  { inputs := [], recs := 0, expPend := 0, replay := false, mismatch := false, diverge := false, morder := 0,
    dstep := 0#64, tstop := 0#64, source := 0, rhnd := 0, feed := [], origDig := [], cert := none, certAt := none, ffAt := [], sentDig := [],
    inPay := [], prog := [] }

/-- A free queue-table entry (Table 12-5). -/
def QEnt.free : QEnt :=
  { typ := 0, st := 0, loc := 0, log2n := 0, sid := 0, bindq := 0x1FFF, part := 0, bnone := true, dbc := false,
    dbctr := 0, base := 0, head := 0, tail := 0, vec := 0, arm := false, phase := false, cnt := 0, tmr := 0,
    core := 0, slot := 0, eng := 0, batch := 0, dberr := 0, unsig := 0 }

/-- The four fixed queues after reset (R335, R339): the admin queues wait for SES_AQ_CFG, the tray queues are open. -/
def qsReset : Tab QEnt :=
  [(0, { QEnt.free with typ := 1, bindq := 1, bnone := false }),
   (1, { QEnt.free with typ := 2 }),
   (8190, { QEnt.free with typ := 1, st := 1, loc := 3, log2n := 4, bnone := false }),
   (8191, { QEnt.free with typ := 2, st := 1, loc := 3, log2n := 4, phase := true })]

/-- The host interface after reset (R333, R339, R357). -/
def HostIf.init : HostIf :=
  { ready := false, phase := 0, speed := 0, width := 0, sqb := 0#64, cqb := 0#64, aqEn := false, sqlog2 := 0,
    cqlog2 := 0, aqVec := 0, b4base := 0, b4log2 := 36, ties := 0, qs := qsReset,
    sess := [(0, { v13 := false, evq := 8191, unlocked := false })], fetched := [], tray := [], reads := [],
    nextTag := 0, rot := 0, tieNext := 0, recs := [], longs := [], hgen := [], trayRecs := [],
    i3cAddr := none, cfg := [], cfgOn := false, msix := [], fbuf := [], job := none, nonce := none }

/-- Power after reset (R380, Tables 13-7 to 13-9). -/
def Power.init : Power :=
  { coolStop := false, trip := false, mode := 1, next := none, ffcap := false, ffheld := false, alert := false,
    coolOk := false, exitOk := false, pstate := 0, trayCeil := 1600, hostLim := 1600, balShare := 0, avg1s := 0,
    peak := 0, cpw := 0, memw := 0, lnkw := 0, fset := 210, fcur := 0, fmax := 0, minl := 8, prio := 0x24, droop := 0,
    glitch := 0, excur := 0, optOfs := 0, memOfs := 0, silOfs := 0, balEn := false, leader := false, members := 0,
    slack := 0, g := 0, balStep := 10, balMin := 1100, reps := [], repVseq := 0, ranked := false, decs := [], incs := [], freed := 0,
    gates := [], thm := [], tj := [], tjmax := [], vtrim := [], dfmax := [], margin := [], ddroop := [], stretched := [],
    demand := [], coef := [], pbase := 0, occ := [], fast := false, hot := [], warm := [], coolAt := 0 }

/-- An empty latch (Table 14-10). -/
def Latch.empty : Latch := { valid := false, ovf := false, rec_ := 0#32, info := 0, time := 0, ce := 0, cont := 0 }

/-- Fault collection after reset (R409). -/
def Flt.init : Flt :=
  { fatal := false, active := none, stopped := [], pendCont := [], pendCe := [], pendFatal := [], heldCe := [], tie := 0,
    faultN := false, pwrCyc := false, covf := false, ledgFull := false, first := Latch.empty, dies := [], wins := [],
    cnts := [], ledger := [], ledgq := [], ledgSeq := 0, lifeCe := [], lifeCont := [],
    lifeSv := [], dayDroop := [], dayTj := [], readmits := [] }

/-- The module with its registers at their reset values (Table 15-13) and no input. -/
def Module.init : Module :=
  { vin := 0, iin := 0, hs := 0, lastTrip := 0, retries := 0, ss := 0, cap := 0, euse := 0, wornSaid := false,
    safe := false, shut := false, quiesce := false, latch := false, locate := false, nodebad := false, btn := 0,
    bank := 0, pend := false, svnFuse := 0, svn := 0, failBoot := 0, fwver := 0#32, sel := 0, selSeq := 0, staged := 0,
    stHnd := none, imgs := [], okBoots := 0, lastFl := 0, flDone := 0, flPlan := 0, pf := 0,
    units := [], jrecs := [], erased := [4, 4], step := 0, rails := false, standby := false, hold := 0,
    coolWait := false, sdCause := 0, sdStep := 0, resetAfter := false, resetBy := none, perst := false, onSec := 0 }

/-- The block right after reset: every register at the Reset column of its table, or at the value its log entry
names. No command waits. -/
def State.reset : State :=
  { pending := [], now := 0, free := 0, outs := [], cores := [], floor := Floor.init, hbm := Hbm.init, fab := Fab.init,
    light := Light.init, coll := Coll.init, train := Train.init, det := Det.init, host := HostIf.init,
    power := Power.init, flt := Flt.init, mod := Module.init }

end Sys2Proof.Machine
end

