-- ==== Sys2Proof/Machine/Ops.lean ====
section
/-! DEFINITION. The named operations over tables, stores and the state's parts that every meaning is written with:
sparse tables, canonical memories with spoil marks, byte order (R10), saturating counters (R410) and one updater per
part of the state. -/

namespace Sys2Proof.Machine

/-- What a command answers. -/
abbrev Res := Host.Outcome State Fault Refusal

/-! ## Sparse tables -/

/-- The entry of `t` at key `k`, `d` where none is listed. -/
def tget {α : Type} (d : α) : Tab α → Nat → α
  | [], _ => d
  | (j, v) :: t, k => if j = k then v else tget d t k

/-- `t` with `v` at key `k`, keys rising. -/
def tput {α : Type} : Tab α → Nat → α → Tab α
  | [], k, v => [(k, v)]
  | (j, w) :: t, k, v =>
    if k = j then (k, v) :: t else if k < j then (k, v) :: (j, w) :: t else (j, w) :: tput t k v

/-- `t` with its entry at `k` changed by `f`. -/
def tupd {α : Type} (d : α) (t : Tab α) (k : Nat) (f : α → α) : Tab α := tput t k (f (tget d t k))

/-- `t` without an entry at `k`. -/
def tdel {α : Type} (t : Tab α) (k : Nat) : Tab α := t.filter fun e => e.1 != k

/-- Writes every pair of `l`, in order. -/
def tputAll {α : Type} (t : Tab α) (l : List (Nat × α)) : Tab α := l.foldl (fun a e => tput a e.1 e.2) t

/-! ## Rising sets of numbers -/

/-- `l` with `k` in its place. -/
def setIns : List Nat → Nat → List Nat
  | [], k => [k]
  | j :: l, k => if k = j then j :: l else if k < j then k :: j :: l else j :: setIns l k

/-- `l` without `k`. -/
def setDel (l : List Nat) (k : Nat) : List Nat := l.filter (· != k)

/-- `k` put into or taken out of `l`. -/
def setTo (l : List Nat) (k : Nat) (b : Bool) : List Nat := if b then setIns l k else setDel l k

/-! ## Memories -/

/-- The byte at `a`; an unlisted byte reads 0, the zero fill of R148 and R174. -/
def cellGet : List Host.Cell → Nat → Byte
  | [], _ => 0#8
  | (j, v) :: m, k => if j = k then v else cellGet m k

/-- `m` with byte `v` at `a`; the byte 0 is not listed. -/
def cellPut : List Host.Cell → Nat → Byte → List Host.Cell
  | [], k, v => if v = 0#8 then [] else [(k, v)]
  | (j, w) :: m, k, v =>
    if k = j then (if v = 0#8 then m else (k, v) :: m)
    else if k < j then (if v = 0#8 then (j, w) :: m else (k, v) :: (j, w) :: m)
    else (j, w) :: cellPut m k v

/-- The canonical form of a memory above address `lo`: addresses strictly rising, no entry 0. -/
def cellsFrom : Nat → List Host.Cell → Bool
  | _, [] => true
  | lo, (j, v) :: m => decide (lo ≤ j) && (v != 0#8) && cellsFrom (j + 1) m

/-- The canonical form of a memory. -/
def Memory.wf (m : List Host.Cell) : Bool := cellsFrom 0 m

/-- The bytes `a`, …, `a + n − 1`. -/
def cellRange (m : List Host.Cell) (a : Nat) : Nat → List Byte
  | 0 => []
  | n + 1 => cellGet m a :: cellRange m (a + 1) n

/-- Stores the bytes `bs` from address `a`. -/
def cellStore (m : List Host.Cell) (a : Nat) : List Byte → List Host.Cell
  | [] => m
  | b :: bs => cellStore (cellPut m a b) (a + 1) bs

/-! ## Bytes and numbers (R10) -/

/-- The number whose little-endian bytes are `bs`. -/
def leNat : List Byte → Nat
  | [] => 0
  | b :: bs => b.toNat + 256 * leNat bs

/-- The `n` little-endian bytes of `x`. -/
def natLe (x : Nat) : Nat → List Byte
  | 0 => []
  | n + 1 => BitVec.ofNat 8 x :: natLe (x / 256) n

/-- The bytes of a 32-bit word. -/
def wordBytes (w : W32) : List Byte := natLe w.toNat 4

/-- The word whose bytes are `bs`. -/
def bytesWord (bs : List Byte) : W32 := BitVec.ofNat 32 (leNat bs)

/-- The words of a byte list, four bytes each. -/
def bytesWords (bs : List Byte) : List W32 :=
  (List.range (bs.length / 4)).map fun i => bytesWord ((bs.drop (4 * i)).take 4)

/-- The bytes of a word list. -/
def wordsBytes (ws : List W32) : List Byte := ws.flatMap wordBytes

/-- Byte field of `n` bytes at offset `o` of a structure. -/
def fieldLe (bs : List Byte) (o n : Nat) : Nat := leNat ((bs.drop o).take n)

/-- Field [hi:lo] of a word, as a number (R6). -/
def bitsOf (w : W32) (hi lo : Nat) : Nat := (w.toNat / 2 ^ lo) % 2 ^ (hi + 1 - lo)

/-- Bit `i` of a number. -/
def nbit (x i : Nat) : Bool := (x / 2 ^ i) % 2 == 1

/-- A Bool as 0 or 1. -/
def b2n (b : Bool) : Nat := if b then 1 else 0

/-- `x` in two's complement of `n` bits, as a number. -/
def twos (x : Int) (n : Nat) : Nat := (x % (2 ^ n : Int)).toNat

/-- The signed value of the low `n` bits of `x`. -/
def sval (x n : Nat) : Int := if x % 2 ^ n < 2 ^ (n - 1) then (x % 2 ^ n : Nat) else (x % 2 ^ n : Nat) - (2 ^ n : Nat)

/-- A counter of `w` bits saturates at all ones (R410, R434). -/
def satAdd (w x n : Nat) : Nat := min (x + n) (2 ^ w - 1)

/-! ## Stores with spoil marks (R142, R166) -/

/-- Byte `a`. -/
def Ram.byte (r : Ram) (a : Nat) : Byte := cellGet r.bytes a

/-- Word `w` of a store, the bytes `4w` to `4w + 3`. -/
def Ram.word (r : Ram) (w : Nat) : W32 := bytesWord (cellRange r.bytes (4 * w) 4)

/-- The spoil bit of word `w`. -/
def Ram.spoilt (r : Ram) (w : Nat) : Bool := r.spoil.contains w

/-- A word write sets the word's bytes and its spoil bit. -/
def Ram.setWord (r : Ram) (w : Nat) (v : W32) (sp : Bool) : Ram :=
  { bytes := cellStore r.bytes (4 * w) (wordBytes v), spoil := setTo r.spoil w sp }

/-- A write of byte `a`; the spoil bit of its word becomes `sp` or stays set. -/
def Ram.setByte (r : Ram) (a : Nat) (v : Byte) (sp : Bool) : Ram :=
  { bytes := cellPut r.bytes a v, spoil := if sp then setIns r.spoil (a / 4) else r.spoil }

/-- The spoil bit of word `w` alone. -/
def Ram.setSpoil (r : Ram) (w : Nat) (sp : Bool) : Ram := { r with spoil := setTo r.spoil w sp }

/-- `n` words from word `w`, each with its spoil bit. -/
def Ram.words (r : Ram) (w n : Nat) : List (W32 × Bool) :=
  (List.range n).map fun i => (r.word (w + i), r.spoilt (w + i))

/-- Writes words from word `w`. -/
def Ram.store (r : Ram) (w : Nat) : List (W32 × Bool) → Ram
  | [] => r
  | x :: xs => (r.setWord w x.1 x.2).store (w + 1) xs

/-- The canonical form of a store: memory canonical, spoil marks rising. -/
def Ram.wf (r : Ram) : Bool := Memory.wf r.bytes && decide (r.spoil.Pairwise (· < ·))

/-! ## Parts of the state -/

def State.updFloor (s : State) (f : Floor → Floor) : State := { s with floor := f s.floor }
def State.updHbm (s : State) (f : Hbm → Hbm) : State := { s with hbm := f s.hbm }
def State.updFab (s : State) (f : Fab → Fab) : State := { s with fab := f s.fab }
def State.updLight (s : State) (f : Light → Light) : State := { s with light := f s.light }
def State.updColl (s : State) (f : Coll → Coll) : State := { s with coll := f s.coll }
def State.updTrain (s : State) (f : Train → Train) : State := { s with train := f s.train }
def State.updDet (s : State) (f : Det → Det) : State := { s with det := f s.det }
def State.updHost (s : State) (f : HostIf → HostIf) : State := { s with host := f s.host }
def State.updPower (s : State) (f : Power → Power) : State := { s with power := f s.power }
def State.updFlt (s : State) (f : Flt → Flt) : State := { s with flt := f s.flt }
def State.updMod (s : State) (f : Module → Module) : State := { s with mod := f s.mod }

/-- Core `c`. -/
def State.core (s : State) (c : Nat) : Cor := tget Cor.init s.cores c
def State.updCore (s : State) (c : Nat) (f : Cor → Cor) : State :=
  { s with cores := tupd Cor.init s.cores c f }

/-- LID `l`. -/
def State.lid (s : State) (l : Nat) : Lid := tget Lid.init s.fab.lids l
def State.updLid (s : State) (l : Nat) (f : Lid → Lid) : State :=
  s.updFab fun b => { b with lids := tupd Lid.init b.lids l f }

/-- Port `p`. -/
def State.port (s : State) (p : Nat) : Port := tget Port.init s.light.ports p
def State.updPort (s : State) (p : Nat) (f : Port → Port) : State :=
  s.updLight fun b => { b with ports := tupd Port.init b.ports p f }

/-- Physical line `w` of port `p`. -/
def State.line (s : State) (p w : Nat) : Line := tget Line.init s.light.lines (17 * p + w)
def State.updLine (s : State) (p w : Nat) (f : Line → Line) : State :=
  s.updLight fun b => { b with lines := tupd Line.init b.lines (17 * p + w) f }

/-- HBM stack `n`. -/
def State.stack (s : State) (n : Nat) : Stack := tget Stack.init s.hbm.stks n
def State.updStack (s : State) (n : Nat) (f : Stack → Stack) : State :=
  s.updHbm fun b => { b with stks := tupd Stack.init b.stks n f }

/-- Bank `b` of home region `r`. -/
def State.bank (s : State) (r b : Nat) : Bank := tget Bank.init s.floor.banks (32 * r + b)
def State.updBank (s : State) (r b : Nat) (f : Bank → Bank) : State :=
  s.updFloor fun x => { x with banks := tupd Bank.init x.banks (32 * r + b) f }

/-- Terrace `t`. -/
def State.terr (s : State) (t : Nat) : Terr := tget Terr.init s.floor.terr t
def State.updTerr (s : State) (t : Nat) (f : Terr → Terr) : State :=
  s.updFloor fun x => { x with terr := tupd Terr.init x.terr t f }

/-- Bond interface `c` and its stream group `g`. -/
def State.bond (s : State) (c : Nat) : Bond := tget Bond.init s.floor.bond c
def State.updBond (s : State) (c : Nat) (f : Bond → Bond) : State :=
  s.updFloor fun x => { x with bond := tupd Bond.init x.bond c f }
def State.group (s : State) (c g : Nat) : Group := tget Group.init s.floor.groups (512 * c + g)
def State.updGroup (s : State) (c g : Nat) (f : Group → Group) : State :=
  s.updFloor fun x => { x with groups := tupd Group.init x.groups (512 * c + g) f }

/-- Queue `q`'s table entry. -/
def State.que (s : State) (q : Nat) : QEnt := tget QEnt.free s.host.qs q
def State.updQue (s : State) (q : Nat) (f : QEnt → QEnt) : State :=
  s.updHost fun h => { h with qs := tupd QEnt.free h.qs q f }

/-- Collective engine `e`. -/
def State.eng (s : State) (e : Nat) : Eng := tget Eng.init s.coll.engs e
def State.updEng (s : State) (e : Nat) (f : Eng → Eng) : State :=
  s.updColl fun x => { x with engs := tupd Eng.init x.engs e f }

/-- The gate of a die, stack or port (R361): all levels 64 unless listed. -/
def State.gate (s : State) (i : Nat) : Gate := tget { pwr := 64, thm := 64, eff := 64 } s.power.gates i

/-- Matrix array `a` of a core. -/
def Cor.arr (k : Cor) (a : Nat) : Arr :=
  match a with
  | 0 => k.arr0
  | 1 => k.arr1
  | 2 => k.arr2
  | _ => k.arr3
def Cor.updArr (k : Cor) (a : Nat) (f : Arr → Arr) : Cor :=
  match a with
  | 0 => { k with arr0 := f k.arr0 }
  | 1 => { k with arr1 := f k.arr1 }
  | 2 => { k with arr2 := f k.arr2 }
  | _ => { k with arr3 := f k.arr3 }

/-- The block emits `o` at its connectors. -/
def State.emit (s : State) (o : Out) : State := { s with outs := s.outs ++ [o] }

/-- The next free value's index is spent. -/
def State.tick (s : State) : State := { s with free := s.free + 1 }

/-- A command that names unit `i` of `n`: a number outside the spec's numbering (R14) is the fault. -/
@[inline] def unit (i n : Nat) (r : Res) : Res := if i < n then r else .fault .noSuchUnit

/-- A unit's event occurs where its rule's condition holds; elsewhere there is no such event and nothing changes. -/
@[inline] def when (b : Bool) (s t : State) : Res := if b then .next t else .next s

/-- Numbers `lo`, …, `lo + n − 1`. -/
def from_ (lo n : Nat) : List Nat := (List.range n).map (lo + ·)

/-- Core cycle `n` is permitted at limit `l`: the bit-reversal of n mod 64 is less than l (R74). -/
def cyclePermitted (l n : Nat) : Bool :=
  decide ((List.range 6).foldl (fun a i => a + (n / 2 ^ i % 2) * 2 ^ (5 - i)) 0 < l)

/-- The first number at or after `i`, going round `n`, for which `p` holds: the rotating index of R32. -/
def firstFrom (i n : Nat) (p : Nat → Bool) : Option Nat :=
  (List.range n).findSome? fun j => if p ((i + j) % n) then some ((i + j) % n) else none

end Sys2Proof.Machine
end

