-- ==== Sys2Proof/Machine/Report.lean ====
section
/-! DEFINITION. Records, events, reports, windows and ledger entries: the operations that every family posts with
(12 R338 R344 R347, 14 R384 to R391, R405). -/

namespace Sys2Proof.Machine

/-! ## Records (R338, R344) -/

/-- A completion record for CEQ `q` waits to be written (R338: no record is dropped). -/
def State.postRec (s : State) (q : Nat) (r : Rec) : State := s.updHost fun h => { h with recs := h.recs ++ [(q, r)] }

/-- The CEQ bound to queue `q`, if one is (Table 12-5). -/
def State.ceqOf (s : State) (q : Nat) : Option Nat :=
  if (s.que q).bnone then none else some (if (s.que q).bindq = 0x1FFF then 8191 else (s.que q).bindq)

/-- A record of queue `q`'s work, on the CEQ bound to it; none where no CEQ is bound. -/
def State.postOn (s : State) (q : Nat) (r : Rec) : State :=
  match s.ceqOf q with
  | some c => s.postRec c r
  | none => s

/-- A KIND 0 record. -/
def rec0 (tag : W32) (sq status sqhead : Nat) (d0 d1 d2 d3 : W32) (noirq : Bool) : Rec :=
  { tag := tag, hnd := 0#32, kind := 0, sq := sq, status := status, sqhead := sqhead, d0 := d0, d1 := d1, d2 := d2,
    d3 := d3, noirq := noirq }

/-- A KIND 2 record (R347): TAG 0, SQ 0x1FFF, STATUS OK. -/
def recEvent (code : Nat) (d1 d2 d3 : W32) : Rec :=
  { tag := 0#32, hnd := 0#32, kind := 2, sq := 0x1FFF, status := 0, sqhead := 0, d0 := BitVec.ofNat 32 code, d1 := d1,
    d2 := d2, d3 := d3, noirq := false }

/-- The event CEQ of session `sid`. -/
def State.evqOf (s : State) (sid : Nat) : Nat := (tget { v13 := false, evq := 8191, unlocked := false } s.host.sess sid).evq

/-- The CEQs of device events: each open host session's event CEQ once, and the tray CEQ (R347). -/
def State.devCeqs (s : State) : List Nat :=
  ((s.host.sess.filter (·.1 != 0)).map (·.2.evq)).dedup ++ [8191]

/-- A device event. -/
def State.postDev (s : State) (code : Nat) (d1 d2 d3 : W32) : State :=
  s.devCeqs.foldl (fun t q => t.postRec q (recEvent code d1 d2 d3)) s

/-- An event of session `sid`. -/
def State.postSes (s : State) (sid code : Nat) (d1 : W32) : State :=
  s.postRec (s.evqOf sid) (recEvent code d1 0#32 0#32)

/-- Event 0x0004 for queue `q`: no event of a job, so a device event (R336, R347) [162]. -/
def State.queueEvent (s : State) (q : Nat) : State := s.postDev 0x0004 (BitVec.ofNat 32 q) 0#32 0#32

/-- A queue enters ERROR and event 0x0004 is posted (R336). -/
def State.queueError (s : State) (q : Nat) : State := (s.updQue q fun e => { e with st := 3 }).queueEvent q

/-! ## Reports (R384 to R389) -/

/-- The per-die index of a source (R384, Table 13-9). -/
def dieIndex (die sub : Nat) : Nat :=
  if die < 8 then die else if die = 8 then 8 + sub else if die = 9 then 12 else if die < 16 then die + 3 else die + 3

/-- A report of COUNT 1. -/
def rep (cls die sub unit cause info : Nat) : Report :=
  { cls := cls, die := die, sub := sub, unit := unit, cause := cause, info := info, count := 1 }

/-- The fault record of a report (Table 14-3). -/
def Report.word (r : Report) : W32 :=
  BitVec.ofNat 32 (r.cls * 2 ^ 30 + (r.die % 64) * 2 ^ 24 + (r.sub % 4) * 2 ^ 22 + (r.unit % 1024) * 2 ^ 12 + r.cause % 256)

/-- The fault event of a report (R385). -/
def State.postFault (s : State) (r : Report) : State :=
  s.postDev 0x0003 r.word (BitVec.ofNat 32 r.info)
    (BitVec.ofNat 32 (min r.count 65535 * 65536 + (r.info / 2 ^ 32) % 65536))

/-- The reporter's part (R386): the class count, then the latch or its OVERFLOW. `t` is the time in the latch's unit. -/
def Latch.take (l : Latch) (r : Report) (t : Nat) : Latch :=
  let l := { l with ce := if r.cls = 1 then satAdd 32 l.ce 1 else l.ce,
                    cont := if r.cls = 2 then satAdd 16 l.cont 1 else l.cont }
  if l.valid then { l with ovf := true } else { l with valid := true, rec_ := r.word, info := r.info, time := t }

/-- CORRECTED reports coalesce by this key (R389). -/
def Report.key (r : Report) : Nat × Nat × Nat := (r.die, r.sub, r.cause)

/-- The collector's part of a CORRECTED report (R387, R389): joined to the report held or pending under its key, else
put in the pending list, else COVF. -/
def Flt.pendCorrected (f : Flt) (r : Report) : Flt :=
  if f.heldCe.any (fun h => (h.1, h.2.1, h.2.2.1) == r.key) then
    { f with heldCe := f.heldCe.map fun h => if (h.1, h.2.1, h.2.2.1) == r.key then
        (h.1, h.2.1, h.2.2.1, some (match h.2.2.2 with
          | some x => { x with count := x.count + 1 }
          | none => r)) else h }
  else if f.pendCe.any (fun x => x.key == r.key) then
    { f with pendCe := f.pendCe.map fun x => if x.key == r.key then { x with count := x.count + 1 } else x }
  else if f.pendCe.length < 64 then { f with pendCe := f.pendCe ++ [r] }
  else { f with covf := true }

/-- A report reaches the collector (R387, R408: in FATAL the reporter alone counts it). -/
def Flt.collect (f : Flt) (r : Report) : Flt :=
  if f.fatal then f
  else if r.cls = 1 then f.pendCorrected r
  else if r.cls = 2 then
    if f.pendCont.length < 64 then { f with pendCont := f.pendCont ++ [r] } else { f with covf := true }
  else if f.pendFatal.isEmpty then { f with pendFatal := [r] } else f

/-- A detected error is reported (R386): counted and latched by its reporter, marked for the job's vote (R286), and
passed to the collector. -/
def State.report (s : State) (r : Report) : State :=
  let i := dieIndex r.die r.sub
  let s := s.updFlt fun f =>
    { (f.collect r) with
      dies := tupd Latch.empty f.dies i fun l => l.take r (s.now / 1000)
      first := (f.first.take r s.now)
      lifeCe := if r.cls = 1 then tupd 0 f.lifeCe i (satAdd 32 · 1) else f.lifeCe
      lifeCont := if r.cls = 2 then tupd 0 f.lifeCont i (satAdd 16 · 1) else f.lifeCont }
  if r.cls = 1 then s else s.updTrain fun t => { t with errSince := true }

/-- Several reports that reach the collector in one hub cycle (R388): higher class first, then by the rotating index
over die indexes; after such a tie the index moves past the one taken. -/
def State.reportTie (s : State) : List Report → State
  | [] => s
  | [r] => s.report r
  | rs =>
    (List.range rs.length).foldl (fun (a : State × List Report) _ =>
      let top := (a.2.map (·.cls)).foldl max 0
      match firstFrom a.1.flt.tie 31 (fun i => a.2.any fun r => r.cls == top && dieIndex r.die r.sub == i) with
      | none => a
      | some i =>
        match a.2.find? (fun r => r.cls == top && dieIndex r.die r.sub == i) with
        | none => a
        | some r =>
          let t := if a.2.length > 1 then a.1.updFlt fun f => { f with tie := (i + 1) % 31 } else a.1
          (t.report r, a.2.erase r)) (s, rs) |>.1

/-! ## Windows (R391, R392) -/

/-- Table 14-4: the count limit and the period in ms of window `w` after reset. -/
def winDefault (w : Nat) : Nat × Nat :=
  match w with
  | 0 => (8, 1000)
  | 1 => (8, 1000)
  | 2 => (2, 86400000)
  | 3 => (32, 86400000)
  | 4 => (1, 86400000)
  | 5 => (1, 86400000)
  | 6 => (16, 3600000)
  | 7 => (1, 86400000)
  | 8 => (2, 3600000)
  | 9 => (16, 1000)
  | 10 => (10000, 1000)
  | _ => (0, 0)

/-- N and T of window `w` now. -/
def State.win (s : State) (w : Nat) : Nat × Nat := tget (winDefault w) s.flt.wins w

/-- One update of a window count (R391): start and count before, then after, and whether the event is lasting. -/
def winStep (n t now : Nat) (c : Nat × Nat) : (Nat × Nat) × Bool :=
  let c := if c.2 = 0 ∨ now - c.1 > t * 1000 then (now, 0) else c
  if c.2 + 1 > n then ((c.1, 0), true) else ((c.1, c.2 + 1), false)

/-- The count kept for an instance of a window. -/
def State.winCnt (s : State) (w inst : Nat) : Nat × Nat :=
  ((s.flt.cnts.find? fun e => e.1 == (w, inst)).map (·.2)).getD (0, 0)

/-- An event of window `w` at source instance `inst`: the state with its count updated. -/
def State.winPut (s : State) (w inst : Nat) : State :=
  let c := (winStep (s.win w).1 (s.win w).2 s.now (s.winCnt w inst)).1
  s.updFlt fun f => { f with cnts := ((w, inst), c) :: f.cnts.filter (fun e => e.1 != (w, inst)) }

/-- Whether that event is lasting (R391). -/
def State.winLast (s : State) (w inst : Nat) : Bool :=
  (winStep (s.win w).1 (s.win w).2 s.now (s.winCnt w inst)).2

/-- Counts an event and carries out `act` where it is lasting. -/
def State.winEvent (s : State) (w inst : Nat) (act : State → State) : State :=
  if s.winLast w inst then act (s.winPut w inst) else s.winPut w inst

/-! ## Ledger (R405) -/

/-- An entry waits to be written; its sequence number is given when it is written. -/
def State.ledg (s : State) (typ die sub unit : Nat) (body : List Byte) : State :=
  s.updFlt fun f => { f with ledgq := f.ledgq ++
    [{ typ := typ, die := die, sub := sub, unit := unit, time := s.mod.onSec + s.now / 1000000, seq := 0,
       body := (body ++ List.replicate 16 0#8).take 16 }] }

/-- DSTATE (R409). -/
def State.dstate (s : State) : Nat :=
  if s.flt.fatal then 2
  else if s.cores.any (fun c => c.2.retired) || s.floor.retbank.any (fun b => b.2 != 0#32)
      || s.hbm.stks.any (fun k => k.2.st ≥ 2) || s.light.ports.any (fun p => p.2.degr || p.2.broken || p.2.st == .failed) then 1
  else 0

/-- HEALTH of die index `i` (Table 14-10): FAILED for a stack or port that is FAILED, DEGRADED for one that is
DEGRADED or a die with a retired unit. DEDUCED: the table names the codes only. -/
def State.dieHealth (s : State) (i : Nat) : Nat :=
  if i < 8 then (if s.cores.any (fun c => c.2.retired && c.1 / 64 == i) then 1 else 0)
  else if i < 12 then
    (if s.floor.retbank.any (fun b => b.2 != 0#32 && b.1 / 128 == i - 8) then 1 else 0)
  else if i = 12 then 0
  else if i < 19 then (if (s.port (i - 13)).st == .failed || (s.port (i - 13)).broken then 2 else b2n (s.port (i - 13)).degr)
  else (if (s.stack (i - 19)).st = 3 then 2 else b2n ((s.stack (i - 19)).st == 2))

end Sys2Proof.Machine
end

