-- ==== Sys2Proof/Machine/Counter.lean ====
section
/-! DEFINITION. Triggered counters (09 R250, R251, 10 R284) and the queues whose tail follows one (12 R336). -/

namespace Sys2Proof.Machine

/-- Counter `n`. -/
def State.ctr (s : State) (n : Nat) : W48 := tget 0#48 s.coll.ctrs n

/-- Counter `n` is allocated to the job (R251). -/
def State.ctrOwned (s : State) (n : Nat) : Bool :=
  match s.host.job with
  | some j => decide (j.ctrBase ≤ n ∧ n < j.ctrBase + j.ctrN)
  | none => false

/-- The job may read counter `n` (R251, R284). -/
def State.ctrMine (s : State) (n : Nat) : Bool := s.ctrOwned n || decide (4032 ≤ n ∧ n ≤ 4036)

/-- A stalled WAIT on counter `n` re-tests its condition at a change to `v`; once satisfied it stays so (R110). -/
def Cor.retest (k : Cor) (n : Nat) (v : W48) : Cor :=
  match k.waitOn with
  | some x => if k.waiting && x.1 == n && decide (x.2 ≤ v.toNat) then { k with waitOk := true } else k
  | none => k

/-- Counter `n` becomes `v`: every queue with DBC = 1 on it re-reads its TAIL (R336), and every WAIT on it re-tests (R110). -/
def State.setCtr (s : State) (n : Nat) (v : W48) : State :=
  let t := s.updColl fun c => { c with ctrs := tput c.ctrs n v }
  let t := t.updHost fun h => { h with qs := h.qs.map fun e =>
    if e.2.dbc && e.2.dbctr == n then (e.1, { e.2 with tail := v.toNat % 2 ^ e.2.log2n }) else e }
  if s.ctrMine n then { t with cores := t.cores.map fun e => (e.1, e.2.retest n v) } else t

/-- The adds of units inside the device that own the counter: applied once, modulo 2^48 (R250). -/
def State.addCtr (s : State) (n : Nat) (v : W48) : State := s.setCtr n (s.ctr n + v)

/-- The value a job's read, wait or trigger sees (R251, R284). -/
def State.ctrSeen (s : State) (n : Nat) : W48 := if s.ctrMine n then s.ctr n else 0#48

/-- DIE, SUB and UNIT of an accessor (R251, Table 14-2). -/
def ctrSite : CtrSrc → Nat × Nat × Nat
  | .core c _ _ => (c / 64, 0, c % 64)
  | .array c _ => (c / 64, 0, c % 64)
  | .engine e => (10 + e, 0, 18)
  | .sequencer => (9, 0, 5)
  | .arbiter => (9, 0, 3)

/-- Cause 0x24: INFO holds the counter, bit [16] a write. -/
def State.ctrReport (s : State) (src : CtrSrc) (n : Nat) (write : Bool) : State :=
  s.report (rep 2 (ctrSite src).1 (ctrSite src).2.1 (ctrSite src).2.2 0x24 (n + b2n write * 65536))

/-- A job's read: what it sees, and the report of an access outside its allocation. -/
def State.ctrRead (s : State) (src : CtrSrc) (n : Nat) : State × W48 :=
  (if s.ctrMine n then s else s.ctrReport src n false, s.ctrSeen n)

/-- A job's add or set: applied on its own counters, otherwise reported without effect. -/
def State.ctrAdd (s : State) (src : CtrSrc) (n : Nat) (v : W48) : State :=
  if s.ctrOwned n then s.addCtr n v else s.ctrReport src n true
def State.ctrSet (s : State) (src : CtrSrc) (n : Nat) (v : W48) : State :=
  if s.ctrOwned n then s.setCtr n v else s.ctrReport src n true

/-- The hub cycle of the present moment, as far as time and the commands have named one [173]. -/
def State.hubNow (s : State) : Nat := max (s.now * 2000) s.coll.clk

/-- The latest hub cycle named. -/
def State.hubAt (s : State) (cyc : Nat) : State := s.updColl fun c => { c with clk := max c.clk cyc }

/-- A unit of the device asks the counter unit for an operation (R250). -/
def State.ctrAsk (s : State) (src : CtrSrc) (n : Nat) (op : CtrOp) : State :=
  s.updColl fun c => { c with reqs := c.reqs ++ [{ src := src, age := s.hubNow, ctr := n, op := op }] }

/-- TRG: the operation asks for 1 to be added to its counter when it has one. -/
def State.ctrTrg (s : State) (src : CtrSrc) (t : Option Nat) : State :=
  match t with
  | some n => s.ctrAsk src n (.add 1#48)
  | none => s

/-- The requester port of a source (R250). -/
def ctrPort : CtrSrc → Nat
  | .core c _ _ => c / 128
  | .array c _ => c / 128
  | .engine e => 4 + e
  | .sequencer => 10
  | .arbiter => 11

end Sys2Proof.Machine
end

