-- ==== Sys2Proof/Machine/Mem.lean ====
section
/-! DEFINITION. Accesses to the scratchpad's words (05 R124, R142 to R147) and to device memory's units (06 R154 to
R160, R166, R167, R173): the operations that every requester uses. -/

namespace Sys2Proof.Machine

/-! ## Scratchpad -/

/-- Home region, bank and row of a word (Table 5-1). -/
def regionOf (w : Nat) : Nat := w / 2 ^ 20 % 512
def bankOf (w : Nat) : Nat := w / 4 % 32
def rowOf (w : Nat) : Nat := w / 128 % 8192

/-- A bank is retired (R147). -/
def State.bankDead (s : State) (r b : Nat) : Bool := (tget 0#32 s.floor.retbank r).getLsbD b

/-- A report of the floor for a home region. -/
def floorRep (cls r cause info : Nat) : Report := rep cls 8 (r / 128) (r % 128) cause info

/-- BANK_RETIRE (R147): the bank's bit, cause 0x08 and its ledger entry; once per bank (R408). -/
def State.bankRetire (s : State) (r b : Nat) : State :=
  if s.bankDead r b then s
  else
    let m := tget 0#32 s.floor.retbank r ||| BitVec.ofNat 32 (2 ^ b)
    ((s.updFloor fun f => { f with retbank := tput f.retbank r m }).report (floorRep 2 r 0x08 b)).ledg
      1 8 (r / 128) (r % 128) (0x08#8 :: wordBytes m)

/-- The floor cycle of the present moment, as far as time and the commands of the floor have named one [173]. -/
def State.floorNow (s : State) : Nat := max (s.now * 1600) s.floor.clk

/-- A request of the MAINT port (R133): a write-back of word `w`, a scrub or a slice. -/
def maintReq (age : Nat) (who : Acc) (w : Nat) : BankReq :=
  { port := .maint, age := age, write := false, aadd := false, word := w, data := [], bmask := 0#16, spoil := 0#4, who := who,
    src := 0 }

/-- A corrected word (R143): CE_CNT, cause 0x01, window 3, and a MAINT write-back. -/
def State.floorFixed (s : State) (w : Nat) : State :=
  let r := regionOf w
  let b := bankOf w
  let s := (s.updTerr (r / 128) fun t => { t with ce := satAdd 16 t.ce 1 }).updBank r b fun k =>
    { k with maint := k.maint ++ [maintReq s.floorNow .back w] }
  (s.report (floorRep 1 r 0x01 w)).winEvent 3 (32 * r + b) (·.bankRetire r b)

/-- An uncorrectable word (R144): UE_CNT, cause 0x02, window 4; the word is rewritten with spoil set. -/
def State.floorBad (s : State) (w : Nat) : State :=
  let r := regionOf w
  let b := bankOf w
  let s := (s.updTerr (r / 128) fun t => { t with ue := satAdd 8 t.ue 1 }).updFloor fun f =>
    { f with ram := f.ram.setSpoil w true }
  (s.report (floorRep 2 r 0x02 w)).winEvent 4 (32 * r + b) (·.bankRetire r b)

/-- One word read at a bank that was `dead` when the access reached it: a retired bank reads 0 with spoil (R147); else the
check's finding acts first. -/
def State.spReadAs (s : State) (dead : Bool) (w : Nat) (f : EccFind) : State × (W32 × Bool) :=
  if dead then (s.report (floorRep 2 (regionOf w) 0x0A w), (0#32, true))
  else
    let s := if f.bad.contains w then s.floorBad w else if f.fixed.contains w then s.floorFixed w else s
    (s, (s.floor.ram.word w, s.floor.ram.spoilt w))

/-- One word read at its bank. -/
def State.spRead (s : State) (w : Nat) (f : EccFind) : State × (W32 × Bool) :=
  s.spReadAs (s.bankDead (regionOf w) (bankOf w)) w f

/-- Several words in order, the words of one line in one access: an error of one word retires the bank for later accesses. -/
def State.spReads (s : State) (ws : List Nat) (f : EccFind) : State × List (W32 × Bool) :=
  let r := ws.foldl (fun (a : State × List (W32 × Bool) × Option (Nat × Bool)) w =>
    let dead := match a.2.2 with
      | some l => if l.1 = w / 4 then l.2 else a.1.bankDead (regionOf w) (bankOf w)
      | none => a.1.bankDead (regionOf w) (bankOf w)
    let x := a.1.spReadAs dead w f
    (x.1, a.2.1 ++ [x.2], some (w / 4, dead))) (s, [], none)
  (r.1, r.2.1)

/-- A write reaching a word drops the write-back queued for it (R143). -/
def dropBack (k : Bank) (w : Nat) : Bank :=
  { k with maint := k.maint.filter fun q => !(q.who == .back && q.word == w) }

/-- One word written in full (R144, R147). -/
def State.spWrite (s : State) (w : Nat) (v : W32) (sp : Bool) : State :=
  if s.bankDead (regionOf w) (bankOf w) then s.report (floorRep 2 (regionOf w) 0x0A (w + 2 ^ 32))
  else (s.updBank (regionOf w) (bankOf w) (dropBack · w)).updFloor fun f => { f with ram := f.ram.setWord w v sp }

/-- Words written in order, each at its own address. -/
def State.spWrites (s : State) (l : List (Nat × W32 × Bool)) : State :=
  l.foldl (fun a x => a.spWrite x.1 x.2.1 x.2.2) s

/-- One byte written: the word keeps its other bytes and takes the OR of the spoil states (R144). -/
def State.spWriteByte (s : State) (a : Nat) (v : Byte) (sp : Bool) : State :=
  let w := a / 4
  if s.bankDead (regionOf w) (bankOf w) then s.report (floorRep 2 (regionOf w) 0x0A (w + 2 ^ 32))
  else (s.updBank (regionOf w) (bankOf w) (dropBack · w)).updFloor fun f => { f with ram := f.ram.setByte a v sp }

/-- What a check found, from a free value. -/
def checkOf (n : Nat) : Ecc :=
  match n % 3 with
  | 0 => .clean
  | 1 => .corrected
  | _ => .uncorrectable

/-- What the banks' checks find in words that a unit of the device reads without a command of its own: a free value for each
word of a terrace in service (R142) [174]. -/
def State.freeFind (s : State) (ws : List Nat) : EccFind :=
  let on := fun (e : Ecc) w => (s.terr (regionOf w / 128)).ready && checkOf (Config.freeCheck s.free w) == e
  { fixed := ws.filter (on .corrected), bad := ws.filter (on .uncorrectable) }

/-- Words read at once by a unit of the device, each checked (R142): one of the orders that R130 leaves between requesters [174]. -/
def State.spAsk (s : State) (ws : List Nat) : State × List (W32 × Bool) := s.tick.spReads ws (s.freeFind ws)

/-- `n` word addresses from `a`, modulo 2^29. -/
def wordsFrom (a n : Nat) : List Nat := (List.range n).map fun i => (a + i) % 2 ^ 29

/-! ## Translation (R154 to R159) -/

/-- Entry `n` of the region table. -/
def State.rgn (s : State) (n : Nat) : Region := tget Region.none s.hbm.rgns n

/-- The address lies in the entry (R155). -/
def Region.covers (e : Region) (a : Nat) : Bool :=
  e.valid && decide (e.base * 2 ^ 26 ≤ a ∧ a < (e.base + e.size) * 2 ^ 26)

/-- The valid entry that covers an address, with its number. -/
def State.rgnAt (s : State) (a : Nat) : Option (Nat × Region) := s.hbm.rgns.find? fun e => e.2.covers a

/-- Stack and stack offset of an address in an entry (Table 6-1, R159). -/
def Region.place (e : Region) (a : Nat) : Nat × Nat :=
  let x := a - e.base * 2 ^ 26
  let g := x / 256
  match e.map with
  | 0 =>
    let u := g / 3
    let t := Nat.xor (Nat.xor (u % 4) (u / 2 ^ 10 % 4)) (u / 2 ^ 20 % 4)
    (3 * t + g % 3, e.soff * 2 ^ 24 + (u / 4) * 256 + x % 256)
  | 1 => (3 * e.sel + g % 3, e.soff * 2 ^ 24 + (g / 3) * 256 + x % 256)
  | 2 => (e.sel, e.soff * 2 ^ 24 + x)
  | _ =>
    let y := e.soff * 2 ^ 24 + x
    let n := y / 256
    (e.sel, (n / 2) * 2 ^ 14 + (n % 2) * 2 ^ 13 + e.chan * 2 ^ 8 + y % 256)

/-- Channel and pseudo-channel of a stack offset (R159). -/
def chanOf (so : Nat) : Nat := so / 256 % 32
def pcOf (so : Nat) : Nat := so / 2 ^ 13 % 2

/-- Byte key of the store. -/
def hkey (st so : Nat) : Nat := 2 ^ 36 * st + so

/-- DIE, SUB and UNIT of a requester (Table 14-2). -/
def reqSite : Requester → Nat × Nat × Nat
  | .core c => (c / 64, 0, c % 64)
  | .engine e => (10 + e, 0, 17)
  | .coll e => (10 + e, 0, 18)
  | .host => (9, 0, 0)
  | .service => (9, 0, 8)
  | .hub => (9, 0, 3)
  | .maint => (9, 0, 3)

def reqRep (r : Requester) (cause info : Nat) : Report :=
  rep 2 (reqSite r).1 (reqSite r).2.1 (reqSite r).2.2 cause info

/-- Requests of cores and of the fabric carry a partition that is checked (R157). -/
def reqChecked : Requester → Bool
  | .core _ => true
  | .engine _ => true
  | .coll _ => true
  | _ => false

/-- Translation of a unit with its checks (R154, R157): the entry's number and the place, or the report of the
discarded request. -/
def State.admitUnit (s : State) (who : Requester) (part a : Nat) : State × Option (Nat × Nat × Nat) :=
  match s.rgnAt a with
  | none => (s.report (reqRep who 0x15 a), none)
  | some e =>
    if reqChecked who && e.2.part != part then (s.report (reqRep who 0x16 a), none)
    else (s, some (e.1, (e.2.place a).1, (e.2.place a).2))

/-! ## Units in their stacks (R160, R166, R167, R173) -/

def stackRep (cls st unit cause info : Nat) : Report := rep cls (16 + st) 0 unit cause info

/-- The row that holds the unit at a stack offset, with its channel and pseudo-channel (R159, R169). -/
def rowOfSo (so : Nat) : Nat := Config.hbmRowFirst (so / 2 ^ 14) * 64 + (2 * chanOf so + pcOf so)

/-- Stack offset of the first unit of a row, its pseudo-channel number 2 * channel + pc, and its bank group. -/
def rowBase (row : Nat) : Nat := row / 64 * 2 ^ 14 + row % 2 * 2 ^ 13 + row % 64 / 2 * 2 ^ 8
def rowPc (row : Nat) : Nat := row % 64
def rowBg (row : Nat) : Nat := Config.hbmBg (row / 64) % 4

/-- The error location register of a stack (Table 6-7). -/
def errLoc (so : Nat) (ue : Bool) : W32 :=
  BitVec.ofNat 32 (chanOf so * 2 ^ 27 + pcOf so * 2 ^ 26 + (rowBg (rowOfSo so)) * 2 ^ 24 + b2n ue * 2 ^ 23)

/-- A row is marked for repair (R169; the row table is cleared, R393) and recorded in the health ledger, once: HBMROW with the first
unit's stack offset, left unrepaired so far (Table 14-7). -/
def State.markRow (s : State) (st row : Nat) : State :=
  let s1 := s.updStack st fun k => { k with marked := setIns k.marked row, rows := [] }
  if (s.stack st).marked.contains row then s1
  else s1.ledg 4 (16 + st) 0 (chanOf (rowBase row)) (natLe (rowBase row) 8 ++ [2#8])

/-- A corrected event on a row, in window 5's table of 256 rows (R391, R393). -/
def State.rowEvent (s : State) (st row : Nat) : State :=
  let k := s.stack st
  let old := ((k.rows.find? fun e => e.1 == row).map (·.2)).getD (0, 0)
  let x := winStep (s.win 5).1 (s.win 5).2 s.now old
  if x.2 then s.markRow st row
  else
    let rest := k.rows.filter fun e => e.1 != row
    let rest := if rest.length < 256 then rest
      else
        let first := (rest.map fun e => e.2.1).foldl min (rest.headD (0, 0, 0)).2.1
        match rest.find? fun e => e.2.1 == first with
        | some e => rest.erase e
        | none => rest
    s.updStack st fun k => { k with rows := rest ++ [(row, x.1)] }

/-- A stack becomes FAILED (R172, cause 0x14), once. -/
def State.failStack (s : State) (st : Nat) : State :=
  if (s.stack st).st = 3 then s
  else ((s.updStack st fun k => { k with st := 3 }).report (stackRep 2 st 32 0x14 0)).ledg 1 (16 + st) 0 32 [0x14#8]

/-- A request of a controller's own, for the MAINT input and group 6 (R161, R167, R168, Table 6-2): number 0 scrub, 1 write-back. -/
def maintUnit (st so no cyc : Nat) : HUnit :=
  { req := { id := no, who := .maint, group := 6, addr := so, write := no == 1, data := [], mask := 0#32, spoil := 0#8, part := 0,
             input := 4, cyc := cyc },
    st := st, so := so, rgn := 64, gen := 0 }

/-- The unit is a write-back of the place. -/
def HUnit.isBack (u : HUnit) (st so : Nat) : Bool := u.req.who == .maint && u.req.id == 1 && u.st == st && u.so / 32 == so / 32

/-- A corrected unit (R167): CE_CNT, cause 0x10, window 5, a MAINT write-back. INFO is the stack offset's address. -/
def State.hbmFixed (s : State) (st so info : Nat) : State :=
  let s := (s.updStack st fun k => { k with ce := satAdd 16 k.ce 1, errloc := errLoc so false }).updHbm fun h =>
    { h with waitq := h.waitq ++ [maintUnit st so 1 (s.now * 1250)] }
  (s.report (stackRep 1 st (chanOf so) 0x10 info)).rowEvent st (rowOfSo so)

/-- A request write performed first drops the write-backs of its unit (R167). -/
def State.dropUnitBack (s : State) (st so : Nat) : State :=
  s.updHbm fun h => { h with
    waitq := h.waitq.filter fun u => !u.isBack st so
    offer := h.offer.filter fun u => !u.isBack st so
    pcq := h.pcq.filter fun x => !x.2.isBack st so }

/-- An uncorrectable unit (R167): UE_CNT, cause 0x11, the unit spoiled, its row marked, window 6. -/
def State.hbmBad (s : State) (st so info : Nat) : State :=
  let w := hkey st so / 4
  let s := (s.updStack st fun k => { k with ue := satAdd 16 k.ue 1, errloc := errLoc so true }).updHbm fun h =>
    { h with ram := { h.ram with spoil := (List.range 8).foldl (fun l i => setIns l (w + i)) h.ram.spoil } }
  (((s.report (stackRep 2 st (chanOf so) 0x11 info)).markRow st (rowOfSo so)).winEvent 6 st (·.failStack st))

/-- The words and spoil bits of a stored unit. -/
def State.unitData (s : State) (st so : Nat) : List Byte × List Bool :=
  (cellRange s.hbm.ram.bytes (hkey st so) 32, (List.range 8).map fun i => s.hbm.ram.spoilt (hkey st so / 4 + i))

/-- A read performed at its stack. In a FAILED stack each request is reported, and the read returns the stored unit or
0 with all spoil bits set (R173 leaves which: a free choice). -/
def State.unitRead (s : State) (st so info : Nat) (e : Ecc) : State × (List Byte × List Bool) :=
  if (s.stack st).st = 3 then
    let t := (s.report (stackRep 2 st (chanOf so) 0x17 info)).tick
    if Config.freeChoice s.free % 2 = 0 then (t, s.unitData st so) else (t, (List.replicate 32 0#8, List.replicate 8 true))
  else
    let t := match e with
      | .clean => s
      | .corrected => s.hbmFixed st so info
      | .uncorrectable => s.hbmBad st so info
    (t, t.unitData st so)

/-- The spoil bit a word takes in a write of some of its bytes (R167). -/
def mergeSpoil (old carried : Bool) (bytes : List Bool) : Bool :=
  if bytes.all id then carried else if bytes.any id then old || carried else old

/-- A write of the bytes marked in `mask`, performed at its stack; discarded and reported in a FAILED stack. -/
def State.unitWrite (s : State) (st so info : Nat) (data : List Byte) (mask spoil : List Bool) : State :=
  if (s.stack st).st = 3 then s.report (stackRep 2 st (chanOf so) 0x17 info)
  else (s.dropUnitBack st so).updHbm fun h =>
    let k := hkey st so
    let bytes := (List.range 32).foldl (fun m i => if mask.getD i false then cellPut m (k + i) (data.getD i 0#8) else m) h.ram.bytes
    let sp := (List.range 8).foldl (fun l i =>
      setTo l (k / 4 + i) (mergeSpoil (h.ram.spoilt (k / 4 + i)) (spoil.getD i false) ((mask.drop (4 * i)).take 4))) h.ram.spoil
    { h with ram := { bytes := bytes, spoil := sp } }

/-- A stack sensor's reading; refresh is doubled above 85 °C (R153). -/
def State.stackTemp (s : State) (st temp : Nat) : State :=
  s.updStack st fun k => { k with temp := temp % 256, hot := decide (temp > 85) }

/-! ## Ranges of device memory -/

/-- The unit addresses that hold bytes a, …, a + n − 1, modulo 2^40. -/
def unitsOf (a n : Nat) : List Nat :=
  if n = 0 then [] else (List.range ((a % 32 + n + 31) / 32)).map fun i => (a / 32 * 32 + 32 * i) % 2 ^ 40

/-- The stack serves: OK or DEGRADED, and not in self-refresh (R172). -/
def State.stackRuns (s : State) (st : Nat) : Bool :=
  ((s.stack st).st == 1 || (s.stack st).st == 2) && !(s.stack st).selfref

/-- What the check of a unit finds that a unit of the device reads without a command of its own: a free value in a serving
stack (R167) [174]. -/
def State.freeEcc (s : State) (st so : Nat) : Ecc :=
  if s.stackRuns st then checkOf (Config.freeCheck s.free (hkey st so)) else .clean

def State.grp (s : State) (g : Nat) : RGrp := tget (RGrp.init g) s.hbm.grps g
def State.updGrp (s : State) (g : Nat) (f : RGrp → RGrp) : State :=
  s.updHbm fun h => { h with grps := tupd (RGrp.init g) h.grps g f }

/-- The bucket gains 4 * RATE fifths of a byte in every controller cycle and holds DEPTH at most (R163). -/
def RGrp.fill (k : RGrp) (cyc : Nat) : RGrp :=
  { k with level := min (k.level + 4 * k.rate * (cyc - k.at_)) (k.depth * 1024 * 5), at_ := max k.at_ cyc }

/-- A unit waits in controller cycle `cyc` for its 32 bytes of tokens and takes them; the bucket's time moves on by the cycles that
it has to gain, and STALL by their microseconds (R163). -/
def RGrp.take (k0 : RGrp) (cyc : Nat) : RGrp :=
  let k := k0.fill cyc
  if k.rate = 0 then k
  else if 160 ≤ k.level then { k with level := k.level - 160 }
  else
    let n := (160 - k.level + 4 * k.rate - 1) / (4 * k.rate)
    { k with level := k.level + 4 * k.rate * n - 160, at_ := k.at_ + n,
             stall := satAdd 24 k.stall ((k.at_ + n) / 1250 - k.at_ / 1250) }

/-- Units that wait in a group. -/
def State.waiting (s : State) (g : Nat) : List HUnit := s.hbm.waitq.filter fun u => u.req.group == g

/-- The controller cycle until which a unit that has waited since cycle `old` waits for tokens. -/
def RGrp.waitEnd (k0 : RGrp) (old : Nat) : Nat :=
  let k := k0.fill old
  if k.rate = 0 ∨ 160 ≤ k.level then k.at_ else k.at_ + (160 - k.level + 4 * k.rate - 1) / (4 * k.rate)

/-- A group's bucket and its STALL up to controller cycle `cyc`: the microseconds in which a request of it waited for tokens. -/
def State.regFill (s : State) (g cyc : Nat) : State :=
  let old := ((s.waiting g).map (·.req.cyc)).foldl min cyc
  s.updGrp g fun k =>
    { (k.fill cyc) with stall := satAdd 24 k.stall (min cyc (k.waitEnd old) / 1250 - max k.at_ old / 1250) }

/-- A request of the group waits for tokens in controller cycle `cyc` (WAITING of Table 6-8). -/
def State.rgWaits (s : State) (g cyc : Nat) : Bool :=
  let k := (s.grp g).fill cyc
  !(s.waiting g).isEmpty && k.rate != 0 && decide (k.level < 160)

/-- The job's Tailings log holds the address (Table 6-2 group 5). -/
def State.inLog (s : State) (a : Nat) : Bool :=
  match s.train.tab with
  | some t => decide (t.logBase ≤ a ∧ a < t.logBase + t.logSize)
  | none => false

/-- The group of a request that a unit of the device makes at once (Table 6-2); structures and messages outside the Tailings log
pass group 0 [176]. -/
def State.rgOf (s : State) (who : Requester) (write : Bool) (a : Nat) : Nat :=
  match who with
  | .coll _ => if write then 1 else 2
  | .host => 3
  | .service => 4
  | .maint => 6
  | .core _ => (s.host.job.map (·.coreRg)).getD 0
  | _ => if s.inLog a then 5 else 0

/-- Reads bytes a, …, a + n − 1 through group `g`, unit by unit. The last component is the first address that is unmapped or
spoiled; an unmapped unit gives zeros marked spoiled. -/
def State.memReadG (s : State) (g : Nat) (who : Requester) (part a n : Nat) : State × List Byte × List Bool × Option Nat :=
  let r := (unitsOf a n).foldl (fun (acc : State × List Byte × List Bool) u =>
    match acc.1.admitUnit who part u with
    | (t, none) => (t, acc.2.1 ++ List.replicate 32 0#8, acc.2.2 ++ List.replicate 32 true)
    | (t, some p) =>
      let x := ((t.updGrp g (·.take (t.now * 1250))).tick).unitRead p.2.1 p.2.2 u (t.freeEcc p.2.1 p.2.2)
      (x.1, acc.2.1 ++ x.2.1, acc.2.2 ++ x.2.2.flatMap (List.replicate 4 ·))) (s, [], [])
  let off := a % 32
  let sp := (r.2.2.drop off).take n
  (r.1, (r.2.1.drop off).take n, sp, ((List.range n).find? fun i => sp.getD i false).map fun i => (a + i) % 2 ^ 40)

/-- Reads through the requester's own group. -/
def State.memRead (s : State) (who : Requester) (part a n : Nat) : State × List Byte × List Bool × Option Nat :=
  s.memReadG (s.rgOf who false a) who part a n

/-- Writes `bs` from address `a` through group `g`, each byte with the spoil bit its word carries; the first unmapped address. A unit
written in part is read and checked first (R160). -/
def State.memWriteG (s : State) (g : Nat) (who : Requester) (part a : Nat) (bs : List Byte) (sp : List Bool) : State × Option Nat :=
  let off := a % 32
  (unitsOf a bs.length).zipIdx.foldl (fun (acc : State × Option Nat) u =>
    match acc.1.admitUnit who part u.1 with
    | (t, none) => (t, acc.2 <|> some u.1)
    | (t, some p) =>
      let at_ := fun (i : Nat) => 32 * u.2 + i
      let mask := (List.range 32).map fun i => decide (off ≤ at_ i ∧ at_ i < off + bs.length)
      let data := (List.range 32).map fun i => bs.getD (at_ i - off) 0#8
      let spw := (List.range 8).map fun j => (List.range 4).any fun i => mask.getD (4 * j + i) false && sp.getD (at_ (4 * j + i) - off) false
      let t1 := t.updGrp g (·.take (t.now * 1250))
      let t2 := if mask.all id ∨ (t.stack p.2.1).st = 3 then t1 else (t1.tick.unitRead p.2.1 p.2.2 u.1 (t.freeEcc p.2.1 p.2.2)).1
      (t2.unitWrite p.2.1 p.2.2 u.1 data mask spw, acc.2)) (s, none)

/-- Writes through the requester's own group. -/
def State.memWrite (s : State) (who : Requester) (part a : Nat) (bs : List Byte) (sp : List Bool) : State × Option Nat :=
  s.memWriteG (s.rgOf who true a) who part a bs sp

/-- A write of clean bytes. -/
def State.memPut (s : State) (who : Requester) (part a : Nat) (bs : List Byte) : State × Option Nat :=
  s.memWrite who part a bs []

end Sys2Proof.Machine
end

