-- ==== Sys2Proof/Machine/Flags.lean ====
section
/-! DEFINITION. Number formats, rounding, exception flags and the exact accumulator (02). A value read from a format
is a `Num`; an operation gives the exact value and the format's encoder rounds it once and gathers the flags. -/

namespace Sys2Proof.Machine

/-! ## Flag words (Table 2-5) -/

def fNV : Nat := 1
def fOF : Nat := 2
def fUF : Nat := 4
def fNX : Nat := 8
def fSAT : Nat := 16
def fSCL : Nat := 32

/-- Flags gather (R49: sticky). -/
def orFlags (w : Byte) (f : Nat) : Byte := w ||| BitVec.ofNat 8 f

/-! ## Values -/

/-- A value before encoding: a NaN, an infinity, or ±m·2^e, `rest` when the exact magnitude lies strictly between
m·2^e and (m + 1)·2^e (a quotient or root cut short). -/
inductive Num where
  | nan
  | inf (neg : Bool)
  | fin (neg : Bool) (m : Nat) (e : Int) (rest : Bool)
  deriving DecidableEq, Repr

def Num.zero : Num := .fin false 0 0 false

/-- A binary format: fraction bits, exponent of the smallest normal value, exponent of the largest (Tables 2-2, 2-3). -/
structure Fmt where
  p    : Nat
  emin : Int
  emax : Int
  w    : Nat
  deriving DecidableEq, Repr

def fmtQ16 : Fmt := { p := 8, emin := -62, emax := 63, w := 16 }
def fmtB32 : Fmt := { p := 23, emin := -126, emax := 127, w := 32 }
def fmtB64 : Fmt := { p := 52, emin := -1022, emax := 1023, w := 64 }

/-- The bits of the canonical NaN (R36, R43). -/
def Fmt.nanBits (f : Fmt) : Nat :=
  if f.w = 16 then 0x8000 else if f.w = 32 then 0x7FC00000 else 0x7FF8000000000000

/-- Number of exponent bits: the word less sign and fraction. -/
def Fmt.ebits (f : Fmt) : Nat := f.w - 1 - f.p

/-- The bits of an infinity: the exponent code of all ones (Table 2-2, IEEE 754). -/
def Fmt.infBits (f : Fmt) (neg : Bool) : Nat := b2n neg * 2 ^ (f.w - 1) + (2 ^ f.ebits - 1) * 2 ^ f.p

/-- The bits of the largest finite magnitude. -/
def Fmt.maxBits (f : Fmt) (neg : Bool) : Nat := f.infBits neg - 1

/-- Reading a Q16, binary32 or binary64 word (R35, R36, R41, R42). -/
def Fmt.read (f : Fmt) (x : Nat) : Num :=
  let neg := nbit x (f.w - 1)
  let ec := (x / 2 ^ f.p) % 2 ^ f.ebits
  let fr := x % 2 ^ f.p
  if ec = 2 ^ f.ebits - 1 then (if fr = 0 then .inf neg else .nan)
  else if ec = 0 then
    if fr = 0 then (if f.w = 16 ∧ neg then .nan else Num.zero)
    else .fin neg fr (f.emin - f.p) false
  else .fin neg (2 ^ f.p + fr) (f.emin + (ec - 1 : Nat) - f.p) false

/-- A signalling NaN of binary32 or binary64: its top fraction bit is 0 (R43). The short formats have none. -/
def Fmt.snan (f : Fmt) (x : Nat) : Bool :=
  f.w != 16 && (x / 2 ^ f.p) % 2 ^ f.ebits == 2 ^ f.ebits - 1 && x % 2 ^ f.p != 0 && !nbit x (f.p - 1)

/-- NV for a signalling NaN operand. -/
def Fmt.snf (f : Fmt) (x : Nat) : Nat := if f.snan x then fNV else 0

/-- Rounding of m·2^e (+ rest) to a multiple t of 2^q (R45, R46): the count t and whether it is inexact.
`rnd` is RND of the CVT control, `r` the sixteen random bits. -/
def roundAt (m : Nat) (e q : Int) (rest rnd : Bool) (r : Nat) : Nat × Bool :=
  if q ≤ e then (m * 2 ^ (e - q).toNat, rest)
  else
    let sh := (q - e).toNat
    let t := m / 2 ^ sh
    let low := m % 2 ^ sh
    let up :=
      if rnd then decide (low * 65536 / 2 ^ sh + r ≥ 65536)
      else decide (2 * low > 2 ^ sh) || (decide (2 * low = 2 ^ sh) && (rest || t % 2 == 1))
    (if up then t + 1 else t, low != 0 || rest)

/-- The encoder (R45 to R48): bits and flags of an exact value in a target under a CVT control. -/
def Fmt.write (f : Fmt) (x : Num) (cvt r : Nat) : Nat × Nat :=
  match x with
  | .nan => (f.nanBits, 0)
  | .inf neg => (f.infBits neg, 0)
  | .fin neg m e rest =>
    if m = 0 then (0, if rest then fUF + fNX else 0)
    else
      let q := max (e + Nat.log2 m) f.emin - f.p
      let t := roundAt m e q rest (nbit cvt 0) r
      if t.1 = 0 then (0, fUF + fNX)
      else if q + Nat.log2 t.1 > f.emax then
        if nbit cvt 1 then (f.maxBits neg, fOF + fNX + fSAT) else (f.infBits neg, fOF + fNX)
      else
        let sgn := b2n neg * 2 ^ (f.w - 1)
        let nx := if t.2 then fNX else 0
        if t.1 < 2 ^ f.p then (sgn + t.1, if t.2 then fUF + fNX else 0)
        else
          let l := Nat.log2 t.1
          (sgn + (q + l - f.emin + 1).toNat * 2 ^ f.p + (t.1 / 2 ^ (l - f.p) - 2 ^ f.p), nx)

/-! ## Q8 (R38, R39, R51 to R54) -/

/-- A Q8 element under row code `c` (R40). -/
def readQ8 (x c : Nat) : Num :=
  if c = 255 ∨ x % 256 = 0x80 then .nan
  else
    let neg := nbit x 7
    let ec := (x / 16) % 8
    let fr := x % 16
    if ec = 0 then (if fr = 0 then Num.zero else .fin neg fr ((c : Int) - 127 - 6) false)
    else .fin neg (16 + fr) ((ec : Int) - 7 + c - 127) false

/-- Q8 to Q16 widening (R54): bits and flags. -/
def widenQ8 (x c : Nat) : Nat × Nat :=
  let y := fmtQ16.write (readQ8 x c) 0 0
  (y.1, y.2 ||| (if c = 255 then fSCL else 0))

/-- One element of a narrowed row whose code is `c` (R52, R53): a magnitude above 31 saturates. -/
def narrowQ8 (x : Num) (c cvt r : Nat) : Nat × Nat :=
  match x with
  | .nan => (0x80, 0)
  | .inf _ => (0x80, 0)
  | .fin neg m e _ =>
    if m = 0 then (0, 0)
    else
      let e := e - ((c : Int) - 127)
      let big := if e ≥ 0 then decide (m * 2 ^ e.toNat > 31) else decide (m > 31 * 2 ^ (-e).toNat)
      if big then (b2n neg * 128 + 0x7F, fSAT + fNX)
      else
        let q := max (e + Nat.log2 m) (-2) - 4
        let t := roundAt m e q false (nbit cvt 0) r
        if t.1 = 0 then (0, fUF + fNX)
        else
          let nx := if t.2 then fNX else 0
          if t.1 < 16 then (b2n neg * 128 + t.1, if t.2 then fUF + fNX else 0)
          else
            let l := Nat.log2 t.1
            (b2n neg * 128 + (q + l + 3).toNat * 16 + (t.1 / 2 ^ (l - 4) - 16), nx)

/-- The smallest s with m·2^e·2^−s ≤ 31, clamped to −127..127 (R51). -/
def rowShift (m : Nat) (e : Int) : Int :=
  let s0 := e + Nat.log2 m - 4
  let s1 := if (if s0 ≥ e then decide (m ≤ 31 * 2 ^ (s0 - e).toNat) else decide (m * 2 ^ (e - s0).toNat ≤ 31)) then s0 else s0 + 1
  max (-127) (min 127 s1)

/-- Magnitude order of two finite values. -/
def magLe (m1 : Nat) (e1 : Int) (m2 : Nat) (e2 : Int) : Bool :=
  if e1 ≤ e2 then decide (m1 ≤ m2 * 2 ^ (e2 - e1).toNat) else decide (m1 * 2 ^ (e1 - e2).toNat ≤ m2)

/-- The automatic row code (R51): 127 for a row of zeros. -/
def autoCode (xs : List Num) : Nat :=
  let big := xs.foldl (fun (a : Nat × Int) x =>
    match x with
    | .fin _ m e _ => if m = 0 then a else if a.1 = 0 then (m, e) else if magLe m e a.1 a.2 then a else (m, e)
    | _ => a) (0, 0)
  if big.1 = 0 then 127 else (rowShift big.1 big.2 + 127).toNat

/-- A row with a NaN or an infinity is invalid (R52). -/
def rowInvalid (xs : List Num) : Bool :=
  xs.any fun x => match x with
    | .fin _ _ _ _ => false
    | _ => true

/-! ## Arithmetic -/

/-- The signed integer of a finite value in units of 2^q. -/
def Num.scaled (neg : Bool) (m : Nat) (e q : Int) : Int :=
  let v : Int := (m * 2 ^ (e - q).toNat : Nat)
  if neg then -v else v

/-- The finite value of an integer in units of 2^q. -/
def Num.ofInt (v q : Int) : Num := .fin (decide (v < 0)) v.natAbs q false

/-- Exact sum; NV for opposite infinities. -/
def Num.add (a b : Num) : Num × Nat :=
  match a, b with
  | .nan, _ => (.nan, 0)
  | _, .nan => (.nan, 0)
  | .inf x, .inf y => if x = y then (.inf x, 0) else (.nan, fNV)
  | .inf x, _ => (.inf x, 0)
  | _, .inf y => (.inf y, 0)
  | .fin n1 m1 e1 _, .fin n2 m2 e2 _ =>
    let q := min e1 e2
    (Num.ofInt (Num.scaled n1 m1 e1 q + Num.scaled n2 m2 e2 q) q, 0)

def Num.neg (a : Num) : Num :=
  match a with
  | .nan => .nan
  | .inf x => .inf (!x)
  | .fin n m e r => .fin (!n) m e r

def Num.abs (a : Num) : Num :=
  match a with
  | .nan => .nan
  | .inf _ => .inf false
  | .fin _ m e r => .fin false m e r

/-- Exact product; NV for 0 × infinity. -/
def Num.mul (a b : Num) : Num × Nat :=
  match a, b with
  | .nan, _ => (.nan, 0)
  | _, .nan => (.nan, 0)
  | .inf x, .inf y => (.inf (x != y), 0)
  | .inf x, .fin n m _ _ => if m = 0 then (.nan, fNV) else (.inf (x != n), 0)
  | .fin n m _ _, .inf y => if m = 0 then (.nan, fNV) else (.inf (n != y), 0)
  | .fin n1 m1 e1 _, .fin n2 m2 e2 _ => (.fin (n1 != n2) (m1 * m2) (e1 + e2) false, 0)

/-- a × b + c, exact; NV as for its parts, also when c is a quiet NaN (R43). -/
def Num.fma (a b c : Num) : Num × Nat :=
  let p := Num.mul a b
  let s := Num.add p.1 c
  (s.1, p.2 ||| s.2)

/-- Quotient cut after 130 bits, `rest` for the remainder; NV for 0/0 and inf/inf; a finite value over 0 gives the
infinity of its sign, and −0 is +0 (R42). -/
def Num.div (a b : Num) : Num × Nat :=
  match a, b with
  | .nan, _ => (.nan, 0)
  | _, .nan => (.nan, 0)
  | .inf _, .inf _ => (.nan, fNV)
  | .inf x, .fin n m _ _ => (.inf (if m = 0 then x else x != n), 0)
  | .fin _ _ _ _, .inf _ => (Num.zero, 0)
  | .fin n1 m1 e1 _, .fin n2 m2 e2 _ =>
    if m2 = 0 then (if m1 = 0 then (.nan, fNV) else (.inf n1, 0))
    else if m1 = 0 then (Num.zero, 0)
    else (.fin (n1 != n2) (m1 * 2 ^ 130 / m2) (e1 - e2 - 130) (m1 * 2 ^ 130 % m2 != 0), 0)

/-- Square root cut after at least 60 bits; NV for a negative value. -/
def Num.sqrt (a : Num) : Num × Nat :=
  match a with
  | .nan => (.nan, 0)
  | .inf x => if x then (.nan, fNV) else (.inf false, 0)
  | .fin n m e _ =>
    if m = 0 then (Num.zero, 0)
    else if n then (.nan, fNV)
    else
      let m' := if e % 2 = 0 then m * 2 ^ 120 else m * 2 ^ 121
      let e' := if e % 2 = 0 then e - 120 else e - 121
      let t := Nat.sqrt m'
      (.fin false t (e' / 2) (t * t != m'), 0)

/-- a < b and a = b on numbers; a NaN compares false (R55). -/
def Num.lt (a b : Num) : Bool :=
  match a, b with
  | .nan, _ => false
  | _, .nan => false
  | .inf x, .inf y => x && !y
  | .inf x, _ => x
  | _, .inf y => !y
  | .fin n1 m1 e1 _, .fin n2 m2 e2 _ =>
    let q := min e1 e2
    decide (Num.scaled n1 m1 e1 q < Num.scaled n2 m2 e2 q)

def Num.eq (a b : Num) : Bool :=
  match a, b with
  | .nan, _ => false
  | _, .nan => false
  | .inf x, .inf y => x == y
  | .inf _, _ => false
  | _, .inf _ => false
  | .fin n1 m1 e1 _, .fin n2 m2 e2 _ =>
    let q := min e1 e2
    decide (Num.scaled n1 m1 e1 q = Num.scaled n2 m2 e2 q)

/-- Minimum and maximum (R56). -/
def Num.min (a b : Num) : Num :=
  match a, b with
  | .nan, _ => .nan
  | _, .nan => .nan
  | _, _ => if Num.lt b a then b else a

def Num.max (a b : Num) : Num :=
  match a, b with
  | .nan, _ => .nan
  | _, .nan => .nan
  | _, _ => if Num.lt a b then b else a

/-! ## EX320 (R57 to R64) -/

/-- Class combination (R58): NAN absorbs, opposite infinities give NAN, FIN gives way. -/
def clsAdd (a b : BitVec 2) : BitVec 2 :=
  if a = 0#2 then b else if b = 0#2 then a else if a = b then a else 3#2

/-- Adding a value read from binary32 or Q16 (R58). -/
def Ex.addNum (x : Ex) (v : Num) : Ex :=
  match v with
  | .nan => { x with cls := 3#2 }
  | .inf neg => { x with cls := clsAdd x.cls (if neg then 2#2 else 1#2) }
  | .fin neg m e _ => { x with n := x.n + BitVec.ofInt 320 (Num.scaled neg m e (-149)) }

/-- Adding two EX320 values (R58). -/
def Ex.add (x y : Ex) : Ex := { n := x.n + y.n, cls := clsAdd x.cls y.cls }

/-- The value of an EX320 (R57, R61). -/
def Ex.num (x : Ex) : Num :=
  if x.cls = 1#2 then .inf false else if x.cls = 2#2 then .inf true else if x.cls = 3#2 then .nan
  else Num.ofInt x.n.toInt (-149)

/-- The magnitude |N| of the 320-bit integer. -/
def Ex.mag (x : Ex) : Nat := x.n.toInt.natAbs

/-- Limb i of a magnitude (R62). -/
def limb (m i : Nat) : Nat := (m / 2 ^ (64 * i)) % 2 ^ 64

/-- The limb packet of a value (R62, R63). -/
def Ex.packet (x : Ex) : List Byte :=
  if x.cls ≠ 0#2 then [BitVec.ofNat 8 (x.cls.toNat * 64)]
  else
    let m := x.mag
    let present := (List.range 5).filter fun i => limb m i != 0
    let mask := present.foldl (fun a i => a + 2 ^ i) 0
    BitVec.ofNat 8 ((if mask = 0 then 0 else b2n (decide (x.n.toInt < 0))) * 32 + mask) ::
      present.flatMap fun i => natLe (limb m i) 8

/-- The first packet of a byte list and what follows it; none when it is malformed or cut short (R63). -/
def readPacket (bs : List Byte) : Option (Ex × List Byte) :=
  match bs with
  | [] => none
  | h :: t =>
    let cls := h.toNat / 64
    let neg := nbit h.toNat 5
    let mask := h.toNat % 32
    let present := (List.range 5).filter fun i => nbit mask i
    if mask = 0 ∧ neg then none
    else if cls ≠ 0 ∧ mask ≠ 0 then none
    else if t.length < 8 * present.length then none
    else
      let m := (present.zipIdx).foldl (fun a ij => a + 2 ^ (64 * ij.1) * leNat ((t.drop (8 * ij.2)).take 8)) 0
      some ({ n := if neg then -(BitVec.ofNat 320 m) else BitVec.ofNat 320 m, cls := BitVec.ofNat 2 cls },
        t.drop (8 * present.length))

/-- The twelve words of an EX320 record in memory (R107). -/
def Ex.words (x : Ex) : List W32 :=
  ((List.range 10).map fun i => BitVec.ofNat 32 (x.n.toNat / 2 ^ (32 * i))) ++ [BitVec.ofNat 32 x.cls.toNat, 0#32]

/-- An EX320 record read from memory and whether its reserved bits were 0 (R107: otherwise class NAN with N = 0). -/
def exOfWords (ws : List W32) : Ex × Bool :=
  let w := fun i => (ws.getD i 0#32).toNat
  if w 10 ≥ 4 ∨ w 11 ≠ 0 then ({ n := 0#320, cls := 3#2 }, false)
  else ({ n := BitVec.ofNat 320 ((List.range 10).foldl (fun a i => a + w i * 2 ^ (32 * i)) 0), cls := BitVec.ofNat 2 (w 10) }, true)

end Sys2Proof.Machine
end

