-- ==== Sys2Proof/Machine/Operands.lean ====
section
/-! DEFINITION. The operand forms of a core's slots (04, Tables 4-4, 4-6, 4-9): fields, register reads and writes with
their spoil marks, predicates, packed formats and the per-lane generators. -/

namespace Sys2Proof.Machine

/-- Field [hi:lo] of a slot. -/
def sf (w : W64) (hi lo : Nat) : Nat := (w.toNat / 2 ^ lo) % 2 ^ (hi + 1 - lo)

/-- Sign extension of an n-bit field to an integer. -/
def sext (x n : Nat) : Int := sval x n

/-! ## Scalar registers (R94) -/

/-- s0 reads 0. -/
def Cor.s (k : Cor) (r : Nat) : W64 := if r = 0 then 0#64 else tget 0#64 k.sreg r
def Cor.sSpoilt (k : Cor) (r : Nat) : Bool := r != 0 && k.sSp.contains r

/-- A write of s0 is discarded. -/
def Cor.setS (k : Cor) (r : Nat) (v : W64) (sp : Bool) : Cor :=
  if r = 0 then k else { k with sreg := tput k.sreg r v, sSp := setTo k.sSp r sp }

/-! ## Vector registers (R94, R102) -/

/-- Lane `i` of v register `r` (register numbers wrap at 32 only by the pair rule of R98). -/
def Cor.v (k : Cor) (r i : Nat) : W32 := tget 0#32 k.vreg (64 * r + i)
def Cor.vSpoilt (k : Cor) (r i : Nat) : Bool := k.vSp.contains (64 * r + i)
def Cor.setV (k : Cor) (r i : Nat) (v : W32) (sp : Bool) : Cor :=
  { k with vreg := tput k.vreg (64 * r + i) v, vSp := setTo k.vSp (64 * r + i) sp }

/-- A lane of type TY: a 32-bit lane, or the pair of R102 for TY 1. -/
def Cor.lane (k : Cor) (ty r i : Nat) : Nat :=
  if ty = 1 then (k.v r i).toNat + 2 ^ 32 * (k.v (r + 1) i).toNat else (k.v r i).toNat
def Cor.laneSp (k : Cor) (ty r i : Nat) : Bool :=
  k.vSpoilt r i || (ty == 1 && k.vSpoilt (r + 1) i)
def Cor.setLane (k : Cor) (ty r i x : Nat) (sp : Bool) : Cor :=
  if ty = 1 then (k.setV r i (BitVec.ofNat 32 x) sp).setV (r + 1) i (BitVec.ofNat 32 (x / 2 ^ 32)) sp
  else k.setV r i (BitVec.ofNat 32 x) sp

/-- Q16 element `e` of register `r`. -/
def Cor.q16 (k : Cor) (r e : Nat) : Nat := (k.v r (e / 2)).toNat / 2 ^ (16 * (e % 2)) % 65536

/-- A write of Q16 element `e`: the other half stays, and the lane's mark gathers (R120). -/
def Cor.setQ16 (k : Cor) (r e x : Nat) (sp : Bool) : Cor :=
  let old := (k.v r (e / 2)).toNat
  let sh := 2 ^ (16 * (e % 2))
  k.setV r (e / 2) (BitVec.ofNat 32 (old - (old / sh % 65536) * sh + x * sh)) (sp || k.vSpoilt r (e / 2))

/-- Q8 element `e` of register `r`. -/
def Cor.q8 (k : Cor) (r e : Nat) : Nat := (k.v r (e / 4)).toNat / 2 ^ (8 * (e % 4)) % 256
def Cor.setQ8 (k : Cor) (r e x : Nat) (sp : Bool) : Cor :=
  let old := (k.v r (e / 4)).toNat
  let sh := 2 ^ (8 * (e % 4))
  k.setV r (e / 4) (BitVec.ofNat 32 (old - (old / sh % 256) * sh + x * sh)) (sp || k.vSpoilt r (e / 4))

/-- Lanes 16–63 of a Q8 register are written 0 (R447). -/
def Cor.clearQ8 (k : Cor) (r : Nat) : Cor := (from_ 16 48).foldl (fun a i => a.setV r i 0#32 false) k

/-! ## Predicates and exact accumulators -/

/-- p0 reads all ones. -/
def Cor.p (k : Cor) (r : Nat) : W64 := if r = 0 then BitVec.allOnes 64 else tget 0#64 k.preg r
def Cor.setP (k : Cor) (r : Nat) (v : W64) : Cor := if r = 0 then k else { k with preg := tput k.preg r v }

/-- The active lanes of a predicate field PR and PN (R101). -/
def Cor.active (k : Cor) (pr pn : Nat) : W64 := if pn = 1 then ~~~(k.p pr) else k.p pr
def lanesOf (m : W64) : List Nat := (List.range 64).filter fun i => m.getLsbD i

def Cor.x (k : Cor) (r i : Nat) : Ex := tget Ex.zero k.xa (64 * r + i)
def Cor.xSpoilt (k : Cor) (r i : Nat) : Bool := k.xaSp.contains (64 * r + i)
def Cor.setX (k : Cor) (r i : Nat) (v : Ex) (sp : Bool) : Cor :=
  { k with xa := tput k.xa (64 * r + i) v, xaSp := setTo k.xaSp (64 * r + i) sp }

def Cor.setFlags (k : Cor) (f : Nat) : Cor := { k with vflags := orFlags k.vflags f }

/-! ## Generators (R108, R109) -/

/-- What a core's draws and special registers take from outside the core. -/
structure Env where
  seed : W64
  det  : Nat
  lnode : Nat
  core : Nat
  deriving DecidableEq, Repr

/-- One round of Philox-4×32 on (x0, x1, x2, x3) under keys k0, k1. -/
def philoxRound (x : Nat × Nat × Nat × Nat) (k0 k1 : Nat) : Nat × Nat × Nat × Nat :=
  let a := 0xD2511F53 * x.1
  let b := 0xCD9E8D57 * x.2.2.1
  (Nat.xor (Nat.xor (b / 2 ^ 32) x.2.1) k0, b % 2 ^ 32, Nat.xor (Nat.xor (a / 2 ^ 32) x.2.2.2) k1, a % 2 ^ 32)

/-- Ten rounds with the key increments of R108. -/
def philox (c : Nat × Nat × Nat × Nat) (k0 k1 : Nat) : Nat × Nat × Nat × Nat :=
  ((List.range 10).foldl (fun (a : (Nat × Nat × Nat × Nat) × Nat × Nat) _ =>
    (philoxRound a.1 a.2.1 a.2.2, (a.2.1 + 0x9E3779B9) % 2 ^ 32, (a.2.2 + 0xBB67AE85) % 2 ^ 32)) (c, k0, k1)).1

/-- The word at draw index D of a stream of generator `lane` (Table 4-11). -/
def draw (seed step : W64) (home lane stream d : Nat) : Nat :=
  let x := philox (d / 4 % 2 ^ 30, stream % 65536 * 65536 + home % 512 * 128 + lane % 128, step.toNat % 2 ^ 32, step.toNat / 2 ^ 32)
    (seed.toNat % 2 ^ 32) (seed.toNat / 2 ^ 32)
  match d % 4 with
  | 0 => x.1
  | 1 => x.2.1
  | 2 => x.2.2.1
  | _ => x.2.2.2

/-- HOME_CORE (R109). -/
def Cor.home (k : Cor) (e : Env) : Nat :=
  match k.item with
  | some it => it.home
  | none => e.core

/-- The draw of lane `i` that s[VC] names (R104, VRNG). -/
def Cor.drawAt (k : Cor) (e : Env) (vc i : Nat) : Nat :=
  draw e.seed k.step (k.home e) i ((k.s vc).toNat / 2 ^ 32 % 65536) ((k.s vc).toNat % 2 ^ 32)

/-! ## Special registers (Table 4-8) -/

/-- The value of special register `n` in core cycle `cyc`. WQ with no current item reads 0: Table 4-8 gives no value for that case
[180]. -/
def Cor.special (k : Cor) (e : Env) (n cyc : Nat) : W64 :=
  match n with
  | 0 => BitVec.ofNat 64 e.core
  | 1 => BitVec.ofNat 64 (k.home e)
  | 2 => BitVec.ofNat 64 cyc
  | 3 => k.step
  | 4 => BitVec.ofNat 64 e.lnode
  | 5 => BitVec.ofNat 64 ((k.item.map (·.q)).getD 0)
  | 6 => k.vflags.setWidth 64
  | 7 => BitVec.ofNat 64 e.det
  | _ => 0#64

/-- Register names of the scoreboard: s 0–31, v 32–63, p 64–71, xa 72–87. -/
def nV (r : Nat) : Nat := 32 + r
def nP (r : Nat) : Nat := 64 + r
def nX (r : Nat) : Nat := 72 + r

/-- Names of a vector operand of type TY. -/
def nVt (ty r : Nat) : List Nat := if ty = 1 then [nV r, nV (r + 1)] else [nV r]

end Sys2Proof.Machine
end

