-- ==== Sys2Proof/Machine/Matrix.lean ====
section
/-! DEFINITION. The matrix slot (03): decoding and rejection (R90, R91), the interlocks of R87, and what the arrays
compute (R66 to R85). -/

namespace Sys2Proof.Machine

/-! ## Fields (Tables 3-3 to 3-7) -/

def mopOf (w : W64) : Nat := sf w 63 58
def mArr (w : W64) : Nat := sf w 57 56
def mAcc (w : W64) : Nat := sf w 55 53

def mmaShp (w : W64) : Nat := sf w 52 50
def mmaFA (w : W64) : Nat := sf w 49 46
def mmaFB (w : W64) : Nat := sf w 45 42
def mmaSub (w : W64) : Nat := sf w 31 27
def mmaAZ (w : W64) : Bool := nbit w.toNat 26
def mmaEXM (w : W64) : Bool := nbit w.toNat 25
def mmaLK (w : W64) : Bool := nbit w.toNat 24

/-- K and K_BASE of a queued MMA. -/
def MOp.k (o : MOp) : Nat := o.r1.toNat % 65536
def MOp.kBase (o : MOp) : Nat := o.r1.toNat / 2 ^ 32

/-- Byte offset of operand slot `i` of a side. -/
def MOp.off (o : MOp) (b : Bool) (i : Nat) : Nat := (if b then o.r3 else o.r2).toNat / 2 ^ (16 * i) % 65536

/-- Operand slots and record length of a side, by shape (Table 3-2). -/
def mmaSide (shp : Nat) (b : Bool) : Nat × Nat :=
  match shp, b with
  | 1, false => (2, 16)
  | 1, true => (2, 32)
  | 2, true => (1, 16)
  | 3, _ => (4, 16)
  | 4, true => (1, 1)
  | _, _ => (1, 32)

/-- Element size of a format. -/
def elSize (f : Nat) : Nat := if f = 0 then 1 else if f = 1 then 2 else 4

def fldMask (w : W64) : Nat := sf w 57 54
def fldB (w : W64) : Bool := nbit w.toNat 53
def fldScl (w : W64) : Bool := nbit w.toNat 52
def fldFmt (w : W64) : Nat := sf w 51 48
def fldTR (w : W64) : Bool := nbit w.toNat 37
def MOp.fldSrc (o : MOp) : Nat := o.r1.toNat % 2 ^ 29
def MOp.fldOff (o : MOp) : Nat := o.r1.toNat / 2 ^ 32 % 65536
def MOp.fldN (o : MOp) : Nat := o.r2.toNat % 65536
def MOp.fldE (o : MOp) : Nat := o.r2.toNat / 2 ^ 16 % 256
def MOp.fldS (o : MOp) : Nat := o.r2.toNat / 2 ^ 32 % 2 ^ 24

def drnFmt (w : W64) : Nat := sf w 52 49
def drnAdd (w : W64) : Bool := nbit w.toNat 48
def drnCvt (w : W64) : Nat := sf w 47 46
def drnClr (w : W64) : Bool := nbit w.toNat 45
def MOp.drnBase (o : MOp) : Nat := o.r1.toNat % 2 ^ 29
def MOp.drnStride (o : MOp) : Nat := o.r1.toNat / 2 ^ 32 % 2 ^ 24
def MOp.drnVec (o : MOp) : Nat := o.r2.toNat % 2 ^ 29
def MOp.drnDraw (o : MOp) : Nat := o.r2.toNat / 2 ^ 32

def MOp.emcBase (o : MOp) : Nat := o.r1.toNat % 2 ^ 29
def MOp.emcS (o : MOp) : Nat := o.r1.toNat / 2 ^ 32 % 256
def MOp.emcCtr (o : MOp) : Nat := o.r1.toNat / 2 ^ 40 % 4096

/-- The counter of TRG. -/
def mTrg (w : W64) : Option Nat :=
  match mopOf w with
  | 1 => if nbit w.toNat 36 then some (sf w 35 24) else none
  | 8 => if nbit w.toNat 23 then some (sf w 22 11) else none
  | 16 => if nbit w.toNat 34 then some (sf w 33 22) else none
  | _ => none

/-- The scalar registers an operation names (R90). -/
def mRegs (w : W64) : List Nat :=
  match mopOf w with
  | 0x01 => [sf w 47 43, sf w 42 38]
  | 0x08 => [sf w 41 37, sf w 36 32, sf w 36 32 + 1]
  | 0x10 => [sf w 44 40, sf w 39 35]
  | 0x14 => [sf w 55 51]
  | _ => []

/-- The operation as it stands at issue, with the registers it reads and the step; its issue adds the home core. -/
def mopAt (k : Cor) (w : W64) : MOp :=
  let r := fun i => match (mRegs w)[i]? with
    | some n => if n < 32 then k.s n else 0#64
    | none => 0#64
  { id := k.nextId, raw := w, r1 := r 0, r2 := r 1, r3 := r 2, home := 0, step := k.step }

/-! ## Rejection (Table 3-8) -/

/-- Slots in use of an array's ring (R80). -/
def Arr.ringUsed (a : Arr) : Nat := a.ringS - a.ringFree

def mmaConds (k : Cor) (o : MOp) : List Nat :=
  let w := o.raw
  let shp := mmaShp w
  let okf := fun f => if shp = 5 then f == 4 else f == 0 || f == 1
  let side := fun (b : Bool) (f : Nat) =>
    (List.range (mmaSide shp b).1).any fun i =>
      o.off b i % 32 != 0 || decide (o.off b i + o.k * (mmaSide shp b).2 * elSize f > 65536)
  [(2, decide (shp ≥ 6)),
   (3, !(okf (mmaFA w)) || !(okf (mmaFB w))),
   (4, o.k == 0 || decide (o.k > 4096)),
   (5, side false (mmaFA w) || side true (mmaFB w)),
   (6, if shp = 2 then decide (mmaSub w > 1) else if shp = 4 then false else mmaSub w != 0),
   (7, (mmaEXM w && shp != 0 && shp != 5) || (mmaLK w && !mmaEXM w)),
   (8, mmaEXM w && (k.arr (mArr w)).issuedS == 0),
   (10, sf w 36 32 == 31),
   (11, sf w 10 0 != 0)].filterMap fun c => if c.2 then some c.1 else none

def fldConds (o : MOp) : List Nat :=
  let w := o.raw
  let f := fldFmt w
  let scl := fldScl w
  [(3, !scl && f != 0 && f != 1 && f != 2 && f != 4),
   (4, o.fldN == 0 || decide (o.fldN > 4096) || (!scl && o.fldE != 1 && o.fldE != 16 && o.fldE != 32) || (scl && decide (o.fldN > 64))),
   (5, if scl then decide (o.fldOff + o.fldN > 64)
       else o.fldOff % 32 != 0 || decide (o.fldOff + o.fldN * o.fldE * elSize f > 65536)),
   (10, fldMask w == 0),
   (11, sf w 23 0 != 0)].filterMap fun c => if c.2 then some c.1 else none

/-- The conditions of Table 3-8 that an operation meets, as codes. EMR with NS = 0 meets none of them and returns no slot: Table 3-7
gives 1–255 and Table 3-8 has no condition for 0 [178]. -/
def mConds (k : Cor) (w : W64) : List Nat :=
  let o := mopAt k w
  let c := fun (l : List (Nat × Bool)) => l.filterMap fun x => if x.2 then some x.1 else none
  match mopOf w with
  | 0x00 => c [(11, sf w 57 0 != 0)]
  | 0x01 => fldConds o
  | 0x08 => mmaConds k o
  | 0x10 => c [(3, decide (drnFmt w > 2)), (9, drnAdd w && drnFmt w != 2), (11, sf w 21 0 != 0)]
  | 0x14 => c [(10, o.emcBase % 1024 != 0), (11, sf w 50 0 != 0)]
  | 0x15 => c [(8, decide (sf w 55 48 > (k.arr (mArr w)).ringUsed)), (11, sf w 47 0 != 0)]
  | 0x18 => c [(11, sf w 46 0 != 0)]
  | 0x1C => c [(11, sf w 57 0 != 0)]
  | _ => [1]

/-- The lowest of some conditions, 0 when there is none. -/
def lowCond (l : List Nat) : Nat :=
  match l with
  | [] => 0
  | c :: cs => cs.foldl min c

/-- LASTERR's code: the lowest condition, 0 when none holds. -/
def mReject (k : Cor) (w : W64) : Nat := lowCond (mConds k w)

/-- The code of a bundle that is examined before it issues: EMR's count of slots in use is taken in the cycle of issue alone (R80). -/
def mRejectEarly (k : Cor) (w : W64) : Nat := lowCond ((mConds k w).filter fun c => !(c == 8 && mopOf w == 0x15))

/-- Every matrix operation of the core has completed (R88). -/
def Cor.mQuiet (k : Cor) : Bool :=
  k.fldq.isEmpty && k.fldRun.isNone &&
  (List.range 4).all fun a => (k.arr a).opq.isEmpty && (k.arr a).mma.isNone && (k.arr a).drains.isEmpty && (k.arr a).emits.isEmpty

/-- The queue that the operation enters is full, or MFENCE is not satisfied (R87, R88, R97). -/
def mStall (k : Cor) (w : W64) : Bool :=
  match mopOf w with
  | 0x01 => decide (k.fldq.length ≥ 8)
  | 0x08 => decide ((k.arr (mArr w)).opq.length ≥ 8)
  | 0x10 => decide ((k.arr (mArr w)).opq.length ≥ 8)
  | 0x14 => decide ((k.arr (mArr w)).opq.length ≥ 8)
  | 0x18 => decide ((k.arr (mArr w)).opq.length ≥ 8)
  | 0x1C => !k.mQuiet
  | _ => false

/-- Issue of the slot: the operation enters its queue; EMR acts at once (R80); EMC's S counts from issue. -/
def mIssue (k0 k : Cor) (e : Env) (w : W64) : Cor :=
  let o := { mopAt k0 w with home := k0.home e }
  match mopOf w with
  | 0x01 => { k with fldq := k.fldq ++ [o], nextId := k.nextId + 1 }
  | 0x08 => { (k.updArr (mArr w) fun a => { a with opq := a.opq ++ [o] }) with nextId := k.nextId + 1 }
  | 0x10 => { (k.updArr (mArr w) fun a => { a with opq := a.opq ++ [o] }) with nextId := k.nextId + 1 }
  | 0x14 => { (k.updArr (mArr w) fun a => { a with opq := a.opq ++ [o], issuedS := o.emcS }) with nextId := k.nextId + 1 }
  | 0x15 => k.updArr (mArr w) fun a => { a with ringFree := a.ringFree + sf w 55 48 }
  | 0x18 => { (k.updArr (mArr w) fun a => { a with opq := a.opq ++ [o] }) with nextId := k.nextId + 1 }
  | _ => k

/-! ## Interlocks (R87) -/

/-- Two word ranges share a word, modulo 2^29. -/
def rangesMeet (a n b m : Nat) : Bool :=
  let d := (b + 2 ^ 29 - a % 2 ^ 29) % 2 ^ 29
  n != 0 && m != 0 && (decide (d < n) || decide (2 ^ 29 - d < m ∧ d ≠ 0))

/-- Byte ranges of a buffer that an MMA reads on one side. -/
def MOp.reads (o : MOp) (b : Bool) : List (Nat × Nat) :=
  let f := if b then mmaFB o.raw else mmaFA o.raw
  let sd := mmaSide (mmaShp o.raw) b
  (List.range sd.1).map fun i => (o.off b i, o.k * sd.2 * elSize f)

/-- Scale entries that an MMA reads on one side: none unless the format is Q8. -/
def MOp.readsScl (o : MOp) (b : Bool) : Nat :=
  let f := if b then mmaFB o.raw else mmaFA o.raw
  let sd := mmaSide (mmaShp o.raw) b
  if f = 0 then sd.1 * sd.2 else 0

/-- An FLD writes something of array `a` that an MMA of that array reads. -/
def fldMeets (f o : MOp) (a : Nat) : Bool :=
  nbit (fldMask f.raw) a &&
  (let b := fldB f.raw
   if fldScl f.raw then decide (f.fldOff < o.readsScl b)
   else
     let n := f.fldN * f.fldE * elSize (fldFmt f.raw)
     (o.reads b).any fun r => decide (f.fldOff < r.1 + r.2 ∧ r.1 < f.fldOff + n))

/-- Every FLD of the core not completed. -/
def Cor.flds (k : Cor) : List MOp := (k.fldRun.map (·.op)).toList ++ k.fldq

/-- MMAs of array `a` queued or in progress. -/
def Arr.mmas (a : Arr) : List MOp := (a.mma.map (·.op)).toList ++ a.opq.filter fun o => mopOf o.raw == 8

/-- MMA after FLD. -/
def mmaFree (k : Cor) (a : Nat) (o : MOp) : Bool :=
  !(k.flds.any fun f => decide (f.id < o.id) && fldMeets f o a)

/-- Word range of a drain, from base to base + 31 × stride + 31. -/
def MOp.drnLen (o : MOp) : Nat := min (2 ^ 29) (31 * o.drnStride + 32)
def DrainW.len (d : DrainW) : Nat := min (2 ^ 29) (31 * d.strd + 32)

/-- Words that an FLD reads: the whole span of its elements. -/
def MOp.fldSpan (o : MOp) : Nat :=
  if fldScl o.raw then (o.fldN + 3) / 4
  else
    let last := if fldTR o.raw then (o.fldE - 1) * o.fldS + o.fldN - 1 else (o.fldN - 1) * o.fldS + o.fldE - 1
    min (2 ^ 29) (((last + 1) * elSize (fldFmt o.raw) + 3) / 4)

/-- The ring that an MMA of the array emits to: that of the latest EMC issued before it, queued or performed (R80, R87): base word
address and slots. -/
def Arr.ringOf (x : Arr) (o : MOp) : Nat × Nat :=
  match (x.opq.filter fun e => mopOf e.raw == 0x14 && decide (e.id < o.id)).getLast? with
  | some e => (e.emcBase, e.emcS)
  | none => (x.ringBase, x.ringS)

/-- FLD after MMA and FLD after drain. -/
def fldFree (k : Cor) (f : MOp) : Bool :=
  (List.range 4).all fun a =>
    let x := k.arr a
    !(x.mmas.any fun o => decide (o.id < f.id) && fldMeets f o a) &&
    !(x.opq.any fun o => mopOf o.raw == 0x10 && decide (o.id < f.id) && rangesMeet o.drnBase o.drnLen f.fldSrc f.fldSpan) &&
    !(x.drains.any fun d => decide (d.id < f.id) && rangesMeet d.base d.len f.fldSrc f.fldSpan) &&
    !(x.emits.any fun e => decide (e.op < f.id) && rangesMeet e.base 1024 f.fldSrc f.fldSpan) &&
    !(x.mmas.any fun o => mmaEXM o.raw && decide (o.id < f.id) && rangesMeet (x.ringOf o).1 (1024 * (x.ringOf o).2) f.fldSrc f.fldSpan)

/-- Drain after drain: no earlier drain of the core to an overlapping range is outstanding. -/
def drainFree (k : Cor) (d : DrainW) : Bool :=
  (List.range 4).all fun a =>
    !((k.arr a).opq.any fun o => mopOf o.raw == 0x10 && decide (o.id < d.id) && rangesMeet o.drnBase o.drnLen d.base d.len) &&
    !((k.arr a).drains.any fun e => decide (e.id < d.id) && rangesMeet e.base e.len d.base d.len)

/-! ## Cells (R68 to R76) -/

/-- One update of a cell (R68, R70): the cell's bits and the flags. -/
def macCell (c : W32) (a b : Num) : W32 × Nat :=
  if a = .nan ∨ b = .nan then (0x7FC00000#32, fNV)
  else
    let p := Num.mul a b
    if p.2 ≠ 0 then (0x7FC00000#32, fNV)
    else
      let x := fmtB32.read c.toNat
      if x = .nan then (0x7FC00000#32, 0)
      else
        let y := Num.add x p.1
        let r := fmtB32.write y.1 0 0
        (BitVec.ofNat 32 r.1, r.2 ||| y.2)

/-- The limbs of a split-32 operand (R75). -/
def limbs (x : Nat) : Num × Num :=
  match fmtB32.read x with
  | .fin n m e _ =>
    (if m / 4096 = 0 then Num.zero else .fin n (m / 4096) (e + 12) false,
     if m % 4096 = 0 then Num.zero else .fin n (m % 4096) e false)
  | _ => (Num.zero, Num.zero)

def numFinite (x : Num) : Bool :=
  match x with
  | .fin _ _ _ _ => true
  | _ => false

/-- The three updates of an S3 k-step (R75, R76). -/
def macS3 (c : W32) (a b : Nat) : W32 × Nat :=
  let x := fmtB32.read a
  let y := fmtB32.read b
  if numFinite x && numFinite y then
    let la := limbs a
    let lb := limbs b
    let u := macCell c la.1 lb.1
    let v := macCell u.1 la.1 lb.2
    let w := macCell v.1 la.2 lb.1
    (w.1, u.2 ||| v.2 ||| w.2)
  else macCell c x y

/-- Element `e` of record `k` of operand slot `o` on one side: its bits widened to Q16 or as binary32, the flags of
widening and whether it or its scale entry is spoiled. -/
def operand (x : Arr) (op : MOp) (b : Bool) (o k e : Nat) : Nat × Nat × Bool :=
  let f := if b then mmaFB op.raw else mmaFA op.raw
  let len := (mmaSide (mmaShp op.raw) b).2
  let buf := if b then x.bBuf else x.aBuf
  let marks := if b then x.bSp else x.aSp
  let sz := elSize f
  let at_ := op.off b o + (k * len + e) * sz
  let bits := leNat (cellRange buf at_ sz)
  let sp := (List.range (len * sz)).any fun j => marks.contains (op.off b o + k * len * sz + j)
  if f = 0 then
    let n := o * len + e
    let w := widenQ8 bits (tget 127#8 (if b then x.bScl else x.aScl) n).toNat
    (w.1, w.2, sp || (if b then x.bSclSp else x.aSclSp).contains n)
  else (bits, 0, sp)

/-- The cells a shape updates: row, column, and the operand slot and element of each side (Table 3-2). -/
def mmaCells (shp sub : Nat) : List (Nat × Nat × Nat × Nat × Nat × Nat) :=
  let grid := fun (r c : Nat) => (List.range r).flatMap fun i => (List.range c).map fun j => (i, j)
  match shp with
  | 1 => (grid 32 32).map fun p => (p.1, p.2, p.1 / 16, p.1 % 16, p.1 / 16, p.2)
  | 2 => (grid 32 16).map fun p => (p.1, 16 * sub + p.2, 0, p.1, 0, p.2)
  | 3 => (grid 32 32).map fun p =>
      let q := 2 * (p.1 / 16) + p.2 / 16
      (p.1, p.2, q, p.1 % 16, q, p.2 % 16)
  | 4 => (List.range 32).map fun i => (i, sub, 0, i, 0, 0)
  | _ => (grid 32 32).map fun p => (p.1, p.2, 0, p.1, 0, p.2)

def cellKey (acc i j : Nat) : Nat := 1024 * acc + 32 * i + j

/-- The updates of k-step `k` of an operation over its cells, with flags and the tile's spoil. -/
def mmaStep (x : Arr) (op : MOp) (k : Nat) : Arr :=
  let acc := mAcc op.raw
  (mmaCells (mmaShp op.raw) (mmaSub op.raw)).foldl (fun y c =>
    let a := operand x op false c.2.2.1 k c.2.2.2.1
    let b := operand x op true c.2.2.2.2.1 k c.2.2.2.2.2
    let old := tget 0#32 y.acc (cellKey acc c.1 c.2.1)
    let r := if mmaShp op.raw = 5 then macS3 old a.1 b.1 else macCell old (fmtQ16.read a.1) (fmtQ16.read b.1)
    { y with acc := tput y.acc (cellKey acc c.1 c.2.1) r.1, flags := orFlags y.flags (r.2 ||| a.2.1 ||| b.2.1),
             accSp := if a.2.2 || b.2.2 then setIns y.accSp acc else y.accSp }) x

/-- AZ = 1 (R68, R89): the written cells start at +0, and the flag clears where the shape writes the whole tile. -/
def mmaZero (x : Arr) (op : MOp) : Arr :=
  let acc := mAcc op.raw
  let shp := mmaShp op.raw
  let y := (mmaCells shp (mmaSub op.raw)).foldl (fun y c => { y with acc := tput y.acc (cellKey acc c.1 c.2.1) 0#32 }) x
  if shp = 2 ∨ shp = 4 then y else { y with accSp := setDel y.accSp acc }

/-- k-steps from `k` up to the next emission boundary or the end (R77): the array, the k reached and whether an
emission is due there. -/
def mmaRun (op : MOp) : Nat → Arr → Nat → Arr × Nat × Bool
  | 0, x, k => (x, k, false)
  | n + 1, x, k =>
    if k ≥ op.k then (x, k, false)
    else
      let y := mmaStep x op k
      if mmaEXM op.raw && ((op.kBase + k + 1) % 128 == 0 || (k + 1 == op.k && mmaLK op.raw)) then (y, k + 1, true)
      else mmaRun op n y (k + 1)

/-- The array after its MMA has run on from k-step `k`. -/
def mmaGo (x : Arr) (op : MOp) (k : Nat) : Arr :=
  let r := mmaRun op (op.k + 1) x k
  { r.1 with mma := some { op := op, k := r.2.1, emit := r.2.2, done := decide (r.2.1 ≥ op.k) } }

/-- A whole tile as words. -/
def tileWords (x : Arr) (acc : Nat) : List W32 := (List.range 1024).map fun n => tget 0#32 x.acc (1024 * acc + n)

/-- A tile set to +0. -/
def clearTile (x : Arr) (acc : Nat) : Arr :=
  { x with acc := x.acc.filter fun e => e.1 / 1024 != acc }

/-- A tile set to +0 with its spoil flag cleared (MCLR, DRN with CLR). -/
def wipeTile (x : Arr) (acc : Nat) : Arr := { clearTile x acc with accSp := setDel x.accSp acc }

/-! ## Drains (R81 to R83) -/

/-- Packs values of `sz` bytes into words. -/
def packWords (xs : List Nat) (sz : Nat) : List W32 :=
  bytesWords (xs.flatMap fun v => natLe v sz)

/-- One drained row: its words, the flags, and a rewritten scale code. `code` is the row's fixed code with the mark of
the word it came from. -/
def drainRow (op : MOp) (cells : List W32) (i : Nat) (seed step : W64) (home lane : Nat) (code : Nat) :
    List W32 × Nat × Option Byte :=
  let cvt := drnCvt op.raw
  let r := fun j => if nbit cvt 0 then draw seed step home lane 0 ((op.drnDraw + 32 * i + j) % 2 ^ 32) % 65536 else 0
  match drnFmt op.raw with
  | 2 => (cells, 0, none)
  | 1 =>
    let ys := cells.zipIdx.map fun c => fmtQ16.write (fmtB32.read c.1.toNat) cvt (r c.2)
    (packWords (ys.map (·.1)) 2, ys.foldl (fun a y => a ||| y.2) 0, none)
  | _ =>
    let xs := cells.map fun c => fmtB32.read c.toNat
    if rowInvalid xs || code == 255 then (packWords (List.replicate 32 0x80) 1, fSCL, some 255#8)
    else
      let ys := xs.zipIdx.map fun c => narrowQ8 c.1 code cvt (r c.2)
      (packWords (ys.map (·.1)) 1, ys.foldl (fun a y => a ||| y.2) 0, none)

/-! ## Feeder loads (R85, R89) -/

/-- Byte address of source element `n` of an FLD, modulo 2^31. -/
def fldByte (o : MOp) (r e : Nat) : Nat :=
  let n := if fldTR o.raw then e * o.fldS + r else r * o.fldS + e
  (4 * o.fldSrc + n * elSize (fldFmt o.raw)) % 2 ^ 31

end Sys2Proof.Machine
end

