-- ==== Sys2Proof/Machine/Cells.lean ====
section
/-! DEFINITION. Cells, frames and routing of the tensor fabric (07 R179 to R186, R188, R197 to R201, R203, R205), and
the node IDs they name (01 R19 to R22). -/

namespace Sys2Proof.Machine

/-! ## CRC-32C (R185) -/

/-- One byte into the CRC register, low bit first. -/
def crc32cByte (r : Nat) (b : Byte) : Nat :=
  (List.range 8).foldl (fun x _ => if x % 2 = 1 then Nat.xor (x / 2) 0x82F63B78 else x / 2) (Nat.xor r b.toNat)

/-- CRC-32C of a byte list: initial value all ones, final complement. The reflected bit order is the algorithm's own [21]. -/
def crc32c (bs : List Byte) : Nat := Nat.xor (bs.foldl crc32cByte 0xFFFFFFFF) 0xFFFFFFFF

/-! ## Cells and frames (Tables 7-2, 7-4, 7-5) -/

/-- The 256 bytes of a cell. -/
def Cell.bytes (c : Cell) : List Byte :=
  natLe (c.src % 65536 * 65536 + c.dest % 65536) 4 ++
  natLe (c.typ % 256 * 2 ^ 24 + c.gen % 4 * 2 ^ 22 + c.epoch % 4 * 2 ^ 20 + c.vc % 16 * 65536 + c.qtag % 65536) 4 ++
  natLe (c.flags.toNat * 2 ^ 20 + c.len % 256 * 2 ^ 12 + c.part % 4096) 4 ++
  natLe (c.msgoff % 2 ^ 24) 4 ++
  ((c.payload ++ List.replicate 240 0#8).take 240)

/-- The cell that the first 256 bytes hold; `rsv` says whether a reserved bit is set, payload beyond LEN included (R12, R179). -/
def cellOf (bs : List Byte) : Cell :=
  let w0 := fieldLe bs 0 4
  let w1 := fieldLe bs 4 4
  let w2 := fieldLe bs 8 4
  let w3 := fieldLe bs 12 4
  let len := w2 / 2 ^ 12 % 256
  { src := w0 / 65536, dest := w0 % 65536, typ := w1 / 2 ^ 24, gen := w1 / 2 ^ 22 % 4, epoch := w1 / 2 ^ 20 % 4,
    vc := w1 / 65536 % 16, qtag := w1 % 65536, flags := BitVec.ofNat 8 (w2 / 2 ^ 20), len := len, part := w2 % 4096,
    msgoff := w3 % 2 ^ 24, payload := (bs.drop 16).take len,
    rsv := w2 / 2 ^ 28 != 0 || w3 / 2 ^ 24 != 0 || decide (w2 / 2 ^ 25 % 8 ≠ 0) || ((bs.take 256).drop (16 + len)).any (· != 0#8) }

/-- A frame (R185). -/
def frameBytes (c : Cell) (seq ack : Nat) : List Byte :=
  let b := c.bytes ++ natLe (seq % 65536) 2 ++ natLe (ack % 65536) 2
  b ++ natLe (crc32c b) 4

/-- The CRC of a frame is good. -/
def frameGood (bs : List Byte) : Bool := fieldLe bs 260 4 == crc32c (bs.take 260)

/-- Class of a VC: 0 REQ, 1 FWD, 2 RSP, 3 CUP, 4 CDN, 5 MGT, 6 BULK, 7 none. -/
def vcClassOf (v : Nat) : Nat := v / 2

/-- VCs whose cells are routed over several LIDs and hold receive entries. -/
def vcRouted (v : Nat) : Bool := decide (v < 6) || v == 10 || v == 11

/-- The class a cell type belongs to; none for a reserved type, and for LCTL, which only control frames carry. -/
def typClass (t : Nat) : Option Nat :=
  if t = 1 ∨ t = 2 ∨ t = 3 then some 0
  else if t = 4 then some 1
  else if t = 8 ∨ t = 9 then some 2
  else if 0x10 ≤ t ∧ t ≤ 0x15 then some 3
  else if 0x18 ≤ t ∧ t ≤ 0x1D then some 4
  else if t = 0x20 then some 5
  else if t = 0x30 then some 6
  else none

/-- LAST, SPOIL, EXACT, NARROW, DETSEQ (Table 7-3). -/
def Cell.lastCell (c : Cell) : Bool := c.flags.getLsbD 0
def Cell.spoil (c : Cell) : Bool := c.flags.getLsbD 1
def Cell.exact (c : Cell) : Bool := c.flags.getLsbD 2
def Cell.detseq (c : Cell) : Bool := c.flags.getLsbD 4

/-! ## Node IDs (R19 to R22) -/

/-- The ID names a device. -/
def nodeExists (n : Nat) : Bool := decide (n / 128 ≤ 383) && decide (n % 128 ≤ 71) && decide (n < 65536)

/-- Coordinates x, y, z of an active slot. -/
def nodeXYZ (n : Nat) : Nat × Nat × Nat :=
  let r := n / 128
  let s := n % 128
  (4 * (r % 8) + s % 4, 4 * (r / 8 % 8) + s / 4 % 4, 4 * (r / 64) + s / 16 % 4)

/-- The active node ID whose position a device takes: its own, or the slot that a standby serves (R197). -/
def State.placeOf (s : State) (n : Nat) : Option Nat :=
  if !nodeExists n then none
  else if n % 128 < 64 then some n
  else
    let e := (tget 0#8 s.fab.stby (n / 128 * 8 + (n % 128 - 64))).toNat
    if e ≥ 128 then some (n / 128 * 128 + e % 64) else none

/-- Physical node of logical node `n` (R22). -/
def State.l2p (s : State) (n : Nat) : Nat := tget 0xFFFF s.fab.l2p n

/-- Logical node of physical node `p`, 0x7FFF where none is mapped. -/
def State.p2l (s : State) (p : Nat) : Nat := ((s.fab.l2p.find? fun e => e.2 == p).map (·.1)).getD 0x7FFF

/-! ## Routing (R197 to R200) -/

/-- Ring size of an axis. -/
def ringSize (axis : Nat) : Nat := if axis = 2 then 24 else 32

def axisOf (xyz : Nat × Nat × Nat) (axis : Nat) : Nat :=
  match axis with
  | 0 => xyz.1
  | 1 => xyz.2.1
  | _ => xyz.2.2

/-- Position on an axis. -/
def TabSet.pos (t : TabSet) (n axis : Nat) : Nat :=
  (axisOf (nodeXYZ n) axis + ringSize axis - t.org.getD axis 0 % ringSize axis) % ringSize axis

/-- Where a cell goes from here: delivered, sent on a LID with the letter of its VC (true B) and its axis, or lost. -/
inductive Route where
  | deliver
  | go (lid axis : Nat) (b : Bool)
  | lost
  deriving DecidableEq, Repr

/-- DIRTAB entry of an axis, direction and distance: LID and ADV where VALID. -/
def TabSet.dirEnt (t : TabSet) (axis dir d : Nat) : Option (Nat × Nat) :=
  let e := tget 0#16 t.dir (16 * (2 * axis + dir) + d - 1)
  if e.getLsbD 15 then some (e.toNat % 128, e.toNat / 2 ^ 10 % 32) else none

/-- The hop of a cell on the first axis that differs; `inAxis` and `inB` are the axis and letter it arrived with. -/
def TabSet.hop (t : TabSet) (own dst axis : Nat) (inAxis : Option Nat) (inB : Bool) : Route :=
  let n := t.len.getD axis 0
  let p := t.pos own axis
  let q := t.pos dst axis
  if n = 0 ∨ p ≥ n ∨ q ≥ n then .lost
  else
    let dp := (q + n - p) % n
    let dir := if dp ≤ n - dp then 0 else 1
    let d := if dir = 0 then dp else n - dp
    match t.dirEnt axis dir d with
    | none => .lost
    | some e =>
      let wrap := if dir = 0 then decide (p + e.2 ≥ n) else decide (p < e.2)
      .go e.1 axis (wrap || (inAxis == some axis && inB))

/-- R198: axis by axis in the order X, Y, Z. -/
def TabSet.route (t : TabSet) (own dst : Nat) (inAxis : Option Nat) (inB : Bool) : Route :=
  match [0, 1, 2].find? fun a => t.pos own a != t.pos dst a with
  | none => .deliver
  | some a => t.hop own dst a inAxis inB

/-- The table set of an epoch that the device holds: current, old, or the shadow (R203, R204). -/
def State.setOf (s : State) (e : Nat) : Option TabSet :=
  if e = s.fab.curEp then some s.fab.cur
  else if e = s.fab.oldEp ∧ s.fab.old.isSome then s.fab.old
  else if e = s.fab.shadowEp ∧ s.fab.shadow.isSome then s.fab.shadow
  else none

/-! ## Counts and queues (R192, R205) -/

def State.countInj (s : State) (e : Nat) : State := s.updFab fun f => { f with inj := tupd 0 f.inj e (satAdd 64 · 1) }
def State.countDlv (s : State) (e n : Nat) : State := s.updFab fun f => { f with dlv := tupd 0 f.dlv e (satAdd 64 · n) }

/-- The entry of a LID in the current link table. -/
def State.linkEnt (s : State) (l : Nat) : Option LinkEnt := (s.fab.cur.links.find? fun e => e.1 == l).map (·.2)

/-- The port of a LID: of its link-table entry, or where the current set has none, that of its last training. -/
def State.lidPort (s : State) (l : Nat) : Nat := ((s.linkEnt l).map (·.port)).getD (s.lid l).port

/-- DIE and port engine of a LID (Table 14-2). -/
def State.lidDie (s : State) (l : Nat) : Nat := 10 + (s.lid l).port

/-- A report of the engine of LID `l`; LID 127 stands for none and reports on engine 0. -/
def State.lidRep (s : State) (cls l cause info : Nat) : State := s.report (rep cls (s.lidDie l) 0 17 cause info)

/-- The present link cycle: the latest that an event has named, or what 1.5625 GHz gives for the time (R8) [173]. -/
def State.linkCyc (s : State) : Nat := max s.fab.clk (s.now * 3125 / 2)

/-- An event names its link cycle. -/
def State.linkAt (s : State) (cyc : Nat) : State := s.updFab fun f => { f with clk := max f.clk cyc }

/-- A cell waits for VC `c.vc` of LID `l`, with the link cycle in which it entered the device (R192); requester 0 injects, 1 + LID
forwards. -/
def State.enqueue (s : State) (l who : Nat) (c : Cell) : State :=
  s.updLid l fun k => { k with outq := k.outq ++ [(s.linkCyc, who, c)] }

/-- A receive entry of LID `l` is freed: a credit of the kind its cell spent returns (R190). -/
def State.freeEntry (s : State) (l vc : Nat) (shared : Bool) : State :=
  s.updLid l fun k =>
    if shared then { k with shrOut := k.shrOut + 1, due := true }
    else { k with crdOut := tupd 0#32 k.crdOut vc (· + 1), due := true }

/-- Cells are the same but for the VC that forwarding changed. -/
def Cell.same (a b : Cell) : Bool := decide ({ a with vc := 0 } = { b with vc := 0 })

/-- The entry of LID `l` that holds cell `c` is freed. -/
def State.release (s : State) (l : Nat) (c : Cell) : State :=
  match (s.lid l).held.find? fun h => h.1.same c with
  | none => s
  | some h => (s.updLid l fun k => { k with held := k.held.erase h }).freeEntry l h.1.vc h.2

/-- A partition is under a fence (R208). -/
def State.fencedPart (s : State) (p : Nat) : Bool := s.fab.fenced.contains p

/-! ## Forming cells (R180, R262) -/

/-- A cell formed here under the current epoch. -/
def State.form (s : State) (dest typ vc qtag : Nat) (flags : Byte) (part msgoff : Nat) (payload : List Byte) : Cell :=
  { src := s.fab.phys, dest := dest, typ := typ, gen := 1, epoch := s.fab.curEp, vc := vc, qtag := qtag, flags := flags,
    len := payload.length, part := part, msgoff := msgoff, payload := payload, rsv := false }

/-- A single-hop cell put on LID `l` (R201). -/
def State.sendOn (s : State) (l typ vc qtag : Nat) (flags : Byte) (msgoff : Nat) (payload : List Byte) : State :=
  let c := s.form (s.lid l).peer typ vc qtag flags s.fab.part msgoff payload
  (s.countInj c.epoch).enqueue l 0 c

/-- Splits a byte list into pieces of `k` bytes. -/
def pieces (k : Nat) (bs : List Byte) : List (List Byte) :=
  (List.range (max 1 ((bs.length + k - 1) / k))).map fun i => (bs.drop (k * i)).take k

end Sys2Proof.Machine
end

