-- ==== Sys2Proof/Machine/Queue.lean ====
section
/-! DEFINITION. Queue rings, work items and long commands (04 R114, R115, 10 R281, 12 R335 to R337, R345, R346). -/

namespace Sys2Proof.Machine

/-! ## Rings -/

/-- The ring address of entry `i` of a queue in device memory or scratchpad. -/
def QEnt.slotAddr (e : QEnt) (i : Nat) : Nat := if e.loc = 2 then (e.base + 16 * i) % 2 ^ 29 else (e.base + 64 * i) % 2 ^ 64

/-- Reads the sixteen words of the entry at index `i`, with their spoil marks, for requester `who`. -/
def State.entryAt (s : State) (who : Requester) (q i : Nat) : State × List (W32 × Bool) :=
  let e := s.que q
  if e.loc = 2 then s.spAsk (wordsFrom (e.slotAddr i) 16)
  else
    let r := s.memRead who e.part (e.slotAddr i) 64
    (r.1, (List.range 16).map fun j => (bytesWord ((r.2.1.drop (4 * j)).take 4), r.2.2.1.getD (4 * j) false))

/-- An index moved on by one in its ring. -/
def QEnt.next (e : QEnt) (i : Nat) : Nat := (i + 1) % 2 ^ e.log2n

/-- A queue holds an entry that may be taken. -/
def QEnt.has (e : QEnt) : Bool := e.st == 1 && e.head != e.tail

/-- Entries between HEAD and TAIL. -/
def QEnt.count (e : QEnt) : Nat := (e.tail + 2 ^ e.log2n - e.head) % 2 ^ e.log2n

/-! ## Work items (R114, R115) -/

/-- The CWQ of slot `i` of core `c`. -/
def State.cwqOf (s : State) (c i : Nat) : Option Nat :=
  (s.host.qs.find? fun e => e.2.typ == 3 && e.2.core == c && e.2.slot == i).map (·.1)

/-- The lowest-numbered non-empty slot's queue (R114). -/
def State.headQueue (s : State) (c : Nat) : Option Nat :=
  (List.range 4).findSome? fun i =>
    match s.cwqOf c i with
    | some q => if (s.que q).has then some q else none
    | none => none

/-- The status that refuses an entry: BAD_VERSION, BAD_PARAM, or none (R114). -/
def entryCheck (w0 : W32) : Option Nat :=
  if bitsOf w0 19 16 ≠ 0 then some 0x101 else if bitsOf w0 31 28 ≠ 0 ∨ bitsOf w0 27 22 ≠ 0 then some 0x103 else none

/-- The head of queue `q` leaves it. -/
def State.popHead (s : State) (q : Nat) : State := s.updQue q fun e => { e with head := e.next e.head }

/-- The sequencer's unit whose entry lies at index `i` of queue `q`. -/
def State.unitAt (s : State) (q i : Nat) : Option (Nat × Nat × Nat) :=
  (s.train.posts.find? fun p => p.1 == q && p.2.1 == i).map (·.2.2)

/-- The CEQ that an item's record goes to: the sequencer's own CEQ for its items (R281), else the one bound. -/
def State.postItem (s : State) (it : Option (Nat × Nat × Nat)) (q : Nat) (r : Rec) : State :=
  match it with
  | some _ => (match s.host.job with
    | some j => s.postRec j.seqCeq r
    | none => s)
  | none => s.postOn q r

/-- An item of the sequencer ended: its unit has one item less to wait for, and an error is remembered (R281, R286). -/
def State.seqItem (s : State) (u : Option (Nat × Nat × Nat)) (ok : Bool) : State :=
  match u with
  | none => s
  | some x => s.updTrain fun t =>
    { t with units := t.units.map fun y => if (y.kind, y.v, y.m) == x then { y with left := y.left - 1 } else y
             itemErr := t.itemErr || !ok }

/-- An item that never ran ends: its record is posted and its unit told. -/
def State.dropEntry (s : State) (q i : Nat) (tag : W32) (status : Nat) : State :=
  let u := s.unitAt q i
  let s := s.postItem u q (rec0 tag q status (s.que q).head 0#32 0#32 0#32 0#32 false)
  let s := s.seqItem u false
  s.updTrain fun t => { t with posts := t.posts.filter fun p => !(p.1 == q && p.2.1 == i) }

/-- Entries of queue `q` between HEAD and TAIL complete with ABORTED in ring order, and the queue is empty. -/
def State.abortEntries (s : State) (who : Requester) (q : Nat) : State :=
  let e := s.que q
  let s := (List.range e.count).foldl (fun (t : State) j =>
    let i := (e.head + j) % 2 ^ e.log2n
    let r := t.entryAt who q i
    (r.1.updQue q fun x => { x with head := x.next i }).dropEntry q i (r.2.getD 1 (0#32, false)).1 0x109) s
  s.updQue q fun x => { x with head := x.tail }

/-! ## Long commands (R345, R346) -/

/-- The handle of a long command: generation and index. -/
def Long.handle (l : Long) : W32 := BitVec.ofNat 32 (l.gen % 256 * 2 ^ 24 + l.idx)

/-- The CEQ of the final records of a submitting queue: the session's event CEQ; queue 1 for the admin queue. -/
def State.finalCeq (s : State) (q sid : Nat) : Nat := if q = 0 then 1 else if q = 8190 then 8191 else s.evqOf sid

def State.longAt (s : State) (idx : Nat) : Option Long := s.host.longs.find? fun l => l.idx == idx

/-- The KIND 1 record of a long command is posted on CEQ `c`, and its handle's generation moves on (R345, R346). -/
def State.finishOn (s : State) (c : Option Nat) (idx status : Nat) (d0 d1 d2 d3 : W32) : State :=
  match s.longAt idx with
  | none => s
  | some l =>
    let r : Rec := { tag := l.tag, hnd := l.handle, kind := 1, sq := l.q, status := status, sqhead := l.sqhead, d0 := d0, d1 := d1,
                     d2 := d2, d3 := d3, noirq := l.noirq }
    let s := match c with
      | some q => s.postRec q r
      | none => s
    s.updHost fun h => { h with longs := h.longs.filter fun x => x.idx != idx
                                hgen := tput h.hgen idx ((l.gen + 1) % 256) }

/-- The final record of a long command, on its session's event CEQ. -/
def State.finishLong (s : State) (idx status : Nat) (d0 d1 d2 d3 : W32) : State :=
  match s.longAt idx with
  | none => s
  | some l => s.finishOn (some (s.finalCeq l.q l.sid)) idx status d0 d1 d2 d3

/-- DONE without details. -/
def State.doneLong (s : State) (idx : Nat) : State := s.finishLong idx 2 0#32 0#32 0#32 0#32

/-- A REPLACE or DRAIN command is gone; what it named for its watershed stays named. -/
def Train.forget (t : Train) (i : Nat) : Train :=
  { t with replHnd := if t.replHnd = some i then none else t.replHnd, pend := t.pend.map fun x => if x.hnd = i then { x with hnd := 0 } else x }

/-- What a long command that stops leaves behind (R346): transfers end where they stand, a checkpoint reads failed, a
staged bank is invalid, a certificate is not written, a soak ends. -/
def State.haltLong (s : State) (l : Long) : State :=
  match l.opc with
  | 0x0100 => s.updHbm fun h => { h with sets := (h.sets.filter fun x => x.hnd != l.idx || x.live).map fun x =>
      if x.hnd = l.idx then { x with hnd := 0 } else x }
  | 0x0110 => s.updHost fun h => { h with reads := h.reads.filter fun r => !(r.use == 1 && r.q == l.idx) }
  | 0x0301 => s.updFab fun f => if f.shadowHnd = l.idx then { f with shadow := none, shadowHnd := 0 } else f
  | 0x0312 =>
    let stop := fun (p : Nat × Port) =>
      if p.2.hnd = some l.idx then (p.1, { p.2 with hnd := none, pend := true, soaked := false, st := if p.2.st = .soak then .ready else p.2.st })
      else p
    s.updLight fun b => { b with ports := b.ports.map stop }
  | 0x0400 => s.updColl fun c => { c with newPlan := none, census := [], censusDn := [] }
  | 0x0510 => s.updTrain fun t => { t with ckpt := none, cstate := 3 }
  | 0x0302 => s.updFab fun f => { f with lids := f.lids.map fun k => if k.2.fenceHnd = some l.idx then (k.1, { k.2 with fenceHnd := none }) else k }
  | 0x0520 => s.updTrain (·.forget l.idx)
  | 0x0521 => s.updTrain (·.forget l.idx)
  | 0x0522 => s.updTrain fun t => { t with rollHnd := none }
  | 0x0532 => s.updTrain fun t => { t with cfgHnd := none }
  | 0x0800 => s.updMod fun m => { m with stHnd := none, staged := 2 }
  | 0x0900 => (s.updTrain fun t => { t with wantHold := t.wantHold || s.det.replay }).updDet fun d => { d with rhnd := 0 }
  | 0x0901 => s.updDet fun d => { d with cert := none, certAt := none }
  | _ => s

end Sys2Proof.Machine
end

