-- ==== Sys2Proof/Machine/Tol.lean ====
section
/-! DEFINITION. Entries of triggered-operation lists: their fields, the places of their data, completion and abort
(09 R252, R258, R262, R269 to R272, Tables 9-1 to 9-3, 9-5). -/

namespace Sys2Proof.Machine

/-! ## Fields (Tables 9-1 and 9-3) -/

def tolOpc (d : Desc) : Nat := bitsOf (Desc.word d 0) 15 0
def tolNotify (d : Desc) : Bool := (Desc.word d 0).getLsbD 20
def tolCen (d : Desc) : Bool := (Desc.word d 2).getLsbD 25
def tolTen (d : Desc) : Bool := (Desc.word d 2).getLsbD 24
def tolCctr (d : Desc) : Nat := bitsOf (Desc.word d 2) 23 12
def tolTctr (d : Desc) : Nat := bitsOf (Desc.word d 2) 11 0
def tolTthr (d : Desc) : Nat := (Desc.word d 3).toNat + bitsOf (Desc.word d 4) 15 0 * 2 ^ 32
def tolCid (d : Desc) : Nat := bitsOf (Desc.word d 4) 31 16
def tolTp (d : Desc) : Nat := bitsOf (Desc.word d 5) 21 20
def colNl (d : Desc) : Nat := bitsOf (Desc.word d 5) 23 22
def colCvt (d : Desc) : Nat := bitsOf (Desc.word d 5) 19 18
def colXdst (d : Desc) : Bool := (Desc.word d 5).getLsbD 17
def colXsrc (d : Desc) : Bool := (Desc.word d 5).getLsbD 16
def colDfmt (d : Desc) : Nat := bitsOf (Desc.word d 5) 15 12
def colSfmt (d : Desc) : Nat := bitsOf (Desc.word d 5) 11 8
def colOp (d : Desc) : Nat := bitsOf (Desc.word d 5) 7 5
def colKind (d : Desc) : Nat := bitsOf (Desc.word d 5) 4 2
def colTrees (d : Desc) : Nat := bitsOf (Desc.word d 5) 1 0
def colE (d : Desc) : Nat := (Desc.word d 12).toNat

/-- Elements of a Q8 row. -/
def colL (d : Desc) : Nat := 16 * 2 ^ colNl d

/-- The data moves in rows of Q8 with their codes; a unit is then a row, else an element. -/
def colRows (d : Desc) : Bool := colSfmt d == 0

/-- Units of E (R258). -/
def colUnits (d : Desc) : Nat := if colRows d then colE d / colL d else colE d

/-- Tree `t` takes part. -/
def colUses (d : Desc) (t : Nat) : Bool := if tolOpc d = 0x441 then nbit (colTrees d) t else true

/-- Bytes of one unit in the source and in the destination, a row's code apart. -/
def colSbytes (d : Desc) : Nat :=
  if colRows d then colL d else if colXsrc d then 48 else if colSfmt d = 1 then 2 else 4
def colDbytes (d : Desc) : Nat :=
  if colRows d then (if colDfmt d = 0 then colL d else 2 * colL d)
  else if colXdst d then 48 else if colDfmt d = 1 then 2 else if colDfmt d = 3 then 8 else 4

/-- A device memory or scratchpad address of SRC or DST: space and byte address. -/
def colPlace (w : W64) : Bool × Nat := if w.getLsbD 63 then (true, w.toNat % 2 ^ 40) else (false, 4 * (w.toNat % 2 ^ 29))
def colSrc (d : Desc) : Bool × Nat := colPlace (Desc.dword d 6)
def colDst (d : Desc) : Bool × Nat := colPlace (Desc.dword d 8)

/-- Units of the tree half in SRC and DST on a job of `n` devices (R258). -/
def colSrcUnits (d : Desc) (n : Nat) : Nat := if colKind d = 2 then n * colUnits d else colUnits d
def colDstUnits (d : Desc) (n : Nat) : Nat := if colKind d = 3 then n * colUnits d else colUnits d

/-- First unit of tree `t`'s half: tree B's follows tree A's where both carry data. -/
def colHalf (d : Desc) (t n : Nat) : Nat := if t = 1 ∧ colTrees d = 3 then n else 0

/-! ## Scratchpad and device memory as one -/

/-- Bytes `a`, …, `a + n − 1` of a space with the spoil mark of each; device memory through its regions. The flag says
that a request failed under R154 or R157. -/
def State.spaceRead (s : State) (e : Nat) (dev : Bool) (a n : Nat) : State × List (Byte × Bool) × Bool :=
  if dev then
    let lost := (unitsOf a n).any fun u => (s.admitUnit (.coll e) s.fab.part u).2.isNone
    let r := s.memRead (.coll e) s.fab.part (a % 2 ^ 40) n
    (r.1, r.2.1.zip r.2.2.1, lost)
  else
    let w0 := a / 4
    let r := s.spAsk (wordsFrom w0 ((a % 4 + n + 3) / 4))
    (r.1, ((r.2.flatMap fun x => (wordBytes x.1).map (·, x.2)).drop (a % 4)).take n, false)

/-- Writes bytes with spoil marks. -/
def State.spaceWrite (s : State) (e : Nat) (dev : Bool) (a : Nat) (bs : List (Byte × Bool)) : State × Bool :=
  if dev then
    let r := s.memWrite (.coll e) s.fab.part (a % 2 ^ 40) (bs.map (·.1)) (bs.map (·.2))
    (r.1, r.2.isSome)
  else
    let full := a % 4 == 0 && bs.length % 4 == 0
    if full then
      ((List.range (bs.length / 4)).foldl (fun t i =>
        let x := (bs.drop (4 * i)).take 4
        t.spWrite ((a / 4 + i) % 2 ^ 29) (bytesWord (x.map (·.1))) (x.any (·.2))) s, false)
    else (bs.zipIdx.foldl (fun t b => t.spWriteByte ((a + b.2) % 2 ^ 31) b.1.1 b.1.2) s, false)

/-- Sets the spoil bit of every word of a range, leaving its bytes (R270). -/
def State.spaceSpoil (s : State) (e : Nat) (dev : Bool) (a n : Nat) : State :=
  let r := s.spaceRead e dev a n
  (r.1.spaceWrite e dev a (r.2.1.map fun b => (b.1, true))).1

/-! ## Tree links -/

/-- The plan entry of a pair and tree. -/
def State.tree (s : State) (tp t : Nat) : TreeEnt := tget TreeEnt.none s.coll.plan (2 * tp + t)

/-- LIDs of one tree: parent, CHILD0, CHILD1 where present. -/
def TreeEnt.lids (e : TreeEnt) : List Nat := [e.parent, e.child0, e.child1].filter (· != 0x7F)

/-- Rings of the tree that lie before ring `r` (0 CHILD0, 1 CHILD1, 2 PARENT): the rings of the LIDs present lie back to back (R249). -/
def TreeEnt.ringAt (e : TreeEnt) (r : Nat) : Nat := (([e.child0, e.child1].take r).filter (· != 0x7F)).length

/-- Scratchpad words of the tree's rings (R249). -/
def TreeEnt.words_ (e : TreeEnt) : Nat := e.lids.length * 64 * e.slots

/-- LIDs of both trees of a pair. -/
def State.pairLids (s : State) (tp : Nat) : List Nat := ((s.tree tp 0).lids ++ (s.tree tp 1).lids).dedup

/-- Sixteen payload bytes of a control cell (Table 9-5). -/
def ctlPayload (w0 w1 : W32) : List Byte := wordBytes w0 ++ wordBytes w1 ++ List.replicate 8 0#8

/-- A control cell up (`k` 1 VOTE, 2 BAR, 3 ABORT, 4 CENSUS, 5 SEAL) or down on LID `l` of tree `t`. -/
def State.sendCtl (s : State) (l t : Nat) (down : Bool) (k cid : Nat) (w0 w1 : W32) : State :=
  s.sendOn l ((if down then 0x18 else 0x10) + k) ((if down then 8 else 6) + t) cid 1#8 0 (ctlPayload w0 w1)

/-- To the parent; nothing at the root. -/
def State.ctlUp (s : State) (tp t k cid : Nat) (w0 w1 : W32) : State :=
  let p := (s.tree tp t).parent
  if p = 0x7F then s else s.sendCtl p t false k cid w0 w1

/-- To both children. -/
def State.ctlDown (s : State) (tp t k cid : Nat) (w0 w1 : W32) : State :=
  let e := s.tree tp t
  ([e.child0, e.child1].filter (· != 0x7F)).foldl (fun a l => a.sendCtl l t true k cid w0 w1) s

/-- A slot is freed: its credit is posted again (R249). -/
def State.freeSlot (s : State) (x : CSlot) : State :=
  (s.updColl fun c => { c with slots := c.slots.erase x }).freeEntry x.lid x.cell.vc false

/-! ## Completion and abort -/

/-- The sequencer's own list (R288), which is no queue of the table. -/
def seqTol : Nat := 8192

/-- An entry of list `q` ends: a record where it asks for one, and a template entry's error is remembered (R252, R286). -/
def State.tolRecord (s : State) (q : Nat) (d : Desc) (status : Nat) (d0 : W32) : State :=
  let s := if tolNotify d then
      s.postOn q (rec0 (Desc.word d 1) q status (s.que q).head d0 0#32 0#32 0#32 false) else s
  let tpl : Bool := match s.train.tab with
    | some t => t.tq.contains q
    | none => false
  if status ≠ 2 ∧ tpl then s.updTrain fun t => { t with tplErr := true } else s

/-- An entry completes with DONE: the add to CCTR follows its writes (R252). -/
def State.tolDone (s : State) (q e : Nat) (d : Desc) (d0 : W32) : State :=
  let s := if tolCen d then
      s.ctrAsk (if q = seqTol then .sequencer else .engine e) (tolCctr d) (.add 1#48) else s
  s.tolRecord q d 2 d0

/-- The list stops: every entry still queued completes with ABORTED, in order (R272). A list in RESETTING stays so. -/
def State.stopTol (s : State) (q e : Nat) : State :=
  if q = seqTol then s
  else
    let k := s.que q
    let s := (List.range k.count).foldl (fun (t : State) j =>
      let r := t.entryAt (.coll e) q ((k.head + j) % 2 ^ k.log2n)
      (r.1.updQue q fun x => { x with head := x.next x.head }).tolRecord q (r.2.map (·.1)) 0x109 0#32) s
    s.updQue q fun x => { x with st := if x.st = 2 then 2 else 4 }

/-- A run leaves its engine. -/
def State.dropRun (s : State) (r : CollRun) : State :=
  let s := s.updColl fun c => { c with runs := c.runs.erase r, dead := (r.tp, r.cid) :: c.dead.filter (· != (r.tp, r.cid)) }
  if r.q = seqTol then s else s.updEng r.eng fun e => { e with inprog := e.inprog - 1 }

/-- Every DST word that a run has written takes the spoil bit (R270 step 3). -/
def State.spoilDst (s : State) (r : CollRun) : State :=
  let half := fun t => colHalf r.ent t (colDstUnits r.ent s.train.n)
  let one := fun (a : State) (t : Nat) (x : Nat × Nat) =>
    let b := a.spaceSpoil r.eng (colDst r.ent).1 ((colDst r.ent).2 + (half t + x.1) * colDbytes r.ent) (x.2 * colDbytes r.ent)
    if colRows r.ent ∧ colDfmt r.ent = 0 then
      b.spaceSpoil r.eng false (4 * (Desc.word r.ent 11).toNat + half t + x.1) x.2
    else b
  let s := r.a.wrote.foldl (fun a x => one a 0 x) s
  r.b.wrote.foldl (fun a x => one a 1 x) s

/-- The shadow table set is discarded, and its command ends with ABORTED (R204, R353). -/
def State.dropShadow (s : State) : State :=
  let h := s.fab.shadowHnd
  (s.updFab fun f => { f with shadow := none, shadowSw := false, shadowHnd := 0 }).finishLong h 0x109 0#32 0#32 0#32 0#32

/-- COLL_ABORT (R270): ABORT on every LID of both trees but `except` and those that an ABORT waits on (R275), slots freed, DST spoiled, 2^47 added to CCTR, the
entry completed with ABORTED; its list stops (R272). The cause byte of the cell is a free value [22]. -/
def State.abortRun (s : State) (r : CollRun) (except : Option Nat) : State :=
  let cause := BitVec.ofNat 32 ((Config.freeWord s.free).toNat % 256)
  let s := s.tick
  let back := except.toList ++ (s.coll.slots.filter fun x => x.tp == r.tp && x.cell.qtag == r.cid && x.cell.typ % 8 == 3).map (·.lid)
  let s := [0, 1].foldl (fun (a : State) t =>
    (a.tree r.tp t).lids.foldl (fun b l =>
      if back.contains l ∨ (b.lid l).st ≠ .up then b
      else b.sendCtl l t (l != (a.tree r.tp t).parent) 3 r.cid 0#32 cause) a) s
  let s := (s.coll.slots.filter fun x => x.tp == r.tp && x.cell.qtag == r.cid).foldl (fun a x => a.freeSlot x) s
  let s := if r.opc = 0x441 then s.spoilDst r else s
  if r.q = seqTol then (s.dropRun r).dropShadow
  else
  let s := s.ctrAsk (.engine r.eng) (tolCctr r.ent) (.add (BitVec.ofNat 48 (2 ^ 47)))
  let s := s.updEng r.eng fun e => { e with aborts := satAdd 8 e.aborts 1 }
  let s := (s.dropRun r).tolRecord r.q r.ent 0x109 0#32
  s.stopTol r.q r.eng

/-- SEAL up has been sent in every tree that the run uses (R266). -/
def CollRun.sealed (r : CollRun) : Bool := r.opc == 0x441 && (!colUses r.ent 0 || r.a.sent) && (!colUses r.ent 1 || r.b.sent)

/-- A LID of a pair is lost: every collective and barrier on it that has not sent SEAL up aborts (R269). -/
def State.abortOnLid (s : State) (l : Nat) : State :=
  (s.coll.runs.filter fun r => r.opc != 0x443 && !r.sealed && (s.pairLids r.tp).contains l).foldl
    (fun a r => if a.coll.runs.contains r then a.abortRun r none else a) s

end Sys2Proof.Machine
end

