-- ==== Sys2Proof/Machine/Reset.lean ====
section
/-! DEFINITION. Queue and domain resets (12 R354, Table 12-9), the end of a session or job (R334, R342, R348), the
job's state word (10 R296, R309), and the end of a core's item, which a reset may wait for. -/

namespace Sys2Proof.Machine

/-! ## Job state (Table 10-17) -/

def jcode : JState → Nat
  | .idle => 0
  | .loaded => 1
  | .run => 2
  | .held => 3
  | .rebuild => 4
  | .pending => 5

def wcode : WState → Nat
  | .none_ => 0
  | .open_ => 1
  | .voting => 2
  | .committed => 3
  | .aborted => 4
  | .unresolved => 5

/-- TRN_STAT. -/
def State.trnStat (s : State) : W32 :=
  let t := s.train
  BitVec.ofNat 32 (jcode t.js * 2 ^ 29 + wcode t.ws * 2 ^ 26 + t.phase % 8 * 2 ^ 23 + t.slot % 2 * 2 ^ 22 + b2n t.loggap * 2 ^ 21
    + b2n t.cfgw * 2 ^ 20 + t.hold % 16 * 2 ^ 16 + twos t.e 8 * 256 + t.retry % 256)

/-- The job changes state, and the session that attached it is told (event 0x0002). -/
def State.setJob (s : State) (js : JState) (hold : Nat) : State :=
  if s.train.js = js ∧ s.train.hold = hold then s
  else
    let s := s.updTrain fun t => { t with js := js, hold := hold }
    s.postSes s.train.sid 0x0002 s.trnStat

/-- A job leaves the device: JSTATE IDLE (event 0x0002), partition 0, no logical node, its running cores IDLE [23]. -/
def State.detach (s : State) : State :=
  let o := s.train
  let s := s.updTrain fun t => { t with js := .idle, launched := false, train := false, units := [], posts := [], udone := [],
                                        phase := 0, sid := 0, tab := none, hold := 0, wantHold := false, wantRun := false }
  let s := if o.js = .idle then s else s.postSes o.sid 0x0002 s.trnStat
  let s := s.updFab fun f => { f with part := 0, lnode := 0x7FFF }
  let s := s.updPower fun p => { p with occ := [] }
  let s := s.updHost fun h => { h with job := none }
  { s with cores := s.cores.map fun c =>
      if c.2.st = .run then
        (c.1, { c.2 with st := .idle, item := none, waiting := false, waitOn := none, waitOk := false, idleq := false, tpend := false })
      else c }

/-- Nothing is in flight for queue `q` that its reset waits for (step 2): the current item of a CWQ; a collective of a list that has sent
SEAL up and ends only by its parent side or its time limit (R269). -/
def State.quietQ (s : State) (q : Nat) : Bool :=
  !((s.que q).typ == 6 && s.coll.runs.any fun r => r.q == q && r.sealed) &&
  !((s.que q).typ == 3 && s.cores.any fun c => match c.2.item with
    | some it => it.q == q
    | none => false)

/-- Opcodes that reset queues. -/
def resetOpc (o : Nat) : Bool := [0x0002, 0x0011, 0x0012, 0x0013, 0x0213].contains o

/-- An ABORTED record for an old entry of a queue. -/
def State.abortRec (s : State) (q : Nat) (tag : W32) : State :=
  s.postOn q (rec0 tag q 0x109 (s.que q).head 0#32 0#32 0#32 0#32 false)

/-- An HSQ's commands in ring order: long commands, whose final records go to BINDQ here, commands fetched and not
admitted, then unfetched entries. The TAG of an entry that still lies in host memory is a free value: the device has not
read it [24]. -/
def State.abortHsq (s : State) (q : Nat) : State :=
  let s := (s.host.longs.filter fun l => l.q == q && !resetOpc l.opc).foldl
    (fun (a : State) l => (a.haltLong l).finishOn (a.ceqOf q) l.idx 0x109 0#32 0#32 0#32 0#32) s
  let s := ((s.flt.readmits ++ s.host.fetched).filter fun f => f.q == q).foldl (fun a f => a.abortRec q (Desc.word f.d 1)) s
  let s := s.updFlt fun f => { f with readmits := f.readmits.filter fun x => x.q != q }
  let s := s.updHost fun h => { h with fetched := h.fetched.filter fun f => f.q != q
                                       reads := h.reads.filter fun r => !(r.use == 0 && r.q == q) }
  (List.range (s.que q).count).foldl (fun a _ => (a.abortRec q ((Config.freeWord a.free).setWidth 32)).tick) s

/-- Entries of a network queue: messages sent and unanswered, buffers in use, then the ring (step 3). -/
def State.abortNet (s : State) (q : Nat) : State :=
  let s := (s.fab.outMsgs.filter fun m => m.use == 0 && m.q == q).foldl (fun a m => a.abortRec q m.tag) s
  let s := s.updFab fun f => { f with outMsgs := f.outMsgs.filter fun m => !(m.use == 0 && m.q == q) }
  let used := s.fab.inMsgs.filterMap fun m => m.buf.bind fun b => if b.1 = q then some b.2.2.2 else none
  let s := used.foldl (fun a t => a.abortRec q t) s
  let s := s.updFab fun f => { f with
    inMsgs := f.inMsgs.map fun m => match m.buf with
      | some b => if b.1 = q then { m with buf := none, refuse := some 0x109 } else m
      | none => m
    holds := f.holds.filter fun h => h.q != q }
  s.abortEntries .hub q

/-- A list's entries in progress abort, but those that have sent SEAL up (R269), then its ring (R272). -/
def State.abortTol (s : State) (q : Nat) : State :=
  ((s.coll.runs.filter fun r => r.q == q && !r.sealed).foldl (fun (a : State) r => if r.opc = 0x443 then (a.dropRun r).tolRecord r.q r.ent 0x109 0#32 else a.abortRun r none)
    s).stopTol q (s.que q).eng

/-- Steps 3 and 4 of Table 12-9 for a queue in RESETTING whose operations are quiet. -/
def State.resetQueue (s : State) (q : Nat) : State :=
  let s :=
    match (s.que q).typ with
    | 1 => s.abortHsq q
    | 3 => s.abortEntries (.core (s.que q).core) q
    | 4 => s.abortNet q
    | 5 => s.abortNet q
    | 6 => s.abortTol q
    | _ => s
  s.updQue q fun e => { e with st := 1, head := 0, tail := 0, phase := if e.typ = 2 then true else e.phase
                               arm := if e.typ = 2 then false else e.arm, unsig := if e.typ = 2 then 0 else e.unsig }

/-- The queues that a reset command names: QUE_DELETE and QUE_RESET word 2 [12:0]; DOMAIN_RESET a session's or the job's;
SES_CLOSE the session's [25]. The tray's and the admin queues are never among them. -/
def State.resetTargets (s : State) (opc : Nat) (d : Desc) : List Nat :=
  let w := Desc.word d 2
  let of := fun (p : QEnt → Bool) => (s.host.qs.filter fun e => e.2.typ != 0 && e.1 != 0 && e.1 != 1 && e.1 != 8190 && e.1 != 8191 && p e.2).map (·.1)
  match opc with
  | 0x0002 => of fun e => e.sid == bitsOf w 5 0
  | 0x0013 => if w.getLsbD 16 then of fun e => decide (e.part ≠ 0) && e.part == s.fab.part && e.typ != 1 && e.typ != 2
      else of fun e => e.sid == bitsOf w 5 0
  | 0x0213 => of fun e => decide (e.part ≠ 0) && e.part == s.fab.part && e.typ != 1 && e.typ != 2
  | _ => [bitsOf w 12 0]

/-- Step 1: the queue is RESETTING; a list aborts what it can at once. -/
def State.beginReset (s : State) (qs : List Nat) : State :=
  qs.foldl (fun a q =>
    let a := a.updQue q fun e => { e with st := 2 }
    if (a.que q).typ = 6 then a.abortTol q else a) s

/-- A queue's entry is freed; records that wait for a CEQ are lost with it. -/
def State.freeQueue (s : State) (q : Nat) : State :=
  s.updHost fun h => { h with qs := tdel h.qs q, recs := h.recs.filter fun r => r.1 != q }

/-- A session ends (R342): its queues deleted, its jobs detached, its handles freed. -/
def State.endSession (s : State) (sid : Nat) (mine : Nat) : State :=
  let s := if s.train.js ≠ .idle ∧ s.train.sid = sid then s.detach else s
  let s := (s.resetTargets 0x0002 [0#32, 0#32, BitVec.ofNat 32 sid]).foldl (fun a q => a.freeQueue q) s
  s.updHost fun h => { h with sess := tdel h.sess sid, longs := h.longs.filter fun l => l.sid != sid || l.q == 0 || l.idx == mine }

/-- The end of a reset command (step 5), with what deleting, closing or detaching adds. -/
def State.endReset (s : State) (l : Long) : State :=
  let s :=
    match l.opc with
    | 0x0011 => s.freeQueue (bitsOf (Desc.word l.d 2) 12 0)
    | 0x0002 => s.endSession (bitsOf (Desc.word l.d 2) 5 0) l.idx
    | 0x0213 => s.detach
    | _ => s
  s.doneLong l.idx

/-- Every queue in RESETTING that is quiet passes steps 3 and 4, and every reset command whose queues are done
completes. -/
def State.settle (s : State) : State :=
  let qs := (s.host.qs.filter fun e => e.2.st == 2 && s.quietQ e.1).map (·.1)
  if qs.isEmpty ∧ !(s.host.longs.any fun l => resetOpc l.opc) then s
  else
    let s := qs.foldl (fun a q => a.resetQueue q) s
    (s.host.longs.filter fun l => resetOpc l.opc).foldl (fun (a : State) l =>
      if (a.resetTargets l.opc l.d).all fun q => (a.que q).st != 2 then a.endReset l else a) s

/-- The current item of core `c` ends with a status and details; `must` posts whether or not NOTIFY is set (R395). A queue reset that waits for
it goes on. -/
def State.endItem (s : State) (c status : Nat) (d0 d1 : W32) (must : Bool) : State :=
  match (s.core c).item with
  | none => s
  | some it =>
    let s := s.updCore c fun k => { k with item := none }
    let s := if it.notify ∨ must ∨ it.job.isSome then
        s.postItem it.job it.q (rec0 it.tag it.q status (s.que it.q).head d0 d1 0#32 0#32 false) else s
    (s.seqItem it.job (status == 2)).settle

end Sys2Proof.Machine
end

