-- ==== Sys2Proof/Machine/Links.lean ====
section
/-! DEFINITION. LIDs that leave traffic, and ports that degrade (07 R178, R194, R208, 08 R246, 14 R393). -/

namespace Sys2Proof.Machine

/-! ## Ports -/

/-- A port becomes DEGRADED once: cause 0x34 and a PORT entry (Tables 14-4, 14-5, 14-7). -/
def State.degradePort (s : State) (p : Nat) : State :=
  if (s.port p).degr then s
  else (((s.updPort p fun x => { x with degr := true }).report (rep 1 (10 + p) 0 17 0x34 0)).ledg 8 (10 + p) 0 17 [1#8])

/-- Every ring of a line parks. -/
def Line.park (x : Line) : Line :=
  { x with rxr := if x.rxr = .failed then .failed else .parked, txr := if x.txr = .failed then .failed else .parked,
           framed := false, good := 0, mism := 0 }

/-- The other port of the axis (R214). -/
def pairPort (p : Nat) : Nat := if p % 2 = 0 then p + 1 else p - 1

/-- APR outranks every role (R240, R241): a line that would pass port `p` is blocked there while the other port of the axis reduces its
launch, and of a port that reduces its launch only the spare's add ring may lock. -/
def State.aprRole (s : State) (p w : Nat) (x : Line) : Line :=
  { x with rxr := if (s.port (pairPort p)).aprAt = 2 ∧ x.rxr ≠ .drop ∧ x.rxr ≠ .failed then .block else x.rxr
           txr := if (s.port p).aprAt = 2 ∧ tget 16 (s.port p).lmap 16 ≠ w ∧ x.txr ≠ .failed then .parked else x.txr }

/-- A line's rings park, but for what APR holds. -/
def State.parkLine (s : State) (p w : Nat) : State := s.updLine p w fun x => s.aprRole p w x.park

/-- The rings of the lines in a mask park (R246). -/
def State.parkMask (s : State) (p : Nat) (m : BitVec 17) : State :=
  (List.range 17).foldl (fun a w => if m.getLsbD w then a.parkLine p w else a) s

/-- Every ring of a port parks. -/
def State.parkPort (s : State) (p : Nat) : State :=
  (List.range 17).foldl (fun a w => a.updLine p w Line.park) s

/-! ## Lines of a LID (R189, R226 to R229) -/

/-- Pass entry of a set, port and logical line (R227, R229). -/
def State.passEnt (s : State) (n p l : Nat) : W32 :=
  tget (if n = 0 then 0x507FFFFF#32 else 0x007FFFFF#32) s.light.sets (102 * n + 17 * p + l)

def entIn (e : W32) : Nat := bitsOf e 31 30
def entOut (e : W32) : Nat := bitsOf e 29 28
def entLid (e : W32) : Nat := bitsOf e 22 16
def entPeer (e : W32) : Nat := bitsOf e 15 0

/-- Physical line of a logical line (R226). -/
def Port.phys (x : Port) (l : Nat) : Nat := tget l x.lmap l

/-- Logical lines 0–15 that a set gives a LID on a port (R189). -/
def State.linesOf (s : State) (n p l : Nat) : List Nat :=
  (List.range 16).filter fun i => let e := s.passEnt n p i; entIn e == 0 && entOut e == 0 && entLid e == l

/-- Physical lines of the light path of a LID: those that the active set gives it, and those of its mask. -/
def State.lidLines (s : State) (l : Nat) : BitVec 17 :=
  let p := s.lidPort l
  (s.linesOf s.light.actSet p l).foldl (fun m i => m ||| BitVec.ofNat 17 (2 ^ (s.port p).phys i))
    (if (s.lid l).port = p then (s.lid l).wmask else 0#17)

/-! ## LIDs -/

/-- The FAB_FENCE that waits for LID `l` completes once no LID waits under its handle (R208). -/
def State.fenceDone (s : State) (l : Nat) : State :=
  match (s.lid l).fenceHnd with
  | none => s
  | some h =>
    let s := s.updLid l fun k => { k with fenceHnd := none }
    if s.fab.lids.any fun k => k.2.fenceHnd == some h then s else s.doneLong h

/-- LID_DOWN (R178): the LID enters `st`; its retry buffer, its receive entries and the cells waiting for it are
discarded, counted in DLV and reported once; collectives on it abort (R269); a vote LID holds the job (R296). -/
def State.lidOff (s : State) (l : Nat) (st : LidState) : State :=
  let k := s.lid l
  let gone := k.retry.map (·.2) ++ k.held.map (·.1) ++ (k.outq.filter fun e => e.2.1 != l + 1).map (·.2.2)
  let s := gone.foldl (fun a c => a.countDlv c.epoch 1) s
  let s := k.outq.foldl (fun (a : State) e => if e.2.1 = 0 ∨ e.2.1 = l + 1 then a else a.release (e.2.1 - 1) e.2.2) s
  let s := s.updFab fun f => { f with
    lids := f.lids.map fun x => (x.1, { x.2 with outq := x.2.outq.filter fun e => e.2.1 != l + 1 })
    inMsgs := f.inMsgs.filter fun m => m.lid != l || (m.last && m.cell.typ != 1) }
  let s := s.updLid l fun k =>
    { k with st := st, fenceCyc := if st = .fenced then some s.linkCyc else none, seq := 0, exp := if st = .fenced then k.exp else 0, nak := false, retry := [], shrSeqs := [], replay := [], replays := 0, held := [], outq := [],
             resv := [], shared := 0, due := false, newMask := none, lines := [], fencing := false, retire := false }
  let s := (s.lidRep 2 l 0x30 (l + 65536 * gone.length)).abortOnLid l
  let s : State := match s.train.tab with
    | some t => if st = .down ∧ s.train.js = .run ∧ s.train.launched ∧ (s.pairLids t.voteTp).contains l then s.setJob .held 8 else s
    | none => s
  s.fenceDone l

/-- A LID that carries or trains enters DOWN. -/
def State.lidDown (s : State) (l : Nat) : State :=
  if (s.lid l).st = .down ∨ (s.lid l).st = .fenced then s else s.lidOff l .down

/-- A LID in any state enters DOWN, a fenced one too (R218, R246). -/
def State.lidForce (s : State) (l : Nat) : State := if (s.lid l).st = .down then s else s.lidOff l .down

/-- The replay limit (R194): DOWN, counted in window 8 of the port. -/
def State.lidReplayLimit (s : State) (l : Nat) : State :=
  let p := (s.lid l).port
  (s.lidDown l).winEvent 8 p (·.degradePort p)

/-- A rotation on the LID's span is abandoned, one that waits too (Table 8-13). -/
def State.dropRotation (s : State) (l : Nat) : State :=
  let p := s.lidPort l
  if (s.port p).rot = 0 ∧ (s.port p).rotDue = none then s
  else s.updPort p fun x => { x with rot := 0, rotDue := none, soaked := x.soaked && x.rot == 0 }

/-- A hard fence (R208): FENCED at once; the rings of its lines park (R246). -/
def State.hardFence (s : State) (l : Nat) : State :=
  if (s.lid l).st = .fenced then s.fenceDone l
  else ((s.parkMask (s.lidPort l) (s.lidLines l)).dropRotation l).lidOff l .fenced

/-- The LID drains (R208); `fence` for a soft fence, else for a pass-set switch. One that trains carries nothing and is drained at once. -/
def State.drainLid (s : State) (l : Nat) (fence : Bool) : State :=
  s.updLid l fun k => { k with st := .draining, fencing := fence || k.fencing }

/-- A soft fence or the drain before a pass-set switch (R208). A fence of a LID that carries nothing takes effect at once. -/
def State.softFence (s : State) (l : Nat) (fence : Bool) : State :=
  if (s.lid l).st = .up ∨ (s.lid l).st = .draining then (if fence then s.dropRotation l else s).drainLid l fence
  else if fence then s.hardFence l
  else if (s.lid l).st = .training then s.drainLid l false
  else s

/-- Nothing of the LID is left to deliver or to acknowledge. -/
def Lid.drained (k : Lid) : Bool := k.retry.isEmpty && k.held.isEmpty

end Sys2Proof.Machine
end

