-- ==== Sys2Proof/Machine/Lines.lean ====
section
/-! DEFINITION. The lines of a port: ring roles, masks of LIDs and their changes, retirement of a line (07 R195, 08 R222, R226, R236 to
R241, R247). -/

namespace Sys2Proof.Machine

/-! ## Roles (R226, R236, R241, R246) -/

/-- The logical line that physical line `w` of a port carries. -/
def Port.logical (x : Port) (w : Nat) : Nat := ((List.range 17).find? fun i => x.phys i == w).getD w

/-- The entry of the active set for physical line `w`. -/
def State.lineEnt (s : State) (p w : Nat) : W32 := s.passEnt s.light.actSet p ((s.port p).logical w)

/-- Ring states of an entry (Tables 8-5 to 8-7); a line FAILED at its port takes neither DROP nor ADD (R236). -/
def Line.role (x : Line) (e : W32) : Line :=
  { x with rxr := if x.rxr = .failed then .failed
                  else if entIn e = 0 ∧ !x.failed then .drop else if entIn e = 2 then .block else .parked
           txr := if x.txr = .failed then .failed else if entOut e = 0 ∧ !x.failed then .add else .parked }

/-- The rings of a line lock in the role of the active set, which APR outranks (R241). With the rails off they stay parked (R246). -/
def State.lockLine (s : State) (p w : Nat) : State :=
  if s.mod.rails then s.updLine p w fun x => s.aprRole p w (x.role (s.lineEnt p w)) else s

/-- The rings of every line of a port. -/
def State.lockPort (s : State) (p : Nat) : State :=
  (List.range 17).foldl (fun a w => a.lockLine p w) s

/-- The rings of a line recalibrate. -/
def State.calLine (s : State) (p w : Nat) : State :=
  if s.mod.rails then
    s.updLine p w fun x => { x with rxr := if x.rxr = .failed then .failed else .cal
                                    txr := if x.txr = .failed then .failed else .cal
                                    framed := false, good := 0, mism := 0, ready := false, wait := false }
  else s

/-- A line is FAILED at its port: its rings are out of use, and its LINE entry is written (R239, Table 14-7). -/
def State.failLine (s : State) (p w : Nat) : State :=
  (s.updLine p w fun x => { x with rxr := .failed, txr := .failed, failed := true, framed := false, wait := false }).ledg
    7 (10 + p) 0 w [BitVec.ofNat 8 w, 2#8]

/-- Physical lines of a port that a LID may use: neither FAILED nor FOREIGN there (R221, R236). -/
def State.usable (s : State) (p : Nat) : BitVec 17 :=
  (List.range 17).foldl (fun m w => if (s.line p w).failed ∨ (s.line p w).foreign_ then m else m ||| BitVec.ofNat 17 (2 ^ w)) 0#17

/-! ## Masks (R195) -/

/-- The LID carries frames. -/
def Lid.carries (k : Lid) : Bool := k.st == .up || k.st == .draining

/-- The mask that a LID is to have: the one it changes to, else the one in effect. -/
def Lid.target (k : Lid) : BitVec 17 := k.newMask.getD k.wmask

/-- The LID changes to mask `m` in its own sending direction (R195). -/
def Lid.aim (k : Lid) (m : BitVec 17) : Lid :=
  { k with newMask := if m = k.wmask ∧ m = k.repMask then none else some m }

/-- A change of mask of LID `l` (R195). A LID left with no line enters DOWN (R177). -/
def State.setMask (s : State) (l : Nat) (f : BitVec 17 → BitVec 17) : State :=
  let k := s.lid l
  let m := f k.target
  if !k.carries ∧ k.st ≠ .training then s
  else if m = 0#17 then s.lidDown l
  else if m = k.target then s
  else if k.carries then s.updLid l fun x => x.aim m
  else s.updLid l fun x => { x with wmask := m }

def lineBit (w : Nat) : BitVec 17 := BitVec.ofNat 17 (2 ^ w)

/-- LIDs of port `p` that have line `w` in their mask, or are about to. -/
def State.lidsOn (s : State) (p w : Nat) : List Nat :=
  (s.fab.lids.filter fun k => k.2.port == p && (k.2.wmask.getLsbD w || k.2.target.getLsbD w)).map (·.1)

/-- Line `w` leaves the masks of its port's LIDs. -/
def State.maskLeave (s : State) (p w : Nat) : State :=
  (s.lidsOn p w).foldl (fun a l => a.setMask l fun m => m &&& ~~~(lineBit w)) s

/-- Line `w` joins the LID that the active set gives logical line `i`. -/
def State.maskJoin (s : State) (p i w : Nat) : State :=
  let e := s.passEnt s.light.actSet p i
  if entIn e = 0 ∧ entLid e < 96 then s.setMask (entLid e) fun m => m ||| lineBit w else s

/-! ## Rotation and retirement (R237 to R239, R245) -/

/-- A logical line is eligible: every valid set drops and adds it to the span's neighbour. -/
def State.eligible (s : State) (p i : Nat) : Bool :=
  match (s.port p).nbr with
  | none => false
  | some n => (List.range 8).all fun t => !s.light.valid.getLsbD t ||
      (entIn (s.passEnt t p i) == 0 && entOut (s.passEnt t p i) == 0 && entPeer (s.passEnt t p i) == n)

/-- Step 1 of Table 8-11: the spare joins the LID of logical line `i`. -/
def State.startRotation (s : State) (p i : Nat) : State :=
  (s.maskJoin p i ((s.port p).phys 16)).updPort p fun x => { x with rot := 1, rotLine := i, rotDue := none }

/-- An eligible line whose port has a soaked spare hands over to it at once, or once the pending pass-set switch ends (R245). -/
def State.handOver (s : State) (p i : Nat) : State :=
  if s.light.swPend then s.updPort p fun x => { x with rotDue := some i } else s.startRotation p i

/-- LINE_RETIRE (R239): counted, reported and recorded; an eligible line hands over to a soaked spare, any other leaves
its mask and recalibrates. -/
def State.retireLine (s : State) (p w : Nat) : State :=
  let x := s.port p
  let i := x.logical w
  let s := (s.updPort p fun x => { x with retire := satAdd 8 x.retire 1 }).report (rep 1 (10 + p) 0 w 0x33 0)
  let s := (s.ledg 7 (10 + p) 0 w [BitVec.ofNat 8 w, 1#8]).winEvent 2 p (·.degradePort p)
  if i < 16 ∧ s.eligible p i ∧ x.soaked ∧ x.rot = 0 ∧ (x.rotDue = none ∨ x.rotDue = some i) then s.handOver p i
  else ((s.maskLeave p w).calLine p w).updPort p fun x => { x with soaked := x.soaked && i != 16 }

/-- An event of window 1 on a line. -/
def State.lineEvent (s : State) (p w : Nat) : State := s.winEvent 1 (17 * p + w) (·.retireLine p w)

/-! ## Codewords (R219, R239, R247) -/

/-- Codewords and power that the line's receiver reads: CWCORR counts in units of 2^16. -/
def Line.count (x : Line) (corr unc : Nat) (power : Int) : Line :=
  let n := x.cwsub + corr
  { x with rxpwr := power, cwsub := n % 65536, cwcorr := satAdd 16 x.cwcorr (n / 65536), cwunc := satAdd 8 x.cwunc unc }

/-- What the receiver of a line reads with a frame: every uncorrectable codeword is one event of window 1. -/
def State.lineRead (s : State) (p w : Nat) (r : LineRead) : State :=
  (List.range r.unc).foldl (fun a _ => a.lineEvent p w) (s.updLine p w fun x => x.count r.corr r.unc r.power)

end Sys2Proof.Machine
end

