-- ==== Sys2Proof/Machine/FabOps.lean ====
section
/-! DEFINITION. The tensor fabric (07): receiving, routing, delivering and sending cells and frames, link control,
training, fences, messages and the epoch sum. -/

namespace Sys2Proof.Machine

/-! ## Cells that are lost (R183, R200, R203, R206, R211) -/

/-- A cell is discarded: counted in DLV of its epoch and its credit returned, that of its receive entry or of the slot it
would have filled [170]. -/
def State.dropCell (s : State) (l : Nat) (c : Cell) : State :=
  let s := s.countDlv c.epoch 1
  if l ≥ 96 then s
  else if vcRouted c.vc then s.release l c
  else if c.vc < 14 then s.freeEntry l c.vc false
  else s

/-- CELL_FORMAT_DISCARD (R183). -/
def State.dropFormat (s : State) (l : Nat) (c : Cell) : State :=
  ((s.dropCell l c).updLid l fun k => { k with fmtErr := satAdd 8 k.fmtErr 1 }).lidRep 2 l 0x31 l

/-- ROUTE_DISCARD (R200). -/
def State.dropRoute (s : State) (l : Nat) (c : Cell) : State :=
  let s := s.dropCell l c
  (if l < 96 then s.updLid l fun k => { k with routeErr := satAdd 8 k.routeErr 1 } else s).lidRep 2 l 0x32 l

/-- A cell whose next LID `n` is DOWN or FENCED (R178). -/
def State.dropDead (s : State) (l n : Nat) (c : Cell) : State :=
  let s := s.dropCell l c
  (if l < 96 then s.updLid l fun k => { k with routeErr := satAdd 8 k.routeErr 1 } else s).lidRep 2 n 0x30 (n + 65536)

/-- EPOCH_DISCARD (R203). -/
def State.dropEpoch (s : State) (l : Nat) (c : Cell) : State :=
  let s := s.dropCell l c
  (if l < 96 then s.updLid l fun k => { k with epochDrop := satAdd 8 k.epochDrop 1 } else s).lidRep 2 l 0x32 l

/-- FENCE_DISCARD (R206): counted in window 9, whose action is a hard fence. -/
def State.dropPart (s : State) (l : Nat) (c : Cell) : State :=
  (((s.dropCell l c).updLid l fun k => { k with fenceDrop := satAdd 16 k.fenceDrop 1 }).lidRep 2 l 0x32 l).winEvent 9 l (·.hardFence l)

/-! ## Delivery (R182, R198, R201) -/

/-- A completion of a message of this device (R182): the NSQ entry's record, or the mirror's acknowledgement. -/
def State.endOut (s : State) (m : OutMsg) (status : Nat) : State :=
  let s := s.updFab fun f => { f with outMsgs := f.outMsgs.erase m }
  if m.use = 0 then s.postOn m.q (rec0 m.tag m.q status m.sqh (BitVec.ofNat 32 m.len) 0#32 0#32 0#32 false)
  else if m.use = 2 then s
  else s.updTrain fun t => { t with mirrors := t.mirrors - 1, mirBad := t.mirBad || status != 2 }

/-- An RSP cell: data into the requester's memory, or the final status. -/
def State.takeRsp (s : State) (c : Cell) : State :=
  match s.fab.outMsgs.find? fun m => m.slot == c.qtag with
  | none => s.updFab fun f => { f with lateRsp := f.lateRsp + 1 }
  | some m =>
    if c.typ = 8 then
      let s := (s.memWrite (.engine 0) m.part ((m.dev + c.msgoff) % 2 ^ 40) c.payload (c.payload.map fun _ => c.spoil)).1
      if c.lastCell then s.endOut m 2
      else s.updFab fun f => { f with outMsgs := f.outMsgs.map fun x => if x.slot = m.slot then { x with got := x.got + c.len } else x }
    else
      let st := fieldLe c.payload 0 2
      s.endOut m (if st < 0x100 then 2 else st)

/-- The message that a REQ or FWD cell continues: one of its source, destination and type that lacks its last cell (R209). -/
def State.reqOf (s : State) (l : Nat) (c : Cell) : Option InMsg :=
  s.fab.inMsgs.find? fun m => m.cell.src == c.src && m.cell.dest == c.dest && m.cell.typ == c.typ && m.lid == l && !m.last

/-- A reserved bit of the operation header is set (R12, Table 7-6): WOFF [63:40], all of WOFF for SEND, ORIG but for GETF. -/
def headRsv (c : Cell) : Bool :=
  let z := fun lo n => ((c.payload.drop lo).take n).any (· != 0#8)
  z 5 3 || (c.typ == 1 && z 0 5) || (c.typ != 4 && z 14 2)

/-- A REQ or FWD cell joins its message: the first carries the operation header (Table 7-6); later cells follow in order (R209). -/
def State.takeReq (s : State) (l : Nat) (c : Cell) : State :=
  let keep := c.typ = 1
  let s := if l < 96 ∧ !keep then s.release l c else s
  match s.reqOf l c with
  | none =>
    let h := c.payload
    s.updFab fun f => { f with inMsgs := f.inMsgs ++
      [{ lid := l, cell := c, woff := fieldLe h 0 5, mlen := fieldLe h 8 4, rqtag := fieldLe h 12 2, orig := fieldLe h 14 2,
         data := (h.drop 16).map (·, c.spoil), done := 0, last := c.lastCell, waits := false, buf := none, refuse := none,
         acked := false }] }
  | some m =>
    s.updFab fun f => { f with inMsgs := f.inMsgs.map fun x =>
      if x = m then { x with data := x.data ++ c.payload.map (·, c.spoil), last := c.lastCell } else x }

/-- Ring of a collective cell that came on LID `l` (R249): pair, tree and ring (0 CHILD0, 1 CHILD1, 2 PARENT), the first
with a free slot. -/
def State.ringFor (s : State) (l vc : Nat) : Option (Nat × Nat × Nat) :=
  let t := vc % 2
  (List.range 4).findSome? fun tp =>
    let e := tget TreeEnt.none ((s.coll.newPlan.map (·.1)).getD s.coll.plan) (2 * tp + t)
    let r := if vc < 8 then (if e.child0 = l then some 0 else if e.child1 = l then some 1 else none)
      else (if e.parent = l then some 2 else none)
    match r with
    | none => none
    | some r => if (s.coll.slots.filter fun x => x.tp == tp && x.tree == t && x.ring == r).length < e.slots then some (tp, t, r) else none

/-- A collective cell passes into a free slot of its ring, which lies in scratchpad (R249). -/
def State.takeColl (s : State) (l : Nat) (c : Cell) : State :=
  match s.ringFor l c.vc with
  | none => s.dropFormat l c
  | some r =>
    let e := tget TreeEnt.none ((s.coll.newPlan.map (·.1)).getD s.coll.plan) (2 * r.1 + r.2.1)
    let key := 6 * r.1 + 3 * r.2.1 + r.2.2
    let held := s.coll.slots.filter fun x => x.tp == r.1 && x.tree == r.2.1 && x.ring == r.2.2
    let i := (firstFrom (tget 0 s.coll.fill key) e.slots fun j => !(held.any fun x => x.idx == j)).getD 0
    let s := s.updColl fun x => { x with fill := tput x.fill key ((i + 1) % max 1 e.slots)
                                         slots := x.slots ++ [{ tp := r.1, tree := r.2.1, ring := r.2.2, idx := i, lid := l, cell := c }] }
    let base := e.base + 64 * (e.ringAt r.2.2 * e.slots + i)
    (s.spWrites ((bytesWords c.bytes).zipIdx.map fun w => ((base + w.2) % 2 ^ 29, w.1, false))).countDlv c.epoch 1

/-- A cell for this device goes to the engine of its TYPE (R198); DLV counts it, a SEND's cell as it leaves its receive
entry [170]. A bulk cell's buffer is posted again as its data is taken (R190) [187]. -/
def State.deliver (s : State) (l : Nat) (c : Cell) : State :=
  match typClass c.typ with
  | some 0 =>
    if (s.reqOf l c).isNone ∧ headRsv c then s.dropFormat l c else (if c.typ = 1 ∧ l < 96 then s else s.countDlv c.epoch 1).takeReq l c
  | some 1 => if (s.reqOf l c).isNone ∧ headRsv c then s.dropFormat l c else (s.countDlv c.epoch 1).takeReq l c
  | some 2 => ((if l < 96 then s.release l c else s).countDlv c.epoch 1).takeRsp c
  | some 5 => ((if l < 96 then s.release l c else s).countDlv c.epoch 1).updFab fun f => { f with mgt := f.mgt ++ [c] }
  | some 6 => ((s.countDlv c.epoch 1).freeEntry l c.vc false).updFab fun f => { f with bulk := f.bulk ++ [(l, c)] }
  | _ => s.takeColl l c

/-- CELL_ROUTE (R198 to R201, R203): `l` is the LID it came on, 127 for a cell formed here. A management cell of partition 0 that another
partition lets in is delivered and never forwarded (R206). -/
def State.routeCell (s : State) (l : Nat) (c : Cell) : State :=
  match s.setOf c.epoch with
  | none => s.dropEpoch l c
  | some t =>
    if !vcRouted c.vc then (if c.dest = s.fab.phys then s.deliver l c else s.dropFormat l c)
    else
      match s.placeOf s.fab.phys, s.placeOf c.dest with
      | some own, some dst =>
        let ax := if l < 96 then some ((s.lid l).port / 2) else none
        match t.route own dst ax (c.vc % 2 == 1) with
        | .deliver => s.deliver l c
        | .lost => s.dropRoute l c
        | .go n _ b =>
          if l < 96 ∧ (c.part ≠ (s.lid l).part ∨ c.part ≠ s.fab.part) then s.dropPart l c
          else if (s.lid n).st = .down ∨ (s.lid n).st = .fenced then s.dropDead l n c
          else s.enqueue n (if l < 96 then l + 1 else 0) { c with vc := c.vc / 2 * 2 + b2n b }
      | _, _ => s.dropRoute l c

/-- Forms a routed cell here and routes it; injection for a fenced partition is refused (R208). -/
def State.inject (s : State) (dest typ vc qtag : Nat) (flags : Byte) (part off : Nat) (payload : List Byte) : State :=
  if s.fencedPart part then s
  else
    let c := s.form dest typ vc qtag flags part off payload
    (s.countInj c.epoch).routeCell 127 c

/-- The engine may form the cell: its partition is under no fence (R208), partition 0 carries management traffic alone (R207), the TYPE is
one of the VC's class (R188) and the payload fits. -/
def State.mayForm (s : State) (x : InjReq) : Bool :=
  !s.fencedPart x.part && (x.part != 0 || vcClassOf x.vc == 5) && decide (x.vc < 14) && decide (x.payload.length ≤ 240) &&
    typClass x.typ == some (vcClassOf x.vc)

/-- CELL_INJECT (R180), in link cycle `cyc`: a logical destination through LOG2PHYS; the LID's peer for single-hop classes (R201). -/
def execCellInject (x : InjReq) (cyc : Nat) (s : State) : Res :=
  if !s.mayForm x then .next s
  else if vcRouted x.vc then
    .next ((s.linkAt cyc).inject (s.l2p x.dest) x.typ (x.vc / 2 * 2) x.qtag x.flags x.part x.msgoff x.payload)
  else
    unit x.lid 96 <|
      when ((s.lid x.lid).st == .up && s.fab.part != 0) s ((s.linkAt cyc).sendOn x.lid x.typ x.vc x.qtag x.flags x.msgoff x.payload)

/-! ## Sending frames (R187, R190 to R194) -/

/-- The cell that VC `v` of a LID sends next: the oldest, ties by the rotating index (R192). -/
def Lid.head (k : Lid) (v : Nat) : Option (Nat × Nat × Cell) :=
  let q := k.outq.filter fun e => e.2.2.vc == v
  match q with
  | [] => none
  | e :: es =>
    let low := es.foldl (fun a x => min a x.1) e.1
    let tied := q.filter fun x => x.1 == low
    match firstFrom (tget 0 k.vcRot v) 97 fun r => tied.any fun x => x.2.1 == r with
    | some r => tied.find? fun x => x.2.1 == r
    | none => some e

/-- A VC has a frame ready and a credit (R190, R249): three slot credits for collective data. -/
def Lid.ready (k : Lid) (v : Nat) : Bool :=
  match k.head v with
  | none => false
  | some e =>
    let n := tget 0 k.resv v
    if vcRouted v then decide (k.shared > 0 ∨ n > 0)
    else if e.2.2.typ = 0x10 ∨ e.2.2.typ = 0x18 then decide (n ≥ 3) else decide (n ≥ 1)

/-- Frames that the LID's retry buffer holds (R194). -/
def Lid.window (k : Lid) : Nat := 15887 * k.w / 16

/-- Weight of a VC (Table 7-11). -/
def Lid.weight (k : Lid) (v : Nat) : Nat := (k.vcw.toNat / 2 ^ (4 * v)) % 16

/-- The VC of the next data frame and the frames left of its visit after it (R191). A visit's length is that of the weight as the visit
begins, so that new weights apply from the next visit (R274). -/
def Lid.pick (k : Lid) : Option (Nat × Nat) :=
  let v := k.visit.1
  if v < 14 ∧ k.ready v ∧ k.visit.2 > 0 then some (v, k.visit.2 - 1)
  else (firstFrom ((v + 1) % 14) 14 fun u => k.ready u).map fun u => (u, k.weight u)

/-- The wavelengths that frames may go on: those of the mask in effect that do not leave it (R195). -/
def Lid.sendMask (k : Lid) : BitVec 17 := if k.wmask &&& k.target = 0#17 then k.wmask else k.wmask &&& k.target

/-- The line of the next frame, round robin over the wavelengths (R185). -/
def Lid.nextLine (k : Lid) : Nat := (firstFrom k.rr 17 fun w => k.sendMask.getLsbD w).getD 0

/-- CRC-16/CCITT-FALSE (Table 8-4). -/
def crc16 (bs : List Byte) : Nat :=
  bs.foldl (fun r b => (List.range 8).foldl (fun x _ =>
    if x ≥ 0x8000 then Nat.xor (x * 2 % 65536) 0x1021 else x * 2 % 65536) (Nat.xor r (b.toNat * 256))) 0xFFFF

/-- The marker of physical line `w` of port `p` (Table 8-4). -/
def State.markerBytes (s : State) (p w : Nat) : List Byte :=
  let b := natLe 0x5AC3 2 ++ natLe s.fab.phys 2 ++ natLe (w % 32 + 32 * (s.light.passEp % 8)) 1 ++
    natLe ((s.port p).logical w % 32 + 32) 1 ++ natLe (((s.port p).txtot % 65536).toNat) 2 ++ natLe ((s.line p w).mcnt % 65536) 2 ++
    List.replicate 4 0#8
  b ++ natLe (crc16 b) 2

/-- One frame slot of a line passes; after every 128 the line carries a marker (R220) [188]. -/
def State.frameSlot (s : State) (p w : Nat) : State :=
  if (s.line p w).slots + 1 < 128 then s.updLine p w fun x => { x with slots := x.slots + 1 }
  else (s.emit (.marker p w (s.markerBytes p w))).updLine p w fun x => { x with slots := 0, mcnt := (x.mcnt + 1) % 65536 }

/-- A frame leaves on LID `l` in a slot of its next line (R185). -/
def State.emitFrame (s : State) (l : Nat) (c : Cell) (seq : Nat) (shared : Bool) : State :=
  let k := s.lid l
  (s.emit (.frame l k.nextLine (frameBytes c seq k.exp) shared)).frameSlot k.port k.nextLine

/-- A data frame leaves: the line it goes on is kept until the frame is acknowledged (R195), and the next goes on the line after it. -/
def State.emitData (s : State) (l : Nat) (c : Cell) (seq : Nat) (shared : Bool) : State :=
  let w := (s.lid l).nextLine
  (s.emitFrame l c seq shared).updLid l fun k => { k with rr := (w + 1) % 17, lines := k.lines ++ [(seq, w)] }

/-- A new data frame on VC `v` (R190 to R193): credit spent, SEQ given, kept for retry, its receive entry freed. The rotating index moves
where requesters tied (R192). -/
def State.sendData (s : State) (l v n : Nat) : State :=
  let k := s.lid l
  match k.head v with
  | none => s
  | some e =>
    let tied := k.outq.any fun x => x.2.2.vc == v && x.1 == e.1 && x.2.1 != e.2.1
    let shared := vcRouted v && decide (k.shared > 0)
    let s := s.updLid l fun k =>
      { k with outq := k.outq.erase e, visit := (v, n), retry := k.retry ++ [(k.seq, e.2.2)], seq := (k.seq + 1) % 65536,
               vcRot := if tied then tput k.vcRot v ((e.2.1 + 1) % 97) else k.vcRot,
               shrSeqs := if shared then k.shrSeqs ++ [k.seq] else k.shrSeqs,
               shared := if shared then k.shared - 1 else k.shared,
               resv := if shared then k.resv else tupd 0 k.resv v (· - 1) }
    let s := s.emitData l e.2.2 k.seq shared
    if e.2.1 = 0 then s else s.release (e.2.1 - 1) e.2.2

/-- The arbiter's choice where a new data frame can go: the LID is UP, has a retry entry free (R194), and its LINK level is above 0
(R361). -/
def State.dataPick (s : State) (l : Nat) : Option (Nat × Nat) :=
  let k := s.lid l
  if k.st ≠ .up ∨ k.retry.length ≥ k.window ∨ (s.gate (32 + k.port)).eff = 0 then none else k.pick

/-- FRAME_SEND (R185, R187, R191): one frame slot of the LID's next line, in link cycle `cyc`. New data goes only in a cycle that LL permits
(R361). A frame to be replayed goes first, with the mark of the credit it
spent (R190), unless a control frame goes before it; then the arbiter's choice; else the line sends an idle block (R219). -/
def execFrameSend (lid cyc : Nat) (s : State) : Res :=
  unit lid 96 <|
    let k := s.lid lid
    when k.carries s <|
      match k.replay with
      | x :: xs =>
        if k.due then s else (s.updLid lid fun k => { k with replay := xs }).emitData lid x.2 x.1 (k.shrSeqs.contains x.1)
      | [] =>
        match s.dataPick lid with
        | none => s.frameSlot k.port k.nextLine
        | some p => if cyclePermitted (s.gate (32 + k.port)).eff cyc then s.sendData lid p.1 p.2 else s.frameSlot k.port k.nextLine

/-- The payload of a control frame (R186). -/
def Lid.ctlPayload (k : Lid) : List Byte :=
  (List.range 16).flatMap (fun v => wordBytes (tget 0#32 k.crdOut v)) ++ wordBytes k.shrOut ++ natLe k.exp 2 ++
  [BitVec.ofNat 8 (b2n k.nak + 2 * b2n (k.maskAck && k.rmask == k.repMask)), 0#8] ++ natLe k.repMask.toNat 8

/-- A control frame leaves, in a slot of the LID's next line (R186) [189]. -/
def State.sendCtlFrame (s : State) (l : Nat) : State :=
  let k := s.lid l
  let c := s.form k.peer 0xF0 0 0 0#8 k.part 0 k.ctlPayload
  (s.emitFrame l c k.seq false).updLid l fun k => { k with due := false }

/-- CONTROL_FRAME_SEND (R187): a count or NAK has changed, and no data frame is ready or the frame to go is a replay. -/
def execControlFrameSend (lid : Nat) (s : State) : Res :=
  unit lid 96 <|
    let k := s.lid lid
    when (k.carries && k.due && (!k.replay.isEmpty || (s.dataPick lid).isNone)) s (s.sendCtlFrame lid)

/-- CONTROL_FRAME_DUE (R187): 2 µs with a count or NAK pending. -/
def execControlFrameDue (lid us : Nat) (s : State) : Res :=
  unit lid 96 <|
    let k := s.lid lid
    when (k.carries && k.due && decide (us ≥ 2)) s (s.sendCtlFrame lid)

/-- Every frame sent on a wavelength that leaves has been acknowledged (R195). -/
def Lid.left (k : Lid) (m : BitVec 17) : Bool := !(k.lines.any fun f => !m.getLsbD f.2)

/-- MASK_CHANGE_REPORT (R195): the new mask goes in this and every later control frame, with the acknowledgement where it is the mask that
the peer has reported; until the peer acknowledges it the report can be made again. -/
def execMaskChangeReport (lid : Nat) (s : State) : Res :=
  unit lid 96 <|
    let k := s.lid lid
    match k.newMask with
    | none => .next s
    | some m => when (k.carries && k.left m) s ((s.updLid lid fun k => { k with repMask := m }).sendCtlFrame lid)

/-! ## Receiving frames (R186, R193 to R195) -/

/-- The ACK field frees every retry frame below it (R193), counted in TXA. -/
def State.takeAck (s : State) (l ack : Nat) : State :=
  let k := s.lid l
  if ack = k.seq ∨ k.retry.any fun f => f.1 == ack then
    let gone := k.retry.takeWhile fun f => f.1 != ack
    let left := k.retry.dropWhile fun f => f.1 != ack
    s.updLid l fun k =>
      { k with retry := left, shrSeqs := k.shrSeqs.filter fun q => left.any fun f => f.1 == q
               lines := k.lines.filter fun q => left.any fun f => f.1 == q.1
               replay := k.replay.filter fun f => left.contains f
               replays := if gone.isEmpty then k.replays else 0
               txa := gone.foldl (fun a f => tupd 0 a f.2.epoch (satAdd 64 · 1)) k.txa }
  else s

/-- NAK_REPLAY (R193, R194): from a SEQ, in order. The eighth replay in a row without ACK advance puts the LID DOWN. -/
def State.startReplay (s : State) (l : Nat) (frames : List (Nat × Cell)) : State :=
  let k := s.lid l
  let s := s.updLid l fun k => { k with replay := frames, replays := k.replays + 1, replayCnt := satAdd 8 k.replayCnt 1 }
  if k.replays + 1 ≥ 8 then s.lidReplayLimit l else s

/-- A frame rejected for its CRC (R193, R194): the first discard of a data frame sets NAK, a control frame costs nothing but its count
(R186); more than 8 in 1 s put the LID DOWN. -/
def State.badCrc (s : State) (l : Nat) (data : Bool) : State :=
  let k := s.lid l
  let w := if k.crcWin.2 = 0 ∨ s.now - k.crcWin.1 > 1000000 then (s.now, 1) else (k.crcWin.1, k.crcWin.2 + 1)
  let s := s.updLid l fun k =>
    { k with crcErr := satAdd 16 k.crcErr 1, crcWin := w, nak := k.nak || data, due := k.due || (data && !k.nak) }
  if w.2 > 8 then s.lidReplayLimit l else s

/-- A reserved bit of a collective payload is set (R12, R262, Table 9-5): byte 3 of the segment word, or of a control payload all that its
TYPE does not use. -/
def collRsv (c : Cell) : Bool :=
  let w1 := fieldLe c.payload 4 4
  if c.typ = 0x10 ∨ c.typ = 0x18 then c.payload.getD 3 0#8 != 0#8
  else if 0x11 ≤ c.typ ∧ c.typ < 0x20 then
    let used := match c.typ with
      | 0x11 => 7
      | 0x19 => 7
      | 0x13 => 0xFF
      | 0x1B => 0xFF
      | 0x14 => 0x7FFF
      | 0x1C => 0x7F7FFF
      | _ => 0
    (c.payload.drop 8).any (· != 0#8) || Nat.land w1 used != w1 || (c.typ % 8 != 1 && fieldLe c.payload 0 4 != 0)
  else false

/-- R183's tests of an accepted cell; a malformed EXACT payload fails under R63. -/
def cellFormatBad (c : Cell) : Bool :=
  c.gen != 1 || typClass c.typ != some (vcClassOf c.vc) || decide (c.len > 240) || c.rsv || collRsv c ||
  (c.exact && (exactPackets (c.payload.drop 4) 240).isNone)
where
  /-- The payload after the segment word is whole limb packets. -/
  exactPackets (bs : List Byte) : Nat → Option Unit
    | 0 => none
    | n + 1 =>
      if bs.isEmpty then some ()
      else match readPacket bs with
        | none => none
        | some p => exactPackets p.2 n

/-- R206: the cell's partition is the LID's and the device's; management cells of partition 0 pass, to be delivered alone. -/
def State.partOk (s : State) (l : Nat) (c : Cell) : Bool :=
  (c.part == (s.lid l).part && c.part == s.fab.part) || ((c.vc == 10 || c.vc == 11) && c.part == 0)

/-- A frame accepted in order (R193): its cell takes an entry and is tested, delivered or forwarded. -/
def State.accept (s : State) (l : Nat) (c : Cell) (shared : Bool) : State :=
  let s := s.updLid l fun k =>
    { k with exp := (k.exp + 1) % 65536, nak := false, due := k.due || k.nak, acc := tupd 0 k.acc c.epoch (satAdd 64 · 1)
             held := if vcRouted c.vc then k.held ++ [(c, shared)] else k.held }
  if cellFormatBad c then s.dropFormat l c
  else if !s.partOk l c then s.dropPart l c
  else s.routeCell l c

/-- A cell that comes in the link cycle in which its LID's fence takes effect: the fence wins, and the loss counts in DLV and is
reported (R208, R211). -/
def State.fenceLoss (s : State) (l : Nat) (bytes : List Byte) : State :=
  if frameGood bytes ∧ fieldLe bytes 256 2 = (s.lid l).exp then
    (s.countDlv (cellOf bytes).epoch 1).lidRep 2 l 0x30 (l + 65536)
  else s

/-- FRAME_RECEIVE (R193) on physical line `line` in link cycle `cyc`. `shared` is the credit kind that the frame is marked with (R190);
`rd` is what the line's receiver counted. -/
def execFrameReceive (lid line cyc : Nat) (bytes : List Byte) (shared : Bool) (rd : LineRead) (s : State) : Res :=
  unit lid 96 <| unit line 17 <|
    let k := s.lid lid
    let s := (s.linkAt cyc).lineRead k.port line rd
    if bytes.length ≠ 264 then .next s
    else if k.st = .fenced ∧ k.fenceCyc = some cyc then .next (s.fenceLoss lid bytes)
    else if !(s.lid lid).carries then .next s
    else if (s.line k.port line).foreign_ then
      .next (if frameGood bytes then s.countDlv (cellOf bytes).epoch 1 else s)
    else if !frameGood bytes then .next (s.badCrc lid true)
    else
      let s := s.takeAck lid (fieldLe bytes 258 2)
      if fieldLe bytes 256 2 = k.exp then .next (s.accept lid (cellOf bytes) shared)
      else .next (s.updLid lid fun k => { k with due := k.due || !k.nak, nak := true })

/-- A cumulative count received: how far it has moved on, modulo 2^32. -/
def gained (new old : W32) : Nat := (new - old).toNat

/-- A control cell is malformed (R183, R186): its header, its reserved bits, or those of its payload. -/
def State.ctlBad (s : State) (c : Cell) : Bool :=
  c.typ != 0xF0 || c.vc != 0 || c.len != 80 || c.dest != s.fab.phys || c.gen != 1 || c.rsv ||
  decide ((c.payload.getD 70 0#8).toNat ≥ 4) || c.payload.getD 71 0#8 != 0#8 || decide (fieldLe c.payload 72 8 ≥ 2 ^ 17)

/-- A malformed control frame: counted and reported. No INJ has counted its cell, and it holds no entry. -/
def State.dropControl (s : State) (l : Nat) : State :=
  (s.updLid l fun k => { k with fmtErr := satAdd 8 k.fmtErr 1 }).lidRep 2 l 0x31 l

/-- Credits that a control frame returns (R186, R190). -/
def Lid.takeCredits (k : Lid) (p : List Byte) : Lid :=
  let crd : List (Nat × W32) := (List.range 16).map fun v => (v, bytesWord ((p.drop (4 * v)).take 4))
  let shr := bytesWord ((p.drop 64).take 4)
  { k with resv := crd.foldl (fun (a : Tab Nat) (x : Nat × W32) => tupd 0 a x.1 (· + gained x.2 (tget 0#32 k.crdIn x.1))) k.resv
           crdIn := tputAll k.crdIn crd
           shared := k.shared + gained shr k.shrIn, shrIn := shr }

/-- The mask of the peer's control frame (R195, R238): a line that it drops leaves here too, one that it adds joins where it is in `ok`;
with the acknowledgement of the mask that this end has reported, that mask is in effect [190]. -/
def Lid.takeMask (k : Lid) (mask ok : BitVec 17) (ack : Bool) : Lid :=
  let m := (k.target &&& (mask ||| ~~~k.rmask)) ||| (mask &&& ~~~k.rmask &&& ok)
  let k := if mask = k.rmask then k else { k with rmask := mask, maskAck := true, due := true }
  let k := if m = k.target then k else k.aim m
  if ack ∧ k.newMask = some mask ∧ k.repMask = mask then { k with wmask := mask, newMask := none } else k

/-- CONTROL_FRAME_RECEIVE (R186) on physical line `line`: credits, ACK, mask and NAK. A control frame lost to a CRC error has no effect but
its count; those of a FOREIGN line are discarded (R221). -/
def execControlFrameReceive (lid line : Nat) (bytes : List Byte) (rd : LineRead) (s : State) : Res :=
  unit lid 96 <| unit line 17 <|
    let k := s.lid lid
    let s := s.lineRead k.port line rd
    let c := cellOf bytes
    if !(s.lid lid).carries ∨ bytes.length ≠ 264 ∨ (s.line k.port line).foreign_ then .next s
    else if !frameGood bytes then .next (s.badCrc lid false)
    else if s.ctlBad c then .next (s.dropControl lid)
    else
      let p := c.payload
      let fl := (p.getD 70 0#8).toNat
      let ok := s.usable k.port
      let s := s.updLid lid fun k => (k.takeCredits p).takeMask (BitVec.ofNat 17 (fieldLe p 72 8)) ok (nbit fl 1)
      let s := s.takeAck lid (fieldLe bytes 258 2)
      let k := s.lid lid
      if k.target = 0#17 then .next (s.lidDown lid)
      else if nbit fl 0 ∧ k.replay.isEmpty ∧ !k.retry.isEmpty then
        .next (s.startReplay lid (k.retry.dropWhile fun f => f.1 != fieldLe p 68 2))
      else .next s

/-- RETRY_TIMEOUT (R193): 16 µs without ACK advance. -/
def execRetryTimeout (lid us : Nat) (s : State) : Res :=
  unit lid 96 <|
    let k := s.lid lid
    when (k.carries && !k.retry.isEmpty && decide (us ≥ 16)) s (s.startReplay lid k.retry)

/-! ## Training (R189, R196, R212, R442) -/

/-- The mask that those lines give through LINEMAP; FAILED and FOREIGN lines stay out (R221, R236). -/
def State.maskOf (s : State) (p : Nat) (ls : List Nat) : BitVec 17 :=
  s.usable p &&& ls.foldl (fun m i => m ||| BitVec.ofNat 17 (2 ^ (s.port p).phys i)) 0#17

/-- A port's lines are admitted: readiness, soak passed, PASS_EP advanced (R243). -/
def Port.open_ (x : Port) : Bool := x.st == .ready && !x.pend

/-- A LID starts to train with the lines of the active set. -/
def State.train_ (s : State) (l : Nat) : State :=
  match s.linkEnt l with
  | none => s
  | some e =>
    let ls := s.linesOf s.light.actSet e.port l
    let m := s.maskOf e.port ls
    if m = 0#17 ∨ s.mod.nodebad then s
    else s.updLid l fun k => { k with st := .training, port := e.port, peer := e.peer, part := e.part, w := ls.length, wmask := m }

/-- LID_TRAINING_START (R212): the passes have admitted the lines. A LID that a pending pass-set switch changes waits for its release
(R231). -/
def execLidTrainingStart (lid : Nat) (s : State) : Res :=
  unit lid 96 <|
    match s.linkEnt lid with
    | none => .next s
    | some e =>
      when ((s.lid lid).st == .down && (s.port e.port).open_ && !(s.light.swPend && s.light.swLids.contains lid)) s (s.train_ lid)

/-- Free slots of the rings that LID `l` fills on VC `v` (R249). -/
def State.slotsFree (s : State) (l v : Nat) : Nat :=
  ((List.range 4).map fun tp =>
    let e := tget TreeEnt.none ((s.coll.newPlan.map (·.1)).getD s.coll.plan) (2 * tp + v % 2)
    let on := if v < 8 then b2n (e.child0 == l) + b2n (e.child1 == l) else b2n (e.parent == l)
    on * e.slots - (s.coll.slots.filter fun x => x.tp == tp && x.lid == l && x.cell.vc == v).length).sum

/-- UP from SEQ 0 with the credits of R189; slots that are free are posted to the peer, and bulk buffers [187]. -/
def State.lidUp (s : State) (l rtt : Nat) : State :=
  s.updLid l fun k =>
    { k with st := .up, rtt := rtt, seq := 0, exp := 0, nak := false, retry := [], shrSeqs := [], replay := [], replays := 0, crcWin := (0, 0),
             resv := [0, 1, 2, 3, 4, 5, 10, 11].map (·, 16), shared := 1024 * k.w - 128, shrOut := 0#32, shrIn := 0#32, crdIn := [],
             crdOut := ([6, 7, 8, 9].map fun v => (v, BitVec.ofNat 32 (s.slotsFree l v))) ++
               [12, 13].map fun v => (v, BitVec.ofNat 32 Config.bulkBuffers)
             due := true, visit := (0, 0), rr := 0, lines := [], newMask := none, repMask := k.wmask, rmask := k.wmask, maskAck := false
             fencing := false, retire := false, fenceCyc := none }

/-- LID_TRAINING_COMPLETE (R196, R442): a common generation, T_rt within 11.2 µs and the identities of the link table. -/
def execLidTrainingComplete (lid rtt genmask node part : Nat) (s : State) : Res :=
  unit lid 96 <|
    let k := s.lid lid
    if k.st ≠ .training then .next s
    else if !nbit genmask 1 then .next ((s.updLid lid fun k => { k with st := .down }).lidRep 2 lid 0x30 genmask)
    else if rtt > 11200 ∨ node ≠ k.peer ∨ part ≠ k.part then .next (s.lidDown lid)
    else .next (s.lidUp lid rtt)

/-! ## Fences (R208) -/

/-- SOFT_FENCE_COMPLETE: the retry buffer is empty and every receive entry has left the device. A LID drained because its set was retired
is DOWN (R177). -/
def execSoftFenceComplete (lid : Nat) (s : State) : Res :=
  unit lid 96 <|
    let k := s.lid lid
    when (k.st == .draining && k.drained && (k.fencing || k.retire)) s <|
      if k.fencing then s.hardFence lid else s.lidOff lid .down

/-- SOFT_FENCE_TIMEOUT: 50 ms. -/
def execSoftFenceTimeout (lid ms : Nat) (s : State) : Res :=
  unit lid 96 <| when ((s.lid lid).st == .draining && decide (ms ≥ 50)) s <|
    if (s.lid lid).fencing then s.hardFence lid
    else if (s.lid lid).retire then s.lidOff lid .down
    else (s.hardFence lid).updLight fun b => { b with swFenced := setIns b.swFenced lid }

/-! ## Messages at the target (R181, R182, R184, R351) -/

/-- A reply to RQTAG: ACK with a status, routed to the node that asked. -/
def State.sendAck (s : State) (m : InMsg) (dst status : Nat) : State :=
  s.inject dst 9 4 m.rqtag 1#8 m.cell.part 0 (natLe status 2 ++ List.replicate 6 0#8)

/-- DATA cells of a read, 240 bytes each (R182). -/
def State.sendData_ (s : State) (m : InMsg) (dst : Nat) (bs : List (Byte × Bool)) : State :=
  let n := (bs.length + 239) / 240
  (List.range n).foldl (fun a i =>
    let x := (bs.drop (240 * i)).take 240
    a.inject dst 8 4 m.rqtag (BitVec.ofNat 8 (b2n (i + 1 == n) + 2 * b2n (x.any (·.2)))) m.cell.part (240 * i) (x.map (·.1))) s

/-- The message leaves. -/
def State.endIn (s : State) (m : InMsg) : State := s.updFab fun f => { f with inMsgs := f.inMsgs.erase m }

/-- The cells of one SEND that its LID's receive entries still hold: those of its source and destination, in order, after
the LAST of each earlier message in progress and up to its own (R182, R209). -/
def State.entriesOf (s : State) (m : InMsg) : List Cell :=
  if m.cell.typ ≠ 1 ∨ m.lid ≥ 96 then []
  else
    let like := fun (c : Cell) => c.src == m.cell.src && c.dest == m.cell.dest && c.typ == 1
    let before := ((s.fab.inMsgs.takeWhile fun x => x != m).filter fun x => x.lid == m.lid && like x.cell).length
    let cells := ((s.lid m.lid).held.map (·.1)).filter like
    let mine := (List.range before).foldl (fun a _ => (a.dropWhile fun c => !c.lastCell).drop 1) cells
    let more := mine.takeWhile fun c => !c.lastCell
    more ++ (mine.drop more.length).take 1

/-- A SEND's cells leave their receive entries, and DLV counts them [170]. -/
def State.freeMsg (s : State) (m : InMsg) : State :=
  (s.entriesOf m).foldl (fun a c => (a.countDlv c.epoch 1).release m.lid c) s

/-- The window that a request names, or none where R351 refuses it. -/
def State.windowFor (s : State) (m : InMsg) : Option Window :=
  match s.setOf m.cell.epoch with
  | none => none
  | some t =>
    match t.wins.find? fun w => w.1 == m.cell.qtag with
    | none => none
    | some w =>
      if m.cell.qtag > 1023 ∨ w.2.part ≠ m.cell.part then none
      else if w.2.remote then (if m.cell.typ = 3 then some w.2 else none)
      else if m.woff + m.mlen > w.2.size ∨ (m.cell.typ = 2 ∧ w.2.wrprot) then none
      else some w.2

/-- GETF_FORWARD (R181): the GET goes on as one GETF to the window's node, which answers the requester. -/
def State.forwardGet (s : State) (m : InMsg) (w : Window) : State :=
  s.inject (s.l2p w.rnode) 4 2 w.rwin 1#8 m.cell.part 0
    (natLe m.woff 8 ++ natLe m.mlen 4 ++ natLe m.rqtag 2 ++ natLe m.cell.src 2)

/-- GET and GETF. -/
def State.serveGet (s : State) (m : InMsg) : State :=
  let dst := if m.cell.typ = 4 then m.orig else m.cell.src
  let s := s.endIn m
  match s.windowFor m with
  | none => s.sendAck m dst 0x103
  | some w =>
    if w.remote then s.forwardGet m w
    else
      let r := s.memRead (.engine ((s.lid m.lid).port)) m.cell.part ((w.base + m.woff) % 2 ^ 40) m.mlen
      r.1.sendData_ m dst (r.2.1.zip r.2.2.1)

/-- Data that has come is written at the message's place; the last byte written is acknowledged. -/
def State.putMsg (s : State) (m : InMsg) (base : Nat) : State × InMsg :=
  if m.refuse.isSome then (s, { m with data := [] })
  else
  let r := s.memWrite (.engine ((s.lid m.lid).port)) m.cell.part ((base + m.done) % 2 ^ 40) (m.data.map (·.1)) (m.data.map (·.2))
  (r.1, { m with data := [], done := m.done + m.data.length, refuse := if r.2.isSome then some 0x10E else m.refuse })

/-- The message as it stands replaces the one it was. -/
def State.setIn (s : State) (m x : InMsg) : State :=
  s.updFab fun f => { f with inMsgs := f.inMsgs.map fun y => if y = m then x else y }

/-- A refused message: the rest is discarded as it comes, and one ACK carries the status (R182). -/
def State.refuseMsg (s : State) (m : InMsg) (status : Nat) : State :=
  let s := s.freeMsg m
  if m.last then (s.endIn m).sendAck m m.cell.src status
  else s.setIn m { m with data := [], refuse := some status }

/-- The posted buffer at the head of a receive queue: address, length, TAG (words 2 to 4 and 1) [26]. -/
def State.takeBuffer (s : State) (q : Nat) : State × Nat × Nat × W32 :=
  let r := s.entryAt .hub q (s.que q).head
  let d := r.2.map (·.1)
  (r.1.popHead q, (Desc.dword d 2).toNat % 2 ^ 40, (Desc.word d 4).toNat, Desc.word d 1)

/-- The completion of a received message on its queue (R182, R184): held for its batch where DETSEQ asks for one. -/
def State.nrqDone (s : State) (m : InMsg) (q : Nat) (tag : W32) : State :=
  if m.cell.detseq ∧ (s.que q).batch > 0 then
    s.updFab fun f => { f with holds := f.holds ++ [{ q := q, node := s.p2l m.cell.src, tag := tag, len := m.done, status := m.refuse.getD 2 }] }
  else s.postOn q (rec0 tag q (m.refuse.getD 2) (s.que q).head (BitVec.ofNat 32 m.done) (BitVec.ofNat 32 (s.p2l m.cell.src)) 0#32 0#32 false)

/-- A SEND: a posted buffer is taken, data written, and the last byte acknowledged. -/
def State.serveSend (s : State) (m : InMsg) : State :=
  let q := m.cell.qtag
  match m.buf with
  | none =>
    if (s.que q).typ ≠ 5 ∨ (s.que q).part ≠ m.cell.part then s.refuseMsg m 0x103
    else if !(s.que q).has then s.setIn m { m with waits := true }
    else
      let b := s.takeBuffer q
      b.1.setIn m { m with buf := some (q, b.2.1, b.2.2.1, b.2.2.2), waits := false
                           refuse := if m.mlen > b.2.2.1 then some 0x103 else none }
  | some b =>
    let r := (s.freeMsg m).putMsg m b.2.1
    if m.last then
      let s := (r.1.endIn m).nrqDone r.2 b.1 b.2.2.2
      s.sendAck m m.cell.src (r.2.refuse.getD 0)
    else r.1.setIn m r.2

/-- A WRITE into a window. -/
def State.serveWrite (s : State) (m : InMsg) : State :=
  match s.windowFor m with
  | none => s.refuseMsg m 0x103
  | some w =>
    let r := s.putMsg m (w.base + m.woff)
    if m.last then (r.1.endIn m).sendAck m m.cell.src (r.2.refuse.getD 0) else r.1.setIn m r.2

/-- REQ_MESSAGE_SERVE (R182): the target serves message `i` with what has come of it. -/
def execReqMessageServe (i : Nat) (s : State) : Res :=
  match s.fab.inMsgs[i]? with
  | none => .next s
  | some m =>
    match m.refuse, m.acked, m.buf with
    | some _, true, _ => .next (if m.last then (s.freeMsg m).endIn m else (s.freeMsg m).setIn m { m with data := [] })
    | some st, false, none => .next (s.refuseMsg m st)
    | _, _, _ =>
      if m.cell.typ = 1 then .next (s.serveSend m)
      else if m.cell.typ = 2 then .next (s.serveWrite m)
      else .next (s.serveGet m)

/-- NRQ_WAIT_EXPIRY (R182): NO_RESOURCE, and the rest of the message is discarded. -/
def execNrqWaitExpiry (i us : Nat) (s : State) : Res :=
  match s.fab.inMsgs[i]? with
  | none => .next s
  | some m =>
    let lim := (s.host.job.map (·.nrqWait)).getD 1000
    if m.waits ∧ m.buf.isNone ∧ us ≥ lim then
      let s := (s.freeMsg m).sendAck m m.cell.src 0x105
      .next (if m.last then s.endIn m else s.setIn m { m with data := [], waits := false, refuse := some 0x105, acked := true })
    else .next s

/-- MESSAGE_LOST_TIMEOUT (R182): 100 ms after the last cell. -/
def execMessageLostTimeout (i ms : Nat) (s : State) : Res :=
  match s.fab.outMsgs[i]? with
  | none => .next s
  | some m => when (m.sent && decide (ms ≥ 100)) s (s.endOut m 0x10C)

/-- DETSEQ_BATCH_RELEASE (R184): the first B completions held, in ascending order of the source's logical node. -/
def execDetseqBatchRelease (q : Nat) (s : State) : Res :=
  unit q 8192 <|
    let b := (s.que q).batch
    let mine := s.fab.holds.filter fun h => h.q == q
    when (decide (b > 0) && decide (mine.length ≥ b)) s <|
      let out := (mine.take b).mergeSort fun x y => decide (x.node ≤ y.node)
      let s := s.updFab fun f => { f with holds := f.holds.filter (fun h => h.q != q) ++ mine.drop b }
      out.foldl (fun a h => a.postOn q (rec0 h.tag q h.status (a.que q).head (BitVec.ofNat 32 h.len) (BitVec.ofNat 32 h.node) 0#32 0#32 false)) s

/-! ## Messages of this device (R180, R182) -/

/-- A free reply slot. -/
def State.newSlot (s : State) : Nat :=
  (firstFrom (s.fab.nextSlot % 65536) 256 fun i => !(s.fab.outMsgs.any fun m => m.slot == i)).getD (s.fab.nextSlot % 65536)

/-- A SEND or WRITE message of `bs` to a physical node: the operation header, then data, 240 payload bytes a cell. -/
def State.sendMsg (s : State) (dst typ qtag woff slot part : Nat) (det : Bool) (bs : List (Byte × Bool)) : State :=
  let h := (natLe woff 8 ++ natLe bs.length 4 ++ natLe slot 2 ++ [0#8, 0#8]).map (·, false)
  let all := pieces 240 (h.map (·.1) ++ bs.map (·.1))
  let sp := (h ++ bs).map (·.2)
  all.zipIdx.foldl (fun a x =>
    let spoil := ((sp.drop (240 * x.2)).take 240).any id
    a.inject dst typ 0 qtag (BitVec.ofNat 8 (b2n (x.2 + 1 == all.length) + 2 * b2n spoil + 16 * b2n det)) part
      (if x.2 = 0 then 0 else 240 * x.2 - 16) x.1) s

/-- A network send queue's head entry is `d`: the device has fetched it (R337). -/
def State.nsqHead (s : State) (q : Nat) (d : Desc) : Bool :=
  (s.que q).typ == 4 && (s.que q).has && decide ((s.entryAt .hub q (s.que q).head).2.map (·.1) = d)

/-- A NSQ entry's record. -/
def State.netRec (s : State) (q : Nat) (d : Desc) (status : Nat) (d0 d1 : W32) : State :=
  s.postOn q (rec0 (Desc.word d 1) q status (s.que q).head d0 d1 0#32 0#32 false)

/-- A word or bit that the entry does not use is not 0 (R12, R349) [27]: DETSEQ and no window offset for SEND, an offset of 40 bits and no DETSEQ for
WRITE and GET. -/
def netRsv (d : Desc) (typ : Nat) : Bool :=
  let w := Desc.word d
  bitsOf (w 2) 30 15 != 0 || bitsOf (w 3) 31 16 != 0 || bitsOf (w 5) 31 8 != 0 || w 7 != 0#32 ||
    (if typ = 1 then w 8 != 0#32 || w 9 != 0#32 else (w 2).getLsbD 31 || bitsOf (w 9) 31 8 != 0) ||
    [10, 11, 12, 13, 14, 15].any fun i => w i != 0#32

/-- The common part of NET_SEND, NET_WRITE and NET_GET [27]: word 2 [14:0] logical node, [31] DETSEQ; word 3 [15:0]
receive queue or window; words 4–5 local device memory address; word 6 length; words 8–9 window offset. Partition 0 carries management
traffic alone, and an entry of a queue of partition 0 is refused (R207). -/
def State.netRun (s : State) (q : Nat) (d : Desc) (typ : Nat) : State :=
  let part := (s.que q).part
  let s := (s.entryAt .hub q (s.que q).head).1.popHead q
  let w := Desc.word d
  let len := (w 6).toNat
  match entryCheck (w 0) with
  | some st => s.netRec q d st 0#32 0#32
  | none =>
    if part = 0 ∨ len = 0 ∨ len > 2 ^ 24 ∨ netRsv d typ then s.netRec q d 0x103 0#32 0#32
    else if s.fencedPart part then s.netRec q d 0x108 0#32 0#32
    else
      let dev := (Desc.dword d 4).toNat % 2 ^ 40
      let slot := s.newSlot
      let dst := s.l2p (bitsOf (w 2) 14 0)
      let woff := (Desc.dword d 8).toNat % 2 ^ 40
      let open_ := fun (t : State) => t.updFab fun f => { f with nextSlot := (slot + 1) % 65536, outMsgs := f.outMsgs ++
        [{ slot := slot, typ := typ, q := q, tag := w 1, sqh := (t.que q).head, dev := dev, len := len, got := 0, sent := true,
           use := 0, part := part }] }
      if typ = 3 then
        (open_ s).inject dst 3 0 (bitsOf (w 3) 15 0) 1#8 part 0 (natLe woff 8 ++ natLe len 4 ++ natLe slot 2 ++ [0#8, 0#8])
      else
        match (unitsOf dev len).find? fun u => (s.admitUnit (.engine 0) part u).2.isNone with
        | some u => ((s.admitUnit (.engine 0) part u).1).netRec q d 0x10E (BitVec.ofNat 32 u) (BitVec.ofNat 32 (u / 2 ^ 32))
        | none =>
          let r := s.memRead (.engine 0) part dev len
          (open_ r.1).sendMsg dst typ (bitsOf (w 3) 15 0) woff slot part ((w 2).getLsbD 31) (r.2.1.zip r.2.2.1)

/-- NET_SEND (R182). -/
def execNetSend (q : Nat) (d : Desc) (s : State) : Res :=
  unit q 8192 <| when (s.nsqHead q d && bitsOf (Desc.word d 0) 15 0 == 0x0130) s (s.netRun q d 1)

/-- NET_WRITE (R182). -/
def execNetWrite (q : Nat) (d : Desc) (s : State) : Res :=
  unit q 8192 <| when (s.nsqHead q d && bitsOf (Desc.word d 0) 15 0 == 0x0131) s (s.netRun q d 2)

/-- NET_GET (R182). -/
def execNetGet (q : Nat) (d : Desc) (s : State) : Res :=
  unit q 8192 <| when (s.nsqHead q d && bitsOf (Desc.word d 0) 15 0 == 0x0132) s (s.netRun q d 3)

/-! ## Weights (R191, R274) -/

/-- The weights of every LID on the ports of the mask: of the LIDs of the link table, and of those that run. -/
def State.setWeights (s : State) (mask : Nat) (w : W64) : State :=
  (List.range 96).foldl (fun (a : State) l =>
    if nbit mask (a.lidPort l) ∧ ((a.linkEnt l).isSome ∨ (a.lid l).st ≠ .down) then a.updLid l fun x => { x with vcw := w } else a) s

/-- A step or phase boundary: weights that a command has set take effect. -/
def State.weightsDue (s : State) : State :=
  s.fab.vcwNext.foldl (fun (a : State) e => a.setWeights (2 ^ e.1) e.2) (s.updFab fun f => { f with vcwNext := [] })

/-! ## Epochs (R203 to R205) -/

/-- EPOCH_SWITCH (R204): the shadow becomes current and the old set is retired. -/
def State.epochSwitch (s : State) : State :=
  match s.fab.shadow with
  | none => s
  | some t => s.updFab fun f => { f with old := some f.cur, oldEp := f.curEp, cur := t, curEp := f.shadowEp, shadow := none, shadowSw := false }

/-- ACC − TXA over this device's LIDs that lead to a lost device, by the old set's link table (R205). -/
def State.lostSum (s : State) (t : TabSet) (lost : List Nat) : Int :=
  ((t.links.filter fun x => lost.contains x.2.peer).map fun x =>
    ((tget 0 (s.lid x.1).acc s.fab.oldEp : Nat) : Int) - ((tget 0 (s.lid x.1).txa s.fab.oldEp : Nat) : Int)).sum

/-- A LID that the freed set named and the current one drops or changes drains (R177): it carries cells of no set that is held. -/
def State.retireLids (s : State) (t : TabSet) : State :=
  (t.links.filter fun x => s.linkEnt x.1 != some x.2).foldl (fun (a : State) x =>
    if (a.lid x.1).st = .up ∨ (a.lid x.1).st = .draining then a.updLid x.1 fun k => { k with st := .draining, retire := true }
    else a.lidDown x.1) s

/-- EPOCH_SUM (R205): `others` is the sum over the job's other live devices, `lost` the devices of the job that have been lost. -/
def execEpochSum (others : Int) (lost : List Nat) (s : State) : Res :=
  let e := s.fab.oldEp
  match s.fab.old with
  | none => .next s
  | some t =>
    let sum := others + ((tget 0 s.fab.inj e : Nat) : Int) - ((tget 0 s.fab.dlv e : Nat) : Int) + s.lostSum t lost
    when (decide (sum = 0)) s <|
      let h := s.fab.shadowHnd
      ((s.updFab fun f => { f with old := none, stby := f.stbyClr.foldl tdel f.stby, stbyClr := [], shadowHnd := 0 }).retireLids t).doneLong h

end Sys2Proof.Machine
end

