-- ==== Sys2Proof/Machine/PowerOps.lean ====
section
/-! DEFINITION. The power controller's shared parts (13): the effective limit, gates, the budget share, clock modes and
the balance report that follows an outcome. -/

namespace Sys2Proof.Machine

/-- EFF_LIM (R359). -/
def Power.effLim (p : Power) : Nat :=
  let m := min p.trayCeil p.hostLim
  if p.balEn then min m p.balShare else m

/-! ## Gates (R361, R362) -/

/-- Keys of the gates: compute dies, stacks, ports. -/
def gateKeys : List Nat := List.range 8 ++ from_ 16 12 ++ from_ 32 6

/-- Domain of a gate: 0 COMPUTE, 1 MEMORY, 2 LINK. -/
def gateDom (k : Nat) : Nat := if k < 16 then 0 else if k < 32 then 1 else 2

def Gate.full : Gate := { pwr := 64, thm := 64, eff := 64 }

def Power.gate (p : Power) (k : Nat) : Gate := tget Gate.full p.gates k

/-- The gates that die index `i` throttles (R375). -/
def throttled (i : Nat) : List Nat :=
  if i < 8 then [i]
  else if i < 12 then [2 * (i - 8), 2 * (i - 8) + 1] ++ from_ (16 + 3 * (i - 8)) 3
  else if i = 12 then gateKeys
  else if i < 19 then [32 + (i - 13)]
  else [16 + (i - 19)]

/-- The thermal level of a gate: the smallest of the dies that throttle it (R375). -/
def Power.thmOf (p : Power) (k : Nat) : Nat := ((p.thm.filter fun e => (throttled e.1).contains k).map (·.2)).foldl min 64

/-- The ceiling on L of the P-state (Table 13-2). -/
def pstateCeil (n : Nat) : Nat :=
  match n with
  | 4 => 56
  | 5 => 48
  | 6 => 40
  | 7 => 16
  | _ => 64

/-- Core clock of a P-state in 10 MHz (Table 13-2). -/
def pstateClk (n : Nat) : Nat :=
  match n with
  | 0 => 210
  | 1 => 195
  | 2 => 180
  | 3 => 165
  | 4 => 150
  | 5 => 135
  | _ => 120

/-- The power level of a gate under the P-state's ceiling. -/
def Power.ceilOf (p : Power) (k l : Nat) : Nat := if p.mode = 2 ∧ gateDom k = 0 then min l (pstateCeil p.pstate) else l

/-- Levels in effect: the smallest of power level, thermal level (none in FIXED mode, R375) and 0 during a stop, a trip
or a fatal state; FFHELD ends with the first level below 64 (R366). -/
def Power.settle (p : Power) (dead : Bool) : Power :=
  let lvl := fun (g : Gate) (k : Nat) =>
    if dead || p.coolStop || p.trip then 0 else min (p.ceilOf k g.pwr) (if p.mode = 0 then 64 else g.thm)
  let gs := gateKeys.map fun k =>
    let g : Gate := { p.gate k with thm := p.thmOf k }
    (k, { g with eff := lvl g k })
  { p with gates := gs, ffheld := p.ffheld && decide (p.effLim ≥ 1505) && gs.all fun g => g.2.eff == 64 }

/-- Every gate takes its level in effect; 0 too from step 3 of an orderly shutdown and step 2 of the power-fail sequence
(Tables 15-4, 15-9). -/
def State.settleGates (s : State) : State :=
  s.updPower (·.settle (s.flt.fatal || decide (s.mod.sdStep ≥ 3) || decide (s.mod.pf ≥ 1)))

/-! ## The budget share (R363) -/

/-- Domains in the order of PRIO (Table 13-8). -/
def Power.order (p : Power) : List Nat := [p.prio / 16 % 4, p.prio / 4 % 4, p.prio % 4]

/-- The learned demand of a domain in a phase, in 1/8 W; full while none is learned (R364). -/
def Power.demandOf (p : Power) (phase d : Nat) : Nat :=
  let c := tget (0, 0) p.coef d
  tget (8 * (c.1 + c.2)) p.demand (8 * phase + d)

/-- Smallest whole number at or above a quotient. -/
def ceilDiv (a b : Int) : Int := -((-a) / b)

/-- The levels of the domains in order; powers in 1/6400 W. -/
def Power.alloc (p : Power) (phase : Nat) : Int → List Nat → List (Nat × Nat)
  | _, [] => []
  | budget, d :: rest =>
    let c := fun (e : Nat) => tget (0, 0) p.coef e
    let stat : Int := 6400 * (c d).1
    let dyn : Int := (c d).2
    let later : Int := (rest.map fun e => (6400 * (c e).1 + 100 * (c e).2 * p.minl : Int)).sum
    let want := min ((800 * p.demandOf phase d : Nat) : Int) (budget - later)
    let raw : Int :=
      if want ≥ stat + 6400 * dyn ∨ dyn = 0 then 64
      else if !rest.isEmpty then ceilDiv (64 * (want - stat)) (6400 * dyn)
      else (64 * (budget - stat)) / (6400 * dyn)
    let l := (max (p.minl : Int) (min raw 64)).toNat
    (d, l) :: p.alloc phase (budget - (stat + 100 * dyn * l)) rest

/-- Power levels from the coefficients and demand: 64 everywhere in FIXED mode at 1,505 W and above (R27, R365, R366) [102], 0 while
the fast path of R358 holds. -/
def Power.share (p : Power) (phase : Nat) : Power :=
  let ls := if p.mode = 0 ∧ p.effLim ≥ 1505 then [(0, 64), (1, 64), (2, 64)]
    else if p.fast then [(0, 0), (1, 0), (2, 0)]
    else p.alloc phase (((p.effLim : Int) * 92 - (p.pbase : Int) * 100) * 64) p.order
  let at_ := fun (k : Nat) => ((ls.find? fun x => x.1 == gateDom k).map (·.2)).getD 64
  { p with gates := gateKeys.map fun k => (k, { p.gate k with pwr := at_ k }) }

/-- The budget is shared again and the gates follow. -/
def State.shareBudget (s : State) : State := (s.updPower (·.share s.train.phase)).settleGates

/-- What the ended phase drew is taken into its demand, with weight 1/8 (R364). -/
def Power.learn (p : Power) (phase : Nat) : Power :=
  let one := fun (q : Power) (d : Nat) =>
    let o := tget (0, 0) q.occ d
    if o.2 = 0 then q
    else
      let old := q.demandOf phase d
      { q with demand := tput q.demand (8 * phase + d) (old - old / 8 + o.1 / o.2 / 8) }
  { [0, 1, 2].foldl one p with occ := [] }

/-- A phase change: the demand of the phase that ends is learned, and the new phase's is applied at once (R364). -/
def State.setPhase (s : State) (n : Nat) : State :=
  if s.train.phase = n then s
  else ((s.updPower (·.learn s.train.phase)).updTrain fun t => { t with phase := n }).shareBudget

/-- EFF_LIM may have changed: event 0x0006 where it has, and the budget is shared again (R359, R366). -/
def State.limitChanged (s : State) (old : Nat) : State :=
  if s.power.effLim = old then s else (s.postDev 0x0006 0#32 0#32 0#32).shareBudget

/-! ## Clock modes (R365 to R367) -/

/-- A mode change takes effect: MODE, FSET or P-state, and the clock, capped at FMAX; FIXED asked for before FMAX fell below 1.80 GHz is
CAPPED at FMAX (R370). FFHELD starts afresh in FIXED mode, and the gates that settle next keep it or end it [165]. -/
def Power.setMode (p : Power) (x : Nat × Nat × Nat) : Power :=
  let m := if x.1 = 0 ∧ p.fmax < 180 then 1 else x.1
  let f := min (if x.1 = 0 then 180 else x.2.1) p.fmax
  let clk := if m = 0 then 180 else if m = 1 then f else min (pstateClk x.2.2) p.fmax
  { p with mode := m, fset := if m = 1 then f else p.fset, pstate := if m = 2 then x.2.2 else 0, fcur := clk,
           ffheld := m == 0, next := none }

/-- The pending change is applied. -/
def State.applyMode (s : State) : State :=
  match s.power.next with
  | none => s
  | some x => (s.updPower (·.setMode x)).shareBudget

/-- A job that runs attempts; otherwise a change that waits for an attempt boundary acts at once (R365, R448). -/
def State.attempts (s : State) : Bool := s.train.js == .run && s.train.train

/-- A mode change is asked for. -/
def State.askMode (s : State) (x : Nat × Nat × Nat) : State :=
  let s := s.updPower fun p => { p with next := some x }
  if s.attempts then s else s.applyMode

/-! ## Balancing (R371, R372) -/

/-- Slots of the rack's devices in the job, from LOG2PHYS. -/
def State.rackSlots (s : State) : List Nat :=
  (s.fab.l2p.filter fun e => e.2 / 128 == s.fab.phys / 128).foldl (fun a e => setIns a (e.2 % 128)) []

/-- The leader's slot: the lowest of the members [31]. -/
def State.leaderSlot (s : State) : Nat := s.rackSlots.headD (s.fab.phys % 128)

/-- A balance message (Table 13-3) to a slot of the rack. -/
def State.sendBalance (s : State) (slot kind vseq slack avg share : Nat) : State :=
  s.inject (s.fab.phys / 128 * 128 + slot) 0x20 10 3 1#8 0 0
    ([BitVec.ofNat 8 kind, 0#8, 0#8, 0#8] ++ natLe vseq 4 ++ natLe slack 4 ++ natLe avg 2 ++ natLe share 2)

/-- A report joins those of its VSEQ; a report of a new VSEQ starts a new list. -/
def Power.addReport (p : Power) (vseq : Nat) (r : BalRep) : Power :=
  if p.repVseq = vseq then { p with reps := p.reps.filter (fun x => x.slot != r.slot) ++ [r] }
  else { p with repVseq := vseq, reps := [r], ranked := false }

/-- After an outcome every member reports its slack to the leader (R372); the leader keeps its own report. -/
def State.balanceReport (s : State) : State :=
  if !s.power.balEn then s
  else
    let v := s.train.vseq.toNat
    let slack := min (s.now - s.train.voteAt) (2 ^ 23 - 1)
    let s := s.updPower fun p => { p with slack := slack, leader := s.leaderSlot == s.fab.phys % 128, members := s.rackSlots.length }
    if s.power.leader then
      s.updPower fun p => p.addReport v { slot := s.fab.phys % 128, slack := slack, avg := p.avg1s, share := p.balShare, ceil_ := p.trayCeil }
    else s.sendBalance s.leaderSlot 1 v slack s.power.avg1s s.power.balShare

end Sys2Proof.Machine
end

