-- ==== Sys2Proof/Machine/Registers.lean ====
section
/-! DEFINITION. The registers of BAR0 (16 R435 to R440): the word that each offset reads, block by block, and the fields
that a read clears. Space that no register table defines reads 0. -/

namespace Sys2Proof.Machine

/-- Field of `n` bits at bit `lo`. -/
def fldAt (lo n v : Nat) : Nat := (v % 2 ^ n) * 2 ^ lo

/-- A word from the sum of its fields. -/
def wordOf (l : List Nat) : W32 := BitVec.ofNat 32 l.sum

/-- Word 0 or 1 of a 64-bit quantity. -/
def half (x : Nat) (hi : Bool) : W32 := BitVec.ofNat 32 (if hi then x / 2 ^ 32 else x)

/-- Table 16-2: the header word at offset `o` of block `code`. -/
def headerWord (code o : Nat) : W32 :=
  match o with
  | 0 => BitVec.ofNat 32 (2 * 2 ^ 28 + code)
  | 4 => 0x200#32
  | _ => 0#32

/-! ## IDN_ (Table 16-3) -/

/-- Firmware has been verified: step 3 of Table 15-7. -/
def State.fwUp (s : State) : Bool := decide (s.mod.step ≥ 3)

def State.idnWord (s : State) (o : Nat) : W32 :=
  match o with
  | 0x100 => 0x0F02#16 ++ Config.vendorId
  | 0x104 => wordOf [fldAt 28 4 2, fldAt 24 4 Config.stepping.toNat]
  | 0x108 => 0x02000103#32
  | 0x10C => if s.fwUp then s.mod.fwver else 0#32
  | 0x110 => Config.serial 0
  | 0x114 => Config.serial 1
  | 0x118 => 0x0F02#16 ++ (Config.serial 0).setWidth 16
  | 0x11C => wordOf [fldAt 1 15 Config.mipiId.toNat]
  | 0x120 => wordOf [fldAt 27 5 16, fldAt 22 5 15, fldAt 17 5 13, fldAt 13 4 4]
  | 0x124 => 0x1F#32
  | 0x128 => 0x800003FF#32
  | 0x12C => wordOf [fldAt 20 12 512, fldAt 15 5 12, fldAt 12 3 6, fldAt 0 12 576]
  | _ => headerWord 1 o

/-- IDN_ offsets 0x000 to 0xFFF, as DEV_INFO copies them. -/
def State.idnBytes (s : State) : List Byte := (List.range 1024).flatMap fun i => wordBytes (s.idnWord (4 * i))

/-! ## SES_ and QUE_ (Tables 12-5, 12-11) -/

/-- ACT: the admin queues are enabled, or a fetched admin command has not posted its records (R357). -/
def State.aqAct (s : State) : Bool :=
  s.host.aqEn || s.host.fetched.any (·.q == 0) || s.host.longs.any (·.q == 0) || s.host.recs.any fun r => r.2.sq == 0

def State.aqCfg (s : State) : W32 :=
  wordOf [fldAt 31 1 (b2n s.host.aqEn), fldAt 30 1 (b2n s.aqAct), fldAt 25 5 s.host.sqlog2, fldAt 20 5 s.host.cqlog2, fldAt 0 11 s.host.aqVec]

/-- Host sessions open. -/
def State.nses (s : State) : Nat := (s.host.sess.filter (·.1 != 0)).length

def State.sesWord (s : State) (o : Nat) : W32 :=
  match o with
  | 0x100 => wordOf [fldAt 31 1 (b2n s.host.ready), fldAt 28 3 s.host.phase, fldAt 22 6 s.nses, fldAt 8 4 s.host.speed, fldAt 0 8 s.host.width]
  | 0x110 => half s.host.sqb.toNat false
  | 0x114 => half s.host.sqb.toNat true
  | 0x118 => half s.host.cqb.toNat false
  | 0x11C => half s.host.cqb.toNat true
  | 0x120 => s.aqCfg
  | 0x130 => half s.host.b4base false
  | 0x134 => half s.host.b4base true
  | 0x140 => wordOf [fldAt 16 16 s.host.ties]
  | _ => if 0x10000 ≤ o ∧ o < 0x18100 then tget 0#32 s.host.msix (0x10000 + o) else headerWord 2 o

/-- TYPEDEP (Table 12-5). -/
def QEnt.typeDep (e : QEnt) : W32 :=
  match e.typ with
  | 2 => wordOf [fldAt 21 11 e.vec, fldAt 20 1 (b2n e.arm), fldAt 19 1 (b2n e.phase),
      fldAt 18 1 (b2n ((e.tail + 2 ^ e.log2n - e.head) % 2 ^ e.log2n + 1 == 2 ^ e.log2n)), fldAt 10 8 e.cnt, fldAt 0 10 e.tmr]
  | 3 => wordOf [fldAt 23 9 e.core, fldAt 21 2 e.slot]
  | 5 => wordOf [fldAt 19 13 e.batch]
  | 6 => wordOf [fldAt 29 3 e.eng]
  | _ => 0#32

/-- Word `i` of a queue-table entry. -/
def QEnt.word (e : QEnt) (i : Nat) : W32 :=
  match i with
  | 0 => wordOf [fldAt 29 3 e.typ, fldAt 26 3 e.st, fldAt 24 2 e.loc, fldAt 19 5 e.log2n, fldAt 13 6 e.sid, fldAt 0 13 e.bindq]
  | 1 => wordOf [fldAt 20 12 e.part, fldAt 19 1 (b2n e.bnone), fldAt 12 1 (b2n e.dbc), fldAt 0 12 e.dbctr]
  | 2 => half e.base false
  | 3 => half e.base true
  | 4 => wordOf [fldAt 16 16 e.head, fldAt 0 16 e.tail]
  | 5 => e.typeDep
  | 6 => wordOf [fldAt 16 16 e.dberr]
  | _ => 0#32

def State.queWord (s : State) (o : Nat) : W32 :=
  if o < 0x80000 then (s.que (o / 64)).word (o % 64 / 4) else headerWord 3 (o - 0x80000)

/-! ## FLT_ (Tables 14-9 to 14-11) -/

/-- FLT_STAT. -/
def State.fltStat (s : State) : W32 :=
  let f := s.flt
  wordOf [fldAt 30 2 s.dstate, fldAt 28 2 ((f.active.map (·.cls)).getD 0), fldAt 27 1 (b2n f.faultN), fldAt 26 1 (b2n f.covf),
    fldAt 25 1 (b2n f.ledgFull), fldAt 24 1 (b2n f.pwrCyc), fldAt 8 8 f.pendCont.length, fldAt 0 8 f.pendCe.length]

def State.fltWord (s : State) (o : Nat) : W32 :=
  let first := s.flt.first
  if o = 0x100 then s.fltStat
  else if 0x110 ≤ o ∧ o < 0x128 then
    match (o - 0x110) / 4 with
    | 0 => wordOf [fldAt 31 1 (b2n first.valid), fldAt 30 1 (b2n first.ovf)]
    | 1 => first.rec_
    | 2 => half first.info false
    | 3 => BitVec.ofNat 32 (first.info / 2 ^ 32 % 65536)
    | 4 => half first.time false
    | _ => half first.time true
  else if 0x1000 ≤ o ∧ o < 0x1000 + 0x20 * 31 then
    let i := (o - 0x1000) / 32
    let l := tget Latch.empty s.flt.dies i
    match o % 32 / 4 with
    | 0 => wordOf [fldAt 31 1 (b2n l.valid), fldAt 30 1 (b2n l.ovf), fldAt 28 2 (s.dieHealth i)]
    | 1 => l.rec_
    | 2 => half l.info false
    | 3 => BitVec.ofNat 32 (l.info / 2 ^ 32 % 65536)
    | 4 => BitVec.ofNat 32 l.ce
    | 5 => wordOf [fldAt 0 16 l.cont]
    | 6 => half l.time false
    | _ => 0#32
  else if 0x2000 ≤ o ∧ o < 0x2080 then
    let w := s.win ((o - 0x2000) / 8)
    if o % 8 = 0 then wordOf [fldAt 0 16 w.1] else BitVec.ofNat 32 w.2
  else if 0x10000 ≤ o ∧ o < 0x20000 then bytesWord (cellRange s.host.fbuf (o - 0x10000) 4)
  else headerWord 4 o

/-! ## PWR_ (Tables 13-7 to 13-9, 15-13) -/

/-- Class of a die index: 0 silicon, 1 memory, 2 optical (Table 13-4). -/
def thermClass (i : Nat) : Nat := if i < 13 then 0 else if i < 19 then 2 else 1

/-- Alert, throttle and trip thresholds of a die index (Table 13-4), with the offsets of THERM_LIMIT (R374). -/
def Power.thrOf (p : Power) (i : Nat) : Nat × Nat × Nat :=
  match thermClass i with
  | 0 => (95 - p.silOfs, 105 - p.silOfs, 115)
  | 1 => (85 - p.memOfs, 95 - p.memOfs, 105)
  | _ => (80 - p.optOfs, 90 - p.optOfs, 100)

/-- STATE of PWR_STAT: the highest that holds (DEDUCED from the codes' order). -/
def Power.stateCode (p : Power) : Nat :=
  if p.trip then 4 else if p.coolStop then 3
  else if p.mode ≠ 0 ∧ gateKeys.any (fun k => (p.gate k).thm < 64) then 2
  else if gateKeys.any (fun k => (p.gate k).pwr < 64) then 1 else 0

def Gate.word (g : Gate) : W32 := wordOf [fldAt 25 7 g.pwr, fldAt 18 7 g.thm, fldAt 11 7 g.eff]

def State.pwrWord (s : State) (o : Nat) : W32 :=
  let p := s.power
  let m := s.mod
  match o with
  | 0x100 => wordOf [fldAt 29 3 p.stateCode, fldAt 27 2 p.mode, fldAt 26 1 (b2n p.ffcap), fldAt 25 1 (b2n p.ffheld), fldAt 24 1 (b2n p.alert),
      fldAt 23 1 (b2n p.coolOk), fldAt 22 1 (b2n p.exitOk), fldAt 19 3 p.pstate]
  | 0x104 => wordOf [fldAt 16 16 p.trayCeil, fldAt 0 16 p.hostLim]
  | 0x108 => wordOf [fldAt 16 16 p.effLim, fldAt 0 16 (if p.balEn then p.balShare else 0)]
  | 0x10C => wordOf [fldAt 16 16 p.avg1s, fldAt 0 16 p.peak]
  | 0x110 => wordOf [fldAt 20 10 p.cpw, fldAt 10 10 p.memw, fldAt 0 10 p.lnkw]
  | 0x114 => wordOf [fldAt 24 8 p.fset, fldAt 16 8 p.fcur, fldAt 8 8 p.fmax]
  | 0x118 => wordOf [fldAt 8 6 p.minl, fldAt 0 6 p.prio]
  | 0x120 => wordOf [fldAt 16 16 p.droop, fldAt 8 8 p.glitch, fldAt 0 8 p.excur]
  | 0x124 => wordOf [fldAt 16 8 p.optOfs, fldAt 8 8 p.memOfs, fldAt 0 8 p.silOfs]
  | 0x130 => wordOf [fldAt 31 1 (b2n p.balEn), fldAt 30 1 (b2n p.leader), fldAt 23 7 p.members, fldAt 0 23 p.slack]
  | 0x134 => BitVec.ofNat 32 p.g
  | 0x400 => wordOf [fldAt 16 16 m.vin, fldAt 0 16 m.iin]
  | 0x404 => wordOf [fldAt 29 3 m.hs, fldAt 27 2 m.lastTrip, fldAt 25 2 m.retries]
  | 0x408 => wordOf [fldAt 29 3 m.ss, fldAt 16 8 m.cap, fldAt 0 16 m.euse]
  | 0x40C => wordOf [fldAt 31 1 (b2n m.safe), fldAt 30 1 (b2n m.shut), fldAt 29 1 (b2n m.quiesce), fldAt 28 1 (b2n m.latch),
      fldAt 27 1 (b2n m.locate), fldAt 26 1 (b2n m.nodebad), fldAt 0 8 m.btn]
  | 0x410 => wordOf [fldAt 31 1 m.bank, fldAt 30 1 (b2n m.pend), fldAt 24 6 m.svnFuse, fldAt 18 6 m.svn, fldAt 16 2 m.failBoot]
  | 0x414 => wordOf [fldAt 30 2 m.lastFl, fldAt 8 8 m.flDone, fldAt 0 8 m.flPlan]
  | _ =>
    if 0x200 ≤ o ∧ o < 0x220 then (p.gate ((o - 0x200) / 4)).word
    else if 0x240 ≤ o ∧ o < 0x270 then (p.gate (16 + (o - 0x240) / 4)).word
    else if 0x280 ≤ o ∧ o < 0x298 then (p.gate (32 + (o - 0x280) / 4)).word
    else if 0x300 ≤ o ∧ o < 0x37C then
      let i := (o - 0x300) / 4
      wordOf [fldAt 24 8 (tget 0 p.tj i), fldAt 16 8 (tget 0 p.tjmax i), fldAt 8 8 (p.thrOf i).2.1, fldAt 0 8 (p.thrOf i).1]
    else if 0x380 ≤ o ∧ o < 0x3B0 then
      let j := (o - 0x380) / 4
      wordOf [fldAt 24 8 (twos (tget 0 p.vtrim j) 8), fldAt 16 8 (tget 0 p.dfmax j), fldAt 8 8 (tget 0 p.margin j), fldAt 0 8 (tget 0 p.ddroop j)]
    else headerWord 5 o

/-! ## HBM_ and FLR_ (Tables 5-6 to 5-8, 6-5 to 6-9) -/

/-- Units in flight under region entry `n`, saturating. -/
def State.inflight (s : State) (n : Nat) : Nat :=
  min 65535 ((s.hbm.waitq ++ s.hbm.offer ++ s.hbm.pcq.map (·.2)).filter fun u => u.rgn == n).length

/-- Word `i` of a region entry. -/
def Region.word (e : Region) (inflight i : Nat) : W32 :=
  match i with
  | 0 => wordOf [fldAt 31 1 (b2n e.valid), fldAt 29 2 e.map, fldAt 25 4 e.sel, fldAt 20 5 e.chan, fldAt 0 12 e.part]
  | 1 => wordOf [fldAt 16 15 e.size, fldAt 0 14 e.base]
  | 2 => wordOf [fldAt 0 12 e.soff]
  | _ => wordOf [fldAt 0 16 inflight]

def State.hbmWord (s : State) (o : Nat) : W32 :=
  if 0x100 ≤ o ∧ o < 0x130 then
    let k := s.stack ((o - 0x100) / 4)
    wordOf [fldAt 30 2 k.st, fldAt 28 2 k.rate, fldAt 27 1 (b2n k.slice), fldAt 26 1 (b2n k.scrub), fldAt 25 1 (b2n k.hot), fldAt 8 8 k.temp, fldAt 0 8 k.ppr]
  else if 0x200 ≤ o ∧ o < 0x260 then
    let k := s.stack ((o - 0x200) / 8)
    if o % 8 = 0 then wordOf [fldAt 16 16 k.ce, fldAt 0 16 k.ue] else k.errloc
  else if 0x400 ≤ o ∧ o < 0x480 then
    let n := (o - 0x400) / 8
    let g := (s.regFill n (s.now * 1250)).grp n
    if o % 8 = 0 then wordOf [fldAt 16 16 g.rate, fldAt 0 16 g.depth]
    else wordOf [fldAt 31 1 (b2n g.borrow), fldAt 30 1 (b2n (s.rgWaits n (s.now * 1250))), fldAt 0 24 g.stall]
  else if 0x1000 ≤ o ∧ o < 0x1400 then
    let n := (o - 0x1000) / 16
    (s.rgn n).word (s.inflight n) (o % 16 / 4)
  else headerWord 6 o

def State.flrWord (s : State) (o : Nat) : W32 :=
  if 0x100 ≤ o ∧ o < 0x140 then
    let t := s.terr ((o - 0x100) / 16)
    if o % 16 = 0 then wordOf [fldAt 16 16 t.ce, fldAt 8 8 t.ue, fldAt 2 1 (b2n t.scrub), fldAt 1 1 (b2n t.bist), fldAt 0 1 (b2n t.ready)] else 0#32
  else if 0x1000 ≤ o ∧ o < 0x1800 then
    let b := s.bond ((o - 0x1000) / 4)
    wordOf [fldAt 31 1 (b2n b.unrep), fldAt 22 9 b.spared, fldAt 13 9 b.lastGrp, fldAt 8 5 b.lastLane, fldAt 0 8 b.laneEvt]
  else if 0x2000 ≤ o ∧ o < 0x2800 then tget 0#32 s.floor.retbank ((o - 0x2000) / 4)
  else headerWord 7 o

/-! ## COR_ (Tables 3-9, 3-10, 4-14 to 4-17) -/

def runCode : RunState → Nat
  | .idle => 0
  | .run => 1
  | .stopped => 2
  | .test => 3

/-- COR_CORE_STAT; `empty` says that every queue of the core is empty. -/
def Cor.statWord (k : Cor) (dlb empty : Bool) : W32 :=
  wordOf [fldAt 30 2 (runCode k.st), fldAt 29 1 (b2n k.tpend), fldAt 28 1 (b2n k.retired), fldAt 27 1 (b2n dlb), fldAt 26 1 (b2n k.waiting),
    fldAt 25 1 (b2n (k.idleq && empty)), fldAt 11 11 k.pc]

/-- COR_EXC. -/
def Cor.excWord (k : Cor) : W32 := wordOf [fldAt 24 8 k.excCause, fldAt 22 2 k.excSlot, fldAt 0 11 k.excPc]

/-- Bit `a` of a mask over the arrays. -/
def arrMask (p : Nat → Bool) : Nat := b2n (p 0) + 2 * b2n (p 1) + 4 * b2n (p 2) + 8 * b2n (p 3)

/-- COR_MAT_STAT. -/
def Cor.matStat (k : Cor) : W32 :=
  wordOf [fldAt 24 8 k.lastErr.toNat, fldAt 20 4 (arrMask fun a => !(k.arr a).accSp.isEmpty),
    fldAt 16 4 (arrMask fun a => (((k.arr a).mma.map (·.emit)).getD false) && (k.arr a).ringFree == 0),
    fldAt 12 4 (arrMask fun a => !(k.arr a).drains.isEmpty), fldAt 8 4 (arrMask fun a => !(k.arr a).mmas.isEmpty),
    fldAt 0 4 (arrMask fun a => k.flds.any fun o => nbit (fldMask o.raw) a)]

/-- COR_MAT_FLAGS; bits [7:6] of each byte read 0. -/
def Cor.matFlags (k : Cor) : W32 :=
  wordOf [fldAt 0 6 k.arr0.flags.toNat, fldAt 8 6 k.arr1.flags.toNat, fldAt 16 6 k.arr2.flags.toNat, fldAt 24 6 k.arr3.flags.toNat]

/-- Dynamic load balancing is active (R117). -/
def State.dlbOn (s : State) : Bool :=
  match s.host.job with
  | some j => j.dlb && j.detmode == 0
  | none => false

def State.corWord (s : State) (o : Nat) : W32 :=
  let k := s.core (o / 4096)
  match o % 4096 with
  | 0x020 => k.statWord s.dlbOn (s.headQueue (o / 4096)).isNone
  | 0x024 => k.excWord
  | 0x028 => wordOf [fldAt 0 6 k.vflags.toNat]
  | 0x02C => k.waitLimit
  | 0x100 => k.matStat
  | 0x104 => k.matFlags
  | x => headerWord 8 x

/-! ## FAB_ and PAS_ (Tables 7-9 to 7-13, 8-6, 8-14 to 8-17) -/

def lidCode : LidState → Nat
  | .down => 0
  | .training => 1
  | .up => 2
  | .draining => 3
  | .fenced => 4

/-- DIRTAB of the set that epoch `e` holds: the current, the retiring or the shadow set. -/
def State.dirOf (s : State) (e i : Nat) : Nat :=
  let t := match s.setOf e with
    | some t => some t
    | none => if s.fab.shadowEp = e then s.fab.shadow else none
  match t with
  | some t => (tget 0#16 t.dir i).toNat
  | none => 0

def State.fabWord (s : State) (o : Nat) : W32 :=
  let f := s.fab
  if o = 0x100 then
    wordOf [fldAt 30 2 f.curEp, fldAt 29 1 (b2n f.old.isSome), fldAt 27 2 (if f.old.isSome then f.oldEp else 0), fldAt 26 1 (b2n f.shadow.isSome),
      fldAt 24 2 (if f.shadow.isSome then f.shadowEp else 0), fldAt 0 12 f.part]
  else if o = 0x104 then wordOf [fldAt 16 16 f.phys, fldAt 0 15 f.lnode]
  else if 0x1000 ≤ o ∧ o < 0x1600 then
    let k := s.lid ((o - 0x1000) / 16)
    let e := s.linkEnt ((o - 0x1000) / 16)
    match o % 16 / 4 with
    | 0 => wordOf [fldAt 29 3 (lidCode k.st), fldAt 26 3 ((e.map (·.port)).getD 0), fldAt 0 17 k.wmask.toNat]
    | 1 => wordOf [fldAt 16 16 ((e.map (·.peer)).getD 0xFFFF), fldAt 0 12 ((e.map (·.part)).getD 0)]
    | 2 => wordOf [fldAt 16 16 k.rtt]
    | _ => 0#32
  else if 0x2000 ≤ o ∧ o < 0x2300 then half (s.lid ((o - 0x2000) / 8)).vcw.toNat (o % 8 == 4)
  else if 0x3000 ≤ o ∧ o < 0x3300 then
    let k := s.lid ((o - 0x3000) / 8)
    if o % 8 = 0 then wordOf [fldAt 16 16 k.crcErr, fldAt 8 8 k.replayCnt, fldAt 0 8 k.fmtErr]
    else wordOf [fldAt 16 16 k.fenceDrop, fldAt 8 8 k.epochDrop, fldAt 0 8 k.routeErr]
  else if 0x4000 ≤ o ∧ o < 0x4040 then
    let e := (o - 0x4000) / 16
    half (if o % 16 < 8 then tget 0 f.inj e else tget 0 f.dlv e) (o % 8 == 4)
  else if 0x5000 ≤ o ∧ o < 0x5400 then
    let i := o % 256 / 2
    if o % 256 < 192 then BitVec.ofNat 32 (s.dirOf ((o - 0x5000) / 256) i + 65536 * s.dirOf ((o - 0x5000) / 256) (i + 1)) else 0#32
  else headerWord 9 o

def ringCode : Ring → Nat
  | .parked => 0
  | .search => 1
  | .cal => 2
  | .drop => 3
  | .block => 4
  | .add => 5
  | .failed => 6

def portCode : PState → Nat
  | .dark => 0
  | .search => 1
  | .ready => 2
  | .soak => 3
  | .apr => 4
  | .failed => 5

/-- A mask over the physical lines of a port. -/
def State.lineMask (s : State) (p : Nat) (f : Line → Bool) : Nat := ((List.range 17).map fun w => b2n (f (s.line p w)) * 2 ^ w).sum

/-- Rings of the line in DROP, BLOCK or ADD. -/
def Line.locked (x : Line) : Bool := x.rxr == .drop || x.rxr == .block || x.txr == .add || x.txr == .block

def State.portWord (s : State) (p i : Nat) : W32 :=
  let x := s.port p
  match i with
  | 0 => wordOf [fldAt 29 3 (portCode x.st), fldAt 28 1 (b2n x.degr), fldAt 0 17 (s.lineMask p Line.locked)]
  | 1 => wordOf [fldAt 16 16 (twos x.rxtot 16), fldAt 0 16 (twos x.txtot 16)]
  | 2 => wordOf [fldAt 16 16 (twos x.span 16), fldAt 0 16 x.ret]
  | 3 => wordOf [fldAt 24 8 x.retire, fldAt 22 2 x.telem, fldAt 0 17 (s.lineMask p (·.failed))]
  | _ => 0#32

/-- PAS_MAP_p word `k`. -/
def Port.mapWord (x : Port) (k : Nat) : W32 :=
  wordOf ((List.range (if k = 2 then 5 else 6)).map fun i => fldAt (5 * i) 5 (x.phys (6 * k + i)))

def Line.word (x : Line) (i : Nat) : W32 :=
  if i = 0 then wordOf [fldAt 29 3 (ringCode x.rxr), fldAt 26 3 (ringCode x.txr), fldAt 23 1 (b2n x.foreign_), fldAt 16 7 x.heat, fldAt 0 16 (twos x.rxpwr 16)]
  else wordOf [fldAt 16 16 x.cwcorr, fldAt 8 8 x.cwunc, fldAt 0 8 x.lockloss]

def State.pasWord (s : State) (o : Nat) : W32 :=
  let l := s.light
  if o = 0x100 then wordOf [fldAt 29 3 l.passEp, fldAt 26 3 l.actSet, fldAt 23 3 l.pendSet, fldAt 22 1 (b2n l.swPend), fldAt 0 8 l.valid.toNat]
  else if o = 0x104 then wordOf ((List.range 8).map fun n => fldAt (3 * n) 3 (tget 0 l.ver n))
  else if o = 0x108 then wordOf [fldAt 0 16 l.rotInt]
  else if o = 0x110 then wordOf [fldAt 31 1 l.sel, fldAt 29 2 l.aSt, fldAt 27 2 l.bSt, fldAt 8 8 l.swCnt]
  else if 0x200 ≤ o ∧ o < 0x244 then
    let i := (o - 0x200) / 4
    wordOf [fldAt 16 16 (twos (tget (-32768) l.aPwr i) 16), fldAt 0 16 (twos (tget (-32768) l.bPwr i) 16)]
  else if 0x1000 ≤ o ∧ o < 0x1600 then
    let p := (o - 0x1000) / 256
    if o % 256 < 0x10 then s.portWord p (o % 256 / 4)
    else if 0x20 ≤ o % 256 ∧ o % 256 < 0x2C then (s.port p).mapWord ((o % 256 - 0x20) / 4)
    else 0#32
  else if 0x2000 ≤ o ∧ o < 0x2600 then
    if o % 256 < 0x88 then (s.line ((o - 0x2000) / 256) (o % 256 / 8)).word (o % 8 / 4) else 0#32
  else if 0x4000 ≤ o ∧ o < 0x6000 then
    let n := (o - 0x4000) / 0x400
    let p := o % 0x400 / 0x80
    let i := o % 0x80 / 4
    if p < 6 ∧ i < 17 then s.passEnt n p i else 0#32
  else headerWord 10 o

/-! ## COL_, TRN_ and DBG_ (Tables 9-6, 9-9 to 9-11, 10-17 to 10-20, 11-7, 11-8) -/

/-- The words of a plan entry (Table 9-6). -/
def TreeEnt.words (e : TreeEnt) : List W32 :=
  [wordOf [fldAt 31 1 (b2n e.valid), fldAt 24 7 e.parent, fldAt 17 7 e.child0, fldAt 10 7 e.child1, fldAt 7 3 e.pset, fldAt 0 7 e.depth],
   wordOf [fldAt 17 15 e.rank, fldAt 2 15 e.size],
   wordOf [fldAt 17 15 e.c0size, fldAt 6 11 e.slots],
   wordOf [fldAt 0 29 e.base]]

/-- STATE of an engine: STOPPED while one of its lists is stopped, else RUN while an entry is in progress (DEDUCED). -/
def State.engState (s : State) (e : Nat) : Nat :=
  if s.host.qs.any fun q => q.2.typ == 6 && q.2.eng == e && q.2.st == 4 then 2 else if (s.eng e).inprog > 0 then 1 else 0

def State.colWord (s : State) (o : Nat) : W32 :=
  let c := s.coll
  if 0x100 ≤ o ∧ o < 0x160 then
    let n := (o - 0x100) / 16
    let e := s.eng n
    match o % 16 with
    | 0 => wordOf [fldAt 30 2 (s.engState n), fldAt 26 4 e.inprog, fldAt 0 6 e.flags.toNat]
    | 4 => wordOf [fldAt 24 8 e.aborts, fldAt 16 8 e.stale, fldAt 0 16 e.lastCid]
    | _ => 0#32
  else if o = 0x200 then c.vVseq
  else if o = 0x204 then
    wordOf [fldAt 31 1 (b2n c.vValid), fldAt 30 1 (b2n c.vCommit), fldAt 29 1 (b2n c.vOvf), fldAt 28 1 (b2n c.vAtmo), fldAt 27 1 (b2n c.vBtmo), fldAt 0 8 c.vDrop]
  else if o = 0x208 then c.vLat
  else if 0x1000 ≤ o ∧ o < 0x1400 then
    if o % 64 < 16 ∧ o % 256 < 128 then (tget TreeEnt.none c.plan (2 * ((o - 0x1000) / 256) + o % 256 / 64)).words.getD (o % 64 / 4) 0#32 else 0#32
  else if 0x100000 ≤ o ∧ o < 0x108000 then half (s.ctr ((o - 0x100000) / 8)).toNat (o % 8 == 4)
  else headerWord 11 o

/-- N_RAISE in effect. -/
def State.nRaise (s : State) : Nat := (s.host.job.map (·.nRaise)).getD 2000

def State.trnWord (s : State) (o : Nat) : W32 :=
  let t := s.train
  let r := t.repl
  match o with
  | 0x100 => s.trnStat
  | 0x104 => t.vseq
  | 0x108 => half t.step.toNat false
  | 0x10C => half t.step.toNat true
  | 0x110 => wordOf [fldAt 16 16 t.clean, fldAt 0 16 s.nRaise]
  | 0x114 => wordOf [fldAt 16 16 t.aborts, fldAt 8 8 t.ovfrun]
  | 0x120 => wordOf [fldAt 16 15 ((t.tab.map (·.mentee)).getD 0x7FFF), fldAt 0 15 ((t.tab.map (·.buddy)).getD 0x7FFF)]
  | 0x124 => BitVec.ofNat 32 t.head
  | 0x128 => BitVec.ofNat 32 t.tail
  | 0x12C => BitVec.ofNat 32 ((t.tab.map (·.logSize)).getD 0)
  | 0x130 => half t.sealStep.toNat false
  | 0x134 => half t.sealStep.toNat true
  | 0x138 => wordOf [fldAt 30 2 t.cstate]
  | 0x140 => wordOf [fldAt 29 3 r.st, fldAt 28 1 (b2n r.source), fldAt 0 15 r.lnode]
  | 0x144 => wordOf [fldAt 16 16 r.cdone, fldAt 0 16 r.ctotal]
  | 0x148 => BitVec.ofNat 32 r.rleft
  | _ => headerWord 12 o

def State.dbgWord (s : State) (o : Nat) : W32 :=
  let d := s.det
  match o with
  | 0x100 =>
    match s.host.job with
    | none => wordOf [fldAt 26 1 (b2n d.replay)]
    | some j => wordOf [fldAt 30 2 j.detmode, fldAt 28 2 j.rec_, fldAt 27 1 (b2n j.exportOn), fldAt 26 1 (b2n d.replay), fldAt 25 1 (b2n (j.dlb && j.detmode != 0))]
  | 0x104 => wordOf [fldAt 16 16 d.recs, fldAt 0 16 d.expPend]
  | 0x110 => wordOf [fldAt 31 1 (b2n d.mismatch), fldAt 30 1 (b2n d.diverge)]
  | 0x114 => BitVec.ofNat 32 d.morder
  | 0x118 => half d.dstep.toNat false
  | 0x11C => half d.dstep.toNat true
  | _ => headerWord 13 o

/-! ## BAR0 (Table 16-1) -/

/-- The block of a BAR0 offset: its code, and the block's base. -/
def blockOf (o : Nat) : Nat × Nat :=
  if o < 0x10000 then (1, 0) else if o < 0x100000 then (2, 0x10000) else if o < 0x200000 then (3, 0x100000)
  else if o < 0x300000 then (4, 0x200000) else if o < 0x400000 then (5, 0x300000) else if o < 0x500000 then (6, 0x400000)
  else if o < 0x600000 then (7, 0x500000) else if o < 0x800000 then (8, 0x600000) else if o < 0xA00000 then (9, 0x800000)
  else if o < 0xC00000 then (10, 0xA00000) else if o < 0xE00000 then (11, 0xC00000) else if o < 0x1000000 then (12, 0xE00000)
  else if o < 0x1800000 then (13, 0x1000000) else (0, 0x1800000)

/-- The word that BAR0 offset `o`, a multiple of 4, reads. -/
def State.regWord (s : State) (o : Nat) : W32 :=
  let b := blockOf o
  let x := o - b.2
  match b.1 with
  | 1 => s.idnWord x
  | 2 => s.sesWord x
  | 3 => s.queWord x
  | 4 => s.fltWord x
  | 5 => s.pwrWord x
  | 6 => s.hbmWord x
  | 7 => s.flrWord x
  | 8 => s.corWord x
  | 9 => s.fabWord x
  | 10 => s.pasWord x
  | 11 => s.colWord x
  | 12 => s.trnWord x
  | 13 => s.dbgWord x
  | _ => 0#32

/-- A read of the word clears its RC fields (R437). -/
def State.rcClear (s : State) (o : Nat) : State :=
  let b := blockOf o
  let x := o - b.2
  match b.1 with
  | 2 => if x = 0x140 then s.updHost fun h => { h with ties := 0 } else s
  | 3 => if x < 0x80000 ∧ x % 64 = 24 then s.updQue (x / 64) fun e => { e with dberr := 0 } else s
  | 4 =>
    if 0x1000 ≤ x ∧ x < 0x1000 + 0x20 * 31 then
      let i := (x - 0x1000) / 32
      if x % 32 = 16 then s.updFlt fun f => { f with dies := tupd Latch.empty f.dies i fun l => { l with ce := 0 } }
      else if x % 32 = 20 then s.updFlt fun f => { f with dies := tupd Latch.empty f.dies i fun l => { l with cont := 0 } }
      else s
    else s
  | 5 =>
    if x = 0x10C then s.updPower fun p => { p with peak := 0 }
    else if x = 0x120 then s.updPower fun p => { p with droop := 0, glitch := 0, excur := 0 }
    else if x = 0x40C then s.updMod fun m => { m with btn := 0 }
    else if 0x380 ≤ x ∧ x < 0x3B0 then s.updPower fun p => { p with ddroop := tput p.ddroop ((x - 0x380) / 4) 0 }
    else s
  | 6 =>
    if 0x200 ≤ x ∧ x < 0x260 ∧ x % 8 = 0 then s.updStack ((x - 0x200) / 8) fun k => { k with ce := 0, ue := 0 }
    else if 0x400 ≤ x ∧ x < 0x480 ∧ x % 8 = 4 then
      let n := (x - 0x400) / 8
      (s.regFill n (s.now * 1250)).updGrp n fun g => { g with stall := 0 }
    else s
  | 7 =>
    if 0x100 ≤ x ∧ x < 0x140 ∧ x % 16 = 0 then s.updTerr ((x - 0x100) / 16) fun t => { t with ce := 0, ue := 0 }
    else if 0x1000 ≤ x ∧ x < 0x1800 then s.updBond ((x - 0x1000) / 4) fun y => { y with laneEvt := 0 }
    else s
  | 8 => if x % 4096 = 0x100 then s.updCore (x / 4096) fun k => { k with lastErr := 0#8 } else s
  | 9 =>
    if 0x3000 ≤ x ∧ x < 0x3300 then
      s.updLid ((x - 0x3000) / 8) fun k =>
        if x % 8 = 0 then { k with crcErr := 0, replayCnt := 0, fmtErr := 0 } else { k with fenceDrop := 0, epochDrop := 0, routeErr := 0 }
    else s
  | 10 =>
    if x = 0x110 then s.updLight fun l => { l with swCnt := 0 }
    else if 0x1000 ≤ x ∧ x < 0x1600 ∧ x % 256 = 12 then s.updPort ((x - 0x1000) / 256) fun p => { p with retire := 0 }
    else if 0x2000 ≤ x ∧ x < 0x2600 ∧ x % 256 < 0x88 ∧ x % 8 = 4 then
      s.updLine ((x - 0x2000) / 256) (x % 256 / 8) fun y => { y with cwcorr := 0, cwunc := 0, lockloss := 0 }
    else s
  | 11 =>
    if 0x100 ≤ x ∧ x < 0x160 ∧ x % 16 = 4 then s.updEng ((x - 0x100) / 16) fun e => { e with aborts := 0, stale := 0 }
    else if x = 0x204 then s.updColl fun c => { c with vDrop := 0 }
    else s
  | 12 => if x = 0x114 then s.updTrain fun t => { t with aborts := 0 } else s
  | 13 => if x = 0x104 then s.updDet fun d => { d with recs := 0 } else s
  | _ => s

/-- Offsets 0x0000 to 0xFFFF of the FLT_ block, as FLT_READ copies them. -/
def State.fltBytes (s : State) : List Byte := (List.range 16384).flatMap fun i => wordBytes (s.fltWord (4 * i))

end Sys2Proof.Machine
end

