-- ==== Sys2Proof/Machine/Vector.lean ====
section
/-! DEFINITION. The vector slot (04 Tables 4-6 and 4-7, R101 to R104, R447): which bundles it makes illegal, which
registers it names, and what it writes. Every operation reads the core as it stands at issue (R98). -/

namespace Sys2Proof.Machine

/-- The fields of Table 4-6. -/
structure VF where
  op : Nat
  vd : Nat
  va : Nat
  vb : Nat
  vc : Nat
  pr : Nat
  pn : Nat
  ty : Nat
  cvt : Nat
  bs : Nat
  fa : Nat
  fb : Nat
  xa : Nat
  sel : Nat
  rsv : Nat
  deriving DecidableEq, Repr

def vfOf (w : W64) : VF :=
  { op := sf w 63 58, vd := sf w 57 53, va := sf w 52 48, vb := sf w 47 43, vc := sf w 42 38, pr := sf w 37 35,
    pn := sf w 34 34, ty := sf w 33 32, cvt := sf w 31 30, bs := sf w 29 29, fa := sf w 28 25, fb := sf w 24 21,
    xa := sf w 20 17, sel := sf w 16 15, rsv := sf w 14 0 }

/-- Which group of Table 4-7 an operation belongs to. -/
inductive VG where
  | nop
  | arith
  | fma
  | minmax
  | div
  | sqrt
  | sign
  | bitw
  | cmp
  | pred
  | sel
  | cvt
  | nq8
  | bc
  | perm
  | red
  | ext
  | ins
  | rng
  | xadd
  | xaddx
  | xred
  | xrnd
  | xclr
  | bad
  deriving DecidableEq, Repr

def vGroup (op : Nat) : VG :=
  if op = 0 then .nop
  else if op ≤ 3 then .arith
  else if op = 4 then .fma
  else if op ≤ 6 then .minmax
  else if op = 7 then .div
  else if op = 8 then .sqrt
  else if op ≤ 0xA then .sign
  else if op < 0x10 then .bad
  else if op ≤ 0x15 then .bitw
  else if op < 0x18 then .bad
  else if op ≤ 0x1B then .cmp
  else if op ≤ 0x1E then .pred
  else
    match op with
    | 0x1F => .sel
    | 0x20 => .cvt
    | 0x21 => .nq8
    | 0x28 => .bc
    | 0x29 => .perm
    | 0x2A => .red
    | 0x2B => .ext
    | 0x2C => .ins
    | 0x30 => .rng
    | 0x38 => .xadd
    | 0x39 => .xaddx
    | 0x3A => .xred
    | 0x3B => .xrnd
    | 0x3C => .xclr
    | _ => .bad

/-- A v register of a TY 1 operand must be even (R98). -/
def oddPair (ty r : Nat) : Bool := ty == 1 && r % 2 == 1

/-- The operand v registers that TY makes pairs: operands and destination by group. -/
def VF.pairs (f : VF) : List Nat :=
  let b := if f.bs = 1 then [] else [f.vb]
  match vGroup f.op with
  | .arith => [f.vd, f.va] ++ b
  | .fma => [f.vd, f.va, f.vc] ++ b
  | .minmax => [f.vd, f.va] ++ b
  | .div => [f.vd, f.va] ++ b
  | .sqrt => [f.vd, f.va]
  | .sign => [f.vd, f.va]
  | .cmp => [f.va] ++ b
  | .sel => [f.vd, f.va] ++ b
  | .bc => [f.vd]
  | .perm => [f.vd, f.va]
  | .red => [f.va]
  | .ext => [f.va]
  | .ins => [f.vd]
  | _ => []

/-- Encodings that make the bundle illegal (R98, R101, Tables 4-6 and 4-7). -/
def VF.illegal (f : VF) (w : W64) : Bool :=
  match vGroup f.op with
  | .nop => sf w 57 0 != 0
  | .bad => true
  | g =>
    f.rsv != 0 || f.ty == 3 || f.pairs.any (oddPair f.ty) ||
    (match g with
     | .fma => f.ty == 2
     | .div => f.ty == 2
     | .sqrt => f.ty == 2
     | .sign => f.ty == 2
     | .bitw => f.ty != 2
     | .cmp => f.vd ≥ 8
     | .cvt => f.fa > 4 || f.fb > 4 || (f.fa == 3 && f.va % 2 == 1) || (f.fb == 3 && f.vd % 2 == 1)
     | .red => f.sel == 3
     | .xadd => f.fa != 1 && f.fa != 2
     | .xaddx => f.vb ≥ 16
     | .xred => f.va ≥ 16
     | .xrnd => (f.fb != 1 && f.fb != 2 && f.fb != 3) || (f.fb == 3 && f.vd % 2 == 1)
     | _ => false)

/-- The draw register is read when the operation draws (R104); CVT does not apply to widening (R54). -/
def VF.draws (f : VF) : Bool :=
  match vGroup f.op with
  | .rng => true
  | .cvt => nbit f.cvt 0 && !(f.fa == 0 && f.fb == 1)
  | .nq8 => nbit f.cvt 0
  | .xrnd => nbit f.cvt 0
  | _ => false

/-- Source register names for the scoreboard (R97). -/
def VF.srcs (f : VF) : List Nat :=
  let b := if f.bs = 1 then [f.vb] else nVt f.ty f.vb
  let d := if f.draws then [f.vc] else []
  let p := [nP f.pr]
  p ++ d ++
  match vGroup f.op with
  | .arith => nVt f.ty f.va ++ b
  | .fma => nVt f.ty f.va ++ nVt f.ty f.vc ++ b
  | .minmax => nVt f.ty f.va ++ b
  | .div => nVt f.ty f.va ++ b
  | .sqrt => nVt f.ty f.va
  | .sign => nVt f.ty f.va
  | .bitw => nVt 0 f.va ++ b
  | .cmp => nVt f.ty f.va ++ b
  | .pred => [nP (f.va % 8), nP (f.vb % 8)]
  | .sel => nVt f.ty f.va ++ b
  | .cvt => nVt (if f.fa = 3 then 1 else 0) f.va ++ (if f.fa = 0 ∨ f.fb = 0 then [f.vb] else [])
  | .nq8 => [nV f.va]
  | .bc => [f.va]
  | .perm => nVt f.ty f.va ++ (if f.bs = 1 then [f.vb] else [nV f.vb])
  | .red => nVt f.ty f.va
  | .ext => nVt f.ty f.va ++ [f.vb]
  | .ins => [f.va, f.vb]
  | .xadd => [nV f.va, nX f.xa]
  | .xaddx => [nX f.xa, nX (f.vb % 16)]
  | .xred => [nX (f.va % 16)]
  | .xrnd => [nX f.xa]
  | _ => []

/-- Destination register names. -/
def VF.dsts (f : VF) : List Nat :=
  match vGroup f.op with
  | .nop => []
  | .bad => []
  | .cmp => [nP (f.vd % 8)]
  | .pred => [nP (f.vd % 8)]
  | .bitw => [nV f.vd]
  | .cvt => nVt (if f.fb = 3 then 1 else 0) f.vd ++ (if f.fb = 0 then [f.vb] else [])
  | .nq8 => [nV f.vd, f.vb]
  | .red => [f.vd]
  | .ext => [f.vd]
  | .rng => [nV f.vd]
  | .xadd => [nX f.xa]
  | .xaddx => [nX f.xa]
  | .xred => [nX f.xa]
  | .xclr => [nX f.xa]
  | .xrnd => nVt (if f.fb = 3 then 1 else 0) f.vd
  | _ => nVt f.ty f.vd

/-- Issue interval and result latency (Table 4-3). -/
def VF.time (f : VF) : Nat × Nat :=
  match vGroup f.op with
  | .arith => if f.ty = 1 then (2, 8) else if f.ty = 2 then (1, 2) else (1, 4)
  | .minmax => if f.ty = 1 then (2, 8) else if f.ty = 2 then (1, 2) else (1, 4)
  | .fma => if f.ty = 1 then (2, 8) else (1, 4)
  | .sign => if f.ty = 1 then (2, 8) else (1, 4)
  | .div => if f.ty = 1 then (16, 36) else (8, 20)
  | .sqrt => if f.ty = 1 then (16, 36) else (8, 20)
  | .cvt => (1, 4)
  | .perm => (1, 3)
  | .ext => (1, 3)
  | .ins => (1, 3)
  | .red => if f.ty = 1 then (2, 16) else (1, 10)
  | .nq8 => (2, 8)
  | .rng => (1, 12)
  | .xadd => (2, 6)
  | .xaddx => (2, 6)
  | .xrnd => (2, 8)
  | .xred => (8, 24)
  | .xclr => (1, 1)
  | _ => (1, 2)

/-! ## Operand B and lane arithmetic -/

/-- Operand B of lane `i` (R101: BS reads s[VB]). -/
def VF.b (f : VF) (k : Cor) (i : Nat) : Nat :=
  if f.bs = 1 then (if f.ty = 1 then (k.s f.vb).toNat else (k.s f.vb).toNat % 2 ^ 32) else k.lane f.ty f.vb i
def VF.bSp (f : VF) (k : Cor) (i : Nat) : Bool := if f.bs = 1 then k.sSpoilt f.vb else k.laneSp f.ty f.vb i

def fmtTy (ty : Nat) : Fmt := if ty = 1 then fmtB64 else fmtB32

/-- An exact result rounded to nearest even, with the flags of the operation and of its signalling operands. -/
def roundOp (f : Fmt) (r : Num × Nat) (fl : Nat) : Nat × Nat :=
  let y := f.write r.1 0 0
  (y.1, y.2 ||| r.2 ||| fl)

/-- A floating-point lane operation: bits and flags. -/
def fpLane (op : Nat) (f : Fmt) (a b c : Nat) : Nat × Nat :=
  let x := f.read a
  let y := f.read b
  let sab := f.snf a ||| f.snf b
  match op with
  | 1 => roundOp f (Num.add x y) sab
  | 2 => roundOp f (Num.add x (Num.neg y)) sab
  | 3 => roundOp f (Num.mul x y) sab
  | 4 => roundOp f (Num.fma x y (f.read c)) (sab ||| f.snf c)
  | 5 => roundOp f (Num.min x y, 0) sab
  | 6 => roundOp f (Num.max x y, 0) sab
  | 7 => roundOp f (Num.div x y) sab
  | 8 => roundOp f (Num.sqrt x) (f.snf a)
  | 9 => roundOp f (Num.abs x, 0) (f.snf a)
  | _ => roundOp f (Num.neg x, 0) (f.snf a)

/-- An int32 lane operation, modulo 2^32 (R101). -/
def intLane (op a b : Nat) : Nat :=
  match op with
  | 1 => (a + b) % 2 ^ 32
  | 2 => (a + 2 ^ 32 - b % 2 ^ 32) % 2 ^ 32
  | 3 => a * b % 2 ^ 32
  | 5 => if sval a 32 ≤ sval b 32 then a else b
  | _ => if sval a 32 ≤ sval b 32 then b else a

/-- Bitwise lane operations; the shift count is VB[4:0]. -/
def bitLane (op a b : Nat) : Nat :=
  match op with
  | 0x10 => Nat.land a b
  | 0x11 => Nat.lor a b
  | 0x12 => Nat.xor a b
  | 0x13 => a * 2 ^ (b % 32) % 2 ^ 32
  | 0x14 => a / 2 ^ (b % 32)
  | _ => twos (sval a 32 / 2 ^ (b % 32)) 32

/-- Comparison of a lane: the outcome and the flags (R55). -/
def cmpLane (op ty a b : Nat) : Bool × Nat :=
  if ty = 2 then
    (match op with
     | 0x18 => a == b
     | 0x19 => a != b
     | 0x1A => decide (sval a 32 < sval b 32)
     | _ => decide (sval a 32 ≤ sval b 32), 0)
  else
    let f := fmtTy ty
    let x := f.read a
    let y := f.read b
    (match op with
     | 0x18 => Num.eq x y
     | 0x19 => !Num.eq x y
     | 0x1A => Num.lt x y
     | _ => Num.lt x y || Num.eq x y, f.snf a ||| f.snf b)

/-- Two adjacent results of a reduction joined (R103). -/
def redJoin (sel ty : Nat) (a b : Nat × Nat) : Nat × Nat :=
  if ty = 2 then
    (match sel with
     | 0 => intLane 1 a.1 b.1
     | 1 => intLane 5 a.1 b.1
     | _ => intLane 6 a.1 b.1, 0)
  else
    let y := fpLane (match sel with
      | 0 => 1
      | 1 => 5
      | _ => 6) (fmtTy ty) a.1 b.1 0
    (y.1, y.2 ||| a.2 ||| b.2)

/-- One level of the pairwise tree. -/
def pairUp (sel ty : Nat) : List (Nat × Nat) → List (Nat × Nat)
  | a :: b :: t => redJoin sel ty a b :: pairUp sel ty t
  | l => l

/-- The fixed tree of six levels over 64 lanes (R103). -/
def redTree (sel ty : Nat) (l : List (Nat × Nat)) : Nat × Nat :=
  ((List.range 6).foldl (fun a _ => pairUp sel ty a) l).headD (0, 0)

/-- VRED's value and flags (R103): inactive lanes add +0; min and max take the active lanes alone. -/
def redValue (k : Cor) (f : VF) (act : W64) : Nat × Nat :=
  let on := lanesOf act
  if f.sel = 0 then redTree 0 f.ty ((List.range 64).map fun i => (if act.getLsbD i then k.lane f.ty f.va i else 0, 0))
  else
    match on with
    | [] =>
      if f.ty = 2 then (if f.sel = 1 then 0x7FFFFFFF else 0x80000000, 0) else ((fmtTy f.ty).nanBits, 0)
    | i :: t =>
      let first := redJoin f.sel f.ty (k.lane f.ty f.va i, 0) (k.lane f.ty f.va i, 0)
      t.foldl (fun a j => redJoin f.sel f.ty a (k.lane f.ty f.va j, 0)) first

/-- A lane value placed in a scalar register (R103): int32 sign-extended, binary32 with [63:32] zero. -/
def laneToS (ty x : Nat) : W64 := if ty = 2 then BitVec.ofInt 64 (sval x 32) else BitVec.ofNat 64 x

/-! ## Conversions (R50 to R54, Table 2-6, R447) -/

/-- Row length and row of element `i`. -/
def VF.rowOf (f : VF) (i : Nat) : Nat := if f.sel / 2 % 2 = 1 then i / 32 else 0
def VF.rows (f : VF) : List Nat := if f.sel / 2 % 2 = 1 then [0, 1] else [0]

/-- The row code in s[VB] of a row. -/
def codeIn (x : W64) (row : Nat) : Nat := x.toNat / 2 ^ (8 * row) % 256

/-- Source element `i` of a conversion: its value, the flags of reading it and its mark. -/
def VF.elem (f : VF) (k : Cor) (fa i : Nat) : Num × Nat × Bool :=
  match fa with
  | 0 =>
    let c := codeIn (k.s f.vb) (f.rowOf i)
    (readQ8 (k.q8 f.va i) c, if c = 255 then fSCL else 0, k.vSpoilt f.va (i / 4) || k.sSpoilt f.vb)
  | 1 =>
    let e := 64 * (f.sel % 2) + i
    (fmtQ16.read (k.q16 f.va e), 0, k.vSpoilt f.va (e / 2))
  | 3 => (fmtB64.read (k.lane 1 f.va i), fmtB64.snf (k.lane 1 f.va i), k.laneSp 1 f.va i)
  | _ => (fmtB32.read (k.lane 0 f.va i), fmtB32.snf (k.lane 0 f.va i), k.laneSp 0 f.va i)

/-- r of R46 for lane `i`, with the mark of its draw register. -/
def VF.rnd (f : VF) (k : Cor) (e : Env) (i : Nat) : Nat := if f.draws then k.drawAt e f.vc i % 65536 else 0
def VF.rndSp (f : VF) (k : Cor) : Bool := f.draws && k.sSpoilt f.vc

/-- A result written in format `fb` to lane `i`. -/
def VF.put (f : VF) (a : Cor) (fb i x : Nat) (sp : Bool) : Cor :=
  match fb with
  | 1 => a.setQ16 f.vd (64 * (f.sel % 2) + i) x sp
  | 3 => a.setLane 1 f.vd i x sp
  | _ => a.setLane 0 f.vd i x sp

/-- The encoder of a target format. -/
def fmtOf (fb : Nat) : Fmt := if fb = 1 then fmtQ16 else if fb = 3 then fmtB64 else fmtB32

/-- The lanes of VD, from `lane0` on, of which the operation writes every one of `per` elements lose their earlier marks (R120). -/
def VF.fresh (f : VF) (k : Cor) (act : W64) (per lane0 : Nat) : Cor :=
  let full := (List.range (64 / per)).filter fun j => (List.range per).all fun i => act.getLsbD (per * j + i)
  { k with vSp := k.vSp.filter fun m => !(full.any fun j => m == 64 * f.vd + lane0 + j) }

/-- VCVT to Q16, binary32 or binary64. Q8 to Q16 rounds to nearest even whatever CVT says (R54). -/
def VF.cvtPlain (f : VF) (k : Cor) (e : Env) (act : W64) : Cor :=
  (lanesOf act).foldl (fun a i =>
    let x := f.elem k f.fa i
    let y := (fmtOf f.fb).write x.1 (if f.fa = 0 ∧ f.fb = 1 then 0 else f.cvt) (f.rnd k e i)
    (f.put a f.fb i y.1 (x.2.2 || f.rndSp k)).setFlags (y.2 ||| x.2.1)) (if f.fb = 1 then f.fresh k act 2 (32 * (f.sel % 2)) else k)

/-- Narrowing to Q8 of the rows of active lanes (R51 to R53, R447). `code` gives a row's fixed code, none in automatic
mode; a Q8 source in Q8 keeps its bytes and code (Table 2-6). A spoiled draw register marks every element of the row, and so s[VB] where
the codes are written: R120 and R447 name the marks of elements and of codes, and the model takes the two together [185]. -/
def VF.toQ8 (f : VF) (k : Cor) (e : Env) (act : W64) (fa : Nat) (fixed : Bool) : Cor :=
  let base := if fixed then (k.s f.vb).toNat else 0
  let codesSp := fixed && k.sSpoilt f.vb
  let r := f.rows.foldl (fun (a : Cor × Nat × Bool) row =>
    let on := (lanesOf act).filter fun i => f.rowOf i == row
    let fx := codeIn (k.s f.vb) row
    let put := fun (n c : Nat) => n - (n / 2 ^ (8 * row) % 256) * 2 ^ (8 * row) + c * 2 ^ (8 * row)
    match on with
    | [] => (a.1, put a.2.1 (if fixed then fx else 127), a.2.2)
    | _ =>
      let xs := on.map fun i => (i, f.elem k fa i)
      let sp := xs.any (fun x => x.2.2.2) || codesSp || f.rndSp k
      let sn := xs.foldl (fun n x => n ||| (x.2.2.1 &&& fNV)) 0
      let bad := rowInvalid (xs.map fun x => x.2.1) || (fixed && fx == 255)
      let c := if bad then 255 else if fixed then fx else autoCode (xs.map fun x => x.2.1)
      let w := xs.foldl (fun (b : Cor) x =>
        let y := if bad then (0x80, 0) else if fa = 0 then (k.q8 f.va x.1, 0) else narrowQ8 x.2.1 c f.cvt (f.rnd k e x.1)
        (b.setQ8 f.vd x.1 y.1 sp).setFlags y.2) a.1
      (w.setFlags (sn ||| (if bad then fSCL else 0)), put a.2.1 c, a.2.2 || sp)) (f.fresh k act 4 0, base, codesSp)
  (r.1.clearQ8 f.vd).setS f.vb (BitVec.ofNat 64 r.2.1) r.2.2

/-! ## The slot's effect -/

/-- What the vector slot writes: the core `k` as at issue with the operation's results in it. VEXT reads its lane whatever the
predicate, for its result is scalar, and VINS writes its lane only where the predicate makes it active (R101): R103 names no predicate
for either [186]. -/
def VF.exec (f : VF) (k : Cor) (e : Env) : Cor :=
  let act := k.active f.pr f.pn
  let on := lanesOf act
  match vGroup f.op with
  | .nop => k
  | .bad => k
  | .bitw =>
    on.foldl (fun a i => a.setLane 0 f.vd i (bitLane f.op (k.lane 0 f.va i) (f.b k i)) (k.laneSp 0 f.va i || f.bSp k i)) k
  | .cmp =>
    let r := on.foldl (fun (a : Nat × Nat) i =>
      let y := cmpLane f.op f.ty (k.lane f.ty f.va i) (f.b k i)
      (if y.1 then a.1 + 2 ^ i else a.1, a.2 ||| y.2)) (0, 0)
    (k.setP (f.vd % 8) (BitVec.ofNat 64 r.1)).setFlags r.2
  | .pred =>
    let a := k.p (f.va % 8)
    let b := k.p (f.vb % 8)
    let r := match f.op with
      | 0x1C => a &&& b
      | 0x1D => a ||| b
      | _ => a ^^^ b
    k.setP (f.vd % 8) ((r &&& act) ||| (k.p (f.vd % 8) &&& ~~~act))
  | .sel =>
    (List.range 64).foldl (fun a i =>
      if act.getLsbD i then a.setLane f.ty f.vd i (k.lane f.ty f.va i) (k.laneSp f.ty f.va i)
      else a.setLane f.ty f.vd i (f.b k i) (f.bSp k i)) k
  | .cvt => if f.fb = 0 then f.toQ8 k e act f.fa true else f.cvtPlain k e act
  | .nq8 => f.toQ8 k e act 2 false
  | .bc =>
    on.foldl (fun a i => a.setLane f.ty f.vd i (if f.ty = 1 then (k.s f.va).toNat else (k.s f.va).toNat % 2 ^ 32) (k.sSpoilt f.va)) k
  | .perm =>
    on.foldl (fun a i =>
      let j := (if f.bs = 1 then (k.s f.vb).toNat else (k.v f.vb i).toNat) % 64
      a.setLane f.ty f.vd i (k.lane f.ty f.va j) (k.laneSp f.ty f.va j)) k
  | .red =>
    let y := redValue k f act
    (k.setS f.vd (laneToS f.ty y.1) (on.any fun i => k.laneSp f.ty f.va i)).setFlags y.2
  | .ext =>
    let i := (k.s f.vb).toNat % 64
    k.setS f.vd (laneToS f.ty (k.lane f.ty f.va i)) (k.laneSp f.ty f.va i || k.sSpoilt f.vb)
  | .ins =>
    let i := (k.s f.vb).toNat % 64
    if act.getLsbD i then k.setLane f.ty f.vd i ((k.s f.va).toNat % (if f.ty = 1 then 2 ^ 64 else 2 ^ 32)) (k.sSpoilt f.va || k.sSpoilt f.vb) else k
  | .rng => on.foldl (fun a i => a.setLane 0 f.vd i (k.drawAt e f.vc i) (k.sSpoilt f.vc)) k
  | .xadd =>
    on.foldl (fun a i =>
      let x := f.elem k f.fa i
      (a.setX f.xa i ((k.x f.xa i).addNum x.1) (x.2.2 || k.xSpoilt f.xa i)).setFlags x.2.1) k
  | .xaddx =>
    on.foldl (fun a i => a.setX f.xa i ((k.x f.xa i).add (k.x (f.vb % 16) i)) (k.xSpoilt f.xa i || k.xSpoilt (f.vb % 16) i)) k
  | .xred =>
    let t := on.foldl (fun a i => a.add (k.x (f.va % 16) i)) Ex.zero
    (from_ 1 63).foldl (fun a i => a.setX f.xa i Ex.zero false) (k.setX f.xa 0 t (on.any fun i => k.xSpoilt (f.va % 16) i))
  | .xrnd =>
    on.foldl (fun a i =>
      let y := (fmtOf f.fb).write (k.x f.xa i).num f.cvt (f.rnd k e i)
      (f.put a f.fb i y.1 (k.xSpoilt f.xa i || f.rndSp k)).setFlags y.2) (if f.fb = 1 then f.fresh k act 2 (32 * (f.sel % 2)) else k)
  | .xclr => on.foldl (fun a i => a.setX f.xa i Ex.zero false) k
  | _ =>
    on.foldl (fun a i =>
      let x := k.lane f.ty f.va i
      let y := f.b k i
      let un := f.op ≥ 8
      let sp := k.laneSp f.ty f.va i || (!un && f.bSp k i) || (f.op == 4 && k.laneSp f.ty f.vc i)
      if f.ty = 2 then a.setLane 2 f.vd i (intLane f.op x y) sp
      else
        let r := fpLane f.op (fmtTy f.ty) x y (k.lane f.ty f.vc i)
        (a.setLane f.ty f.vd i r.1 sp).setFlags r.2) k

/-- A spoiled value used where R120 gives exception 0x06. -/
def VF.spoilUse (f : VF) (k : Cor) : Bool :=
  let on := lanesOf (k.active f.pr f.pn)
  match vGroup f.op with
  | .cmp => (f.bs == 1 && k.sSpoilt f.vb) || on.any fun i => k.laneSp f.ty f.va i || f.bSp k i
  | .perm => if f.bs = 1 then k.sSpoilt f.vb else on.any fun i => k.vSpoilt f.vb i
  | _ => false

end Sys2Proof.Machine
end

