-- ==== Sys2Proof/Machine/Access.lean ====
section
/-! DEFINITION. How a core's scratchpad accesses reach the banks (05 R125 to R137, 03 R81 to R86, 04 R105): line requests, the
credits of the bond, the home ports and the mesh, and what a reply does at the unit that asked. -/

namespace Sys2Proof.Machine

/-! ## Line requests (R125) -/

/-- A request for the line of word `w`, empty. -/
def lineReq (who : Acc) (src w : Nat) (write : Bool) : BankReq :=
  { port := .mesh, age := 0, write := write, aadd := false, word := w, data := List.replicate 4 0#32, bmask := 0#16, spoil := 0#4,
    who := who, src := src }

/-- The request covers the bytes in `m` of word `w` with the bits of `v`, spoiled or not. -/
def BankReq.cover (q : BankReq) (w m : Nat) (v : W32) (sp : Bool) : BankReq :=
  { q with data := q.data.modify (w % 4) fun o => (o &&& ~~~(byteMask m)) ||| (v &&& byteMask m)
           bmask := q.bmask ||| BitVec.ofNat 16 (m * 2 ^ (4 * (w % 4)))
           spoil := q.spoil ||| BitVec.ofNat 4 (b2n sp * 2 ^ (w % 4)) }
where
  /-- The bits of the bytes named by a 4-bit mask. -/
  byteMask (m : Nat) : W32 := BitVec.ofNat 32 ((List.range 4).foldl (fun a i => a + (if nbit m i then 255 * 2 ^ (8 * i) else 0)) 0)

/-- The bytes of word `w` that the request covers. -/
def BankReq.covers (q : BankReq) (w : Nat) : Nat := q.bmask.toNat / 2 ^ (4 * (w % 4)) % 16

/-- The words of the request's line that it covers, in order. -/
def BankReq.words (q : BankReq) : List Nat :=
  (List.range 4).filterMap fun j => if q.covers j = 0 then none else some (q.word / 4 * 4 + j)

/-- Writes of parts of words, one request for each run of them within a line that covers no byte twice, in order. -/
def lineWrites (who : Acc) (src : Nat) (l : List (Nat × Nat × W32 × Bool)) : List BankReq :=
  (l.foldl (fun (acc : List BankReq) x =>
    let new := (lineReq who src x.1 true).cover x.1 x.2.1 x.2.2.1 x.2.2.2
    match acc with
    | q :: r => if q.word / 4 = x.1 / 4 ∧ Nat.land (q.covers x.1) x.2.1 = 0 then q.cover x.1 x.2.1 x.2.2.1 x.2.2.2 :: r else new :: q :: r
    | [] => [new]) []).reverse

/-- Writes of whole words. -/
def wordWrites (who : Acc) (src : Nat) (l : List (Nat × W32 × Bool)) : List BankReq :=
  lineWrites who src (l.map fun x => (x.1, 15, x.2.1, x.2.2))

/-- Reads of words, one request a line. -/
def lineReads (who : Acc) (src : Nat) (ws : List Nat) : List BankReq :=
  ((ws.map (· / 4)).dedup).map fun l =>
    (ws.filter fun w => w / 4 == l).foldl (fun q w => q.cover w 15 0#32 false) (lineReq who src (4 * l) false)

/-- The word of an address among words read, 0 where it is not among them. -/
def wordIn (got : List (Nat × W32 × Bool)) (w : Nat) : W32 × Bool :=
  match got.find? fun x => x.1 == w with
  | some x => x.2
  | none => (0#32, false)

/-! ## Credits of a core's bond (R137, Table 5-4) -/

/-- Credits of kind `k` that a sender holds after start-up: write lines and commands of a bank, read lines of a home port,
commands to the core's stop. -/
def bondLimit (k : Nat) : Nat := if k < 32 then 8 else if k < 64 then 16 else if k < 66 then 64 else if k = 66 then 32 else 0

/-- The credits that a request of core `c` spends; `m` is 1 for the array port. -/
def BankReq.credits (q : BankReq) (c m : Nat) : List Nat :=
  if regionOf q.word = c then
    [1024 * c + 32 + bankOf q.word, 1024 * c + (if q.write && !q.aadd then bankOf q.word else 64 + m)]
  else [1024 * c + 66]

def Floor.holds (f : Floor) (k : Nat) : Bool := decide (tget 0 f.spent k < bondLimit (k % 1024))

/-- A request enters the request plane at a stop's LOCAL input (R129). -/
def State.injectReq (s : State) (stop : Nat) (q : BankReq) : State :=
  s.updFloor fun f =>
    { f with stops := tupd [] f.stops (2 * stop) fun l => l ++ [{ inp := 0, age := s.floorNow, dst := regionOf q.word, req := some q, rep := none }] }

/-- The request enters the floor: at its bank's home port, or as a flit at its core's stop (R129, R133). -/
def State.enter (s : State) (q : BankReq) (c m : Nat) : State :=
  let age := s.floorNow
  if regionOf q.word = c then
    s.updBank c (bankOf q.word) fun k =>
      if m = 0 then { k with homeT := k.homeT ++ [{ q with port := .homeT, age := age }] }
      else { k with homeM := k.homeM ++ [{ q with port := .homeM, age := age }] }
  else s.injectReq c q

/-- Requests waiting under `key` are sent while credits last, in order; `n` bounds them. -/
def State.pump : Nat → State → Nat → State
  | 0, s, _ => s
  | n + 1, s, key =>
    match tget [] s.floor.outq key with
    | [] => s
    | q :: r =>
      let cs := q.credits (key / 4) (key % 2)
      if cs.all s.floor.holds then
        State.pump n ((s.updFloor fun f =>
          { f with outq := tput f.outq key r, spent := cs.foldl (fun t k => tupd 0 t k (· + 1)) f.spent }).enter q (key / 4) (key % 2)) key
      else s

/-- Everything that waits under `key` is tried. -/
def State.pumpAll (s : State) (key : Nat) : State := State.pump (tget [] s.floor.outq key).length s key

/-- Requests of core `c`'s T unit (m = 0) or arrays (m = 1), in issue order (R130). -/
def State.sendReqs (s : State) (c m : Nat) (l : List BankReq) : State :=
  let s := s.updFloor fun f => l.foldl (fun f q =>
    { f with outq := tupd [] f.outq (4 * c + (if regionOf q.word = c then 0 else 2) + m) fun l => l ++ [q] }) f
  (s.pumpAll (4 * c + m)).pumpAll (4 * c + 2 + m)

/-- The stop at which the edge units of terrace `t` enter the mesh (R128). -/
def edgeOf (t : Nat) : Nat := 128 * (t % 4) + Config.edgeStop t % 128

/-! ## Words of drains and emissions (R80 to R82) -/

/-- Resident accumulation of one word (R82): round_ne(old + cell). -/
def residentAdd (old c : W32) : W32 × Nat :=
  let x := fmtB32.read old.toNat
  let y := fmtB32.read c.toNat
  let r := fpLaneAdd x y
  (BitVec.ofNat 32 r.1, r.2 ||| fmtB32.snf old.toNat)
where
  /-- Sum rounded to nearest even with its flags. -/
  fpLaneAdd (x y : Num) : Nat × Nat :=
    let s := Num.add x y
    let r := fmtB32.write s.1 0 0
    (r.1, r.2 ||| s.2)

/-- The words a drain writes, with addresses modulo 2^29 (R81), rows in ascending order: where a row stride below the packed row
length makes rows meet, the later row's words are the ones kept, and with ADD each adds to the words before it [177]. -/
def drainTargets (d : DrainW) : List (Nat × W32 × Bool) :=
  d.rows.zipIdx.flatMap fun r => r.1.zipIdx.map fun w => ((d.base + r.2 * d.strd + w.2) % 2 ^ 29, w.1.1, w.1.2)

/-- The words that an adding drain writes from the old words, in order, with its flags. -/
def drainSums (d : DrainW) : List (Nat × W32 × Bool) × Nat :=
  let r := (drainTargets d).foldl (fun (a : List (Nat × W32 × Bool) × List (Nat × W32 × Bool) × Nat) w =>
    let o := wordIn a.2.1 w.1
    let y := residentAdd o.1 w.2.1
    let z := (w.1, y.1, o.2 || w.2.2)
    (a.1 ++ [z], z :: a.2.1, a.2.2 ||| y.2)) ([], d.got, 0)
  (r.1, r.2.2)

/-- The write requests of a drain: its rows' words, then the bytes of its scale vector. -/
def drainReqs (c a : Nat) (d : DrainW) (ws : List (Nat × W32 × Bool)) : List BankReq :=
  wordWrites (.drain c a d.id) c ws ++
    lineWrites (.drain c a d.id) c (d.codes.map fun b =>
      (b.1 / 4 % 2 ^ 29, 2 ^ (b.1 % 4), BitVec.ofNat 32 (b.2.1.toNat * 2 ^ (8 * (b.1 % 4))), b.2.2))

def State.updDrain (s : State) (c a id : Nat) (f : DrainW → DrainW) : State :=
  s.updCore c fun k => k.updArr a fun x => { x with drains := x.drains.map fun d => if d.id = id then f d else d }

/-- A drain begins its writes. -/
def State.drainWrites (s : State) (c a : Nat) (d : DrainW) : State :=
  let r := if d.add then drainSums d else (drainTargets d, 0)
  let qs := drainReqs c a d r.1
  let s := s.updCore c fun k => k.updArr a fun x => { x with flags := orFlags x.flags r.2 }
  (s.updDrain c a d.id fun d => { d with phase := 2, left := qs.length, got := [] }).sendReqs c 1 qs

/-- A drain that no earlier drain of its core holds starts: with ADD it reads the old words, else it writes (R82, R87). -/
def State.drainStart (s : State) (c a : Nat) (d : DrainW) : State :=
  if d.add then
    let qs := lineReads (.old c a d.id) c ((drainTargets d).map (·.1)).dedup
    (s.updDrain c a d.id fun d => { d with phase := 1, left := qs.length }).sendReqs c 1 qs
  else s.drainWrites c a d

/-- Every drain of the core that is free to start starts. -/
def State.sendDrains (s : State) (c : Nat) : State :=
  (List.range 4).foldl (fun (t : State) a =>
    (((s.core c).arr a).drains.filter fun d => d.phase == 0 && drainFree (s.core c) d).foldl (fun t d => t.drainStart c a d) t) s

/-! ## Replies -/

/-- The reply of an access reaches the unit that asked, with the words it read; an acknowledgement carries none. -/
def State.accGot (s : State) (who : Acc) (ws : List (Nat × W32 × Bool)) : State :=
  let t (f : TAcc → TAcc) (id : Nat) (l : List TAcc) : List TAcc := l.map fun a => if a.id = id then f a else a
  let one (a : TAcc) : TAcc := { a with left := a.left - 1, got := a.got ++ ws }
  match who with
  | .t c id => s.updCore c fun k => { k with tacc := t one id k.tacc }
  | .copyRd c id _ => s.updCore c fun k => { k with hacc := t (fun a => { a with got := a.got ++ ws }) id k.hacc }
  | .copyWr c id _ => s.updCore c fun k => { k with hacc := t (fun a => { a with left := a.left - 1 }) id k.hacc }
  | .fld c id => s.updCore c fun k => { k with fldRun := k.fldRun.map fun f =>
      if f.op.id = id then { f with left := f.left - 1, got := f.got ++ ws } else f }
  | .vec c a id => s.updCore c fun k => k.updArr a fun x => { x with vec := x.vec.map fun v =>
      if v.id = id then { v with left := v.left - 1, got := v.got ++ ws } else v }
  | .old c a id =>
    let s := s.updDrain c a id fun d => { d with left := d.left - 1, got := d.got ++ ws }
    (match ((s.core c).arr a).drains.find? fun d => d.id == id with
     | some d => if d.phase = 1 ∧ d.left = 0 then s.drainWrites c a d else s
     | none => s)
  | .drain c a id => s.updDrain c a id fun d => { d with left := d.left - 1 }
  | .emit c a id => s.updCore c fun k => k.updArr a fun x => { x with emits := x.emits.map fun e =>
      if e.id = id then { e with left := e.left - 1 } else e }
  | _ => s

/-- The core whose T slot or array made the access. -/
def Acc.core? : Acc → Option Nat
  | .t c _ => some c
  | .fld c _ => some c
  | .vec c _ _ => some c
  | .old c _ _ => some c
  | .drain c _ _ => some c
  | .emit c _ _ => some c
  | _ => none

/-- A receive entry is emptied, and its credit is to be returned (R137). -/
def State.owe (s : State) (k : Nat) : State := s.updFloor fun f => { f with owed := tupd 0 f.owed k (· + 1) }

end Sys2Proof.Machine
end

