-- ==== Sys2Proof/Machine/Issue.lean ====
section
/-! DEFINITION. The core's bundle (04): the scalar and transfer slots, stalls, exceptions, issue, work items. -/

namespace Sys2Proof.Machine

/-! ## Scalar slot (Tables 4-4 and 4-5) -/

def sOp (w : W64) : Nat := sf w 63 58
def sD (w : W64) : Nat := sf w 57 53
def sA (w : W64) : Nat := sf w 52 48
def sB (w : W64) : Nat := sf w 47 43
def sI (w : W64) : Bool := nbit w.toNat 42
def sImm (w : W64) : Nat := sf w 31 0

/-- ALU operations 0x01–0x0F. -/
def aluOp (op : Nat) : Bool := decide (1 ≤ op ∧ op ≤ 0x0F)
def branchOp (op : Nat) : Bool := decide (0x20 ≤ op ∧ op ≤ 0x25)

/-- Encodings that make the bundle illegal (Tables 4-4, 4-5, 4-8, R100). -/
def sIllegal (w : W64) : Bool :=
  let op := sOp w
  if op = 0 then sf w 57 0 != 0
  else if aluOp op ∨ op = 0x10 ∨ branchOp op ∨ op = 0x30 ∨ op = 0x31 ∨ op = 0x3E then
    sf w 41 32 != 0 || (branchOp op && sI w) || ((op == 0x30 || op == 0x31) && decide (sImm w % 256 > 7))
  else true

def sSrcs (w : W64) : List Nat :=
  let op := sOp w
  if aluOp op then (if sI w then [sA w] else [sA w, sB w])
  else if op = 0x10 ∨ op = 0x21 ∨ op = 0x22 ∨ op = 0x25 ∨ op = 0x31 then [sA w]
  else if op = 0x23 then [sA w, sB w]
  else []

def sDsts (w : W64) : List Nat :=
  let op := sOp w
  if aluOp op ∨ op = 0x10 ∨ op = 0x24 ∨ op = 0x30 then [sD w] else []

/-- ALU result (R100). -/
def alu (op : Nat) (a b : W64) : W64 :=
  let n := b.toNat % 64
  match op with
  | 0x01 => a + b
  | 0x02 => a - b
  | 0x03 => a * b
  | 0x04 => BitVec.ofNat 64 (a.toNat * b.toNat / 2 ^ 64)
  | 0x05 => a &&& b
  | 0x06 => a ||| b
  | 0x07 => a ^^^ b
  | 0x08 => a <<< n
  | 0x09 => a >>> n
  | 0x0A => a.sshiftRight n
  | 0x0B => if a.toInt ≤ b.toInt then a else b
  | 0x0C => if a.toInt ≤ b.toInt then b else a
  | 0x0D => if a.toInt < b.toInt then 1#64 else 0#64
  | 0x0E => if a.toNat < b.toNat then 1#64 else 0#64
  | _ => if a = b then 1#64 else 0#64

/-- Operand B (R100). -/
def sOperandB (k : Cor) (w : W64) : W64 := if sI w then BitVec.ofInt 64 (sext (sImm w) 32) else k.s (sB w)

/-- The bundle a taken branch goes to, none where the slot does not branch. -/
def sTarget (k : Cor) (w : W64) : Option Int :=
  let rel : Int := (k.pc : Int) + sext (sImm w) 32
  match sOp w with
  | 0x20 => some rel
  | 0x21 => if k.s (sA w) = 0#64 then some rel else none
  | 0x22 => if k.s (sA w) ≠ 0#64 then some rel else none
  | 0x23 => if (k.s (sA w)).toInt < (k.s (sB w)).toInt then some rel else none
  | 0x24 => some rel
  | 0x25 => some (k.s (sA w)).toNat
  | _ => none

/-- Causes of Table 4-12 that the slot meets. -/
def sCauses (k : Cor) (w : W64) : List Nat :=
  if sIllegal w then [1]
  else
    let sp := k.sSpoilt (sA w)
    (if sOp w = 0x3E then [2] else []) ++
    (match sTarget k w with
     | some t => if t < 0 ∨ t ≥ k.extent then [3] else []
     | none => []) ++
    (if (sOp w = 0x21 ∨ sOp w = 0x22 ∨ sOp w = 0x25) ∧ sp then [6] else []) ++
    (if sOp w = 0x23 ∧ (sp ∨ k.sSpoilt (sB w)) then [6] else [])

/-- The slot's register write; `cyc` is the core cycle of issue. -/
def sExec (k0 k : Cor) (e : Env) (w : W64) (cyc : Nat) : Cor :=
  let op := sOp w
  if aluOp op then k.setS (sD w) (alu op (k0.s (sA w)) (sOperandB k0 w)) (k0.sSpoilt (sA w) || (!sI w && k0.sSpoilt (sB w)))
  else
    match op with
    | 0x10 => k.setS (sD w) (BitVec.ofNat 64 (sImm w * 2 ^ 32 + (k0.s (sA w)).toNat % 2 ^ 32)) (k0.sSpoilt (sA w))
    | 0x24 => k.setS (sD w) (BitVec.ofNat 64 (k0.pc + 1)) false
    | 0x30 => k.setS (sD w) (k0.special e (sImm w % 256) cyc) false
    | _ => k

/-- WRSR's W1C clear of VFLAGS; every other special register is RO (Table 4-8). -/
def sClear (k : Cor) (w : W64) : Cor :=
  if sOp w = 0x31 ∧ sImm w % 256 = 6 then { k with vflags := k.vflags &&& ~~~((k.s (sA w)).setWidth 8) } else k

def sLatency (w : W64) : Nat := if sOp w = 3 ∨ sOp w = 4 ∨ sOp w = 0x30 then 3 else 1

/-! ## Transfer slot (Tables 4-9 and 4-10) -/

def tOp (w : W64) : Nat := sf w 63 58
def tD (w : W64) : Nat := sf w 57 53
def tA (w : W64) : Nat := sf w 52 48
def tB (w : W64) : Nat := sf w 47 43
def tPR (w : W64) : Nat := sf w 42 40
def tPN (w : W64) : Nat := sf w 39 39
def tTrg (w : W64) : Bool := nbit w.toNat 38
def tCtr (w : W64) : Nat := sf w 37 26
def tImm (w : W64) : Nat := sf w 25 0

/-- Vector transfers take a predicate. -/
def tVector (op : Nat) : Bool := decide (8 ≤ op ∧ op ≤ 0xF)

/-- Loads, stores and AADD: the accesses of which 16 may be outstanding. -/
def tAccess (op : Nat) : Bool := decide (1 ≤ op ∧ op ≤ 5) || tVector op
def tCopy (op : Nat) : Bool := op == 0x10 || op == 0x11
def tStores (op : Nat) : Bool := [3, 4, 5, 9, 0xB, 0xD, 0xF].contains op

def tKnown (op : Nat) : Bool :=
  op == 0 || tAccess op || tCopy op || [0x18, 0x19, 0x1A, 0x1B, 0x20, 0x28, 0x29].contains op

/-- Encodings and uses that make the bundle illegal (R98, R105, R112, R114, R115). -/
def tIllegal (k : Cor) (w : W64) : Bool :=
  let op := tOp w
  if op = 0 then sf w 57 0 != 0
  else
    !tKnown op || (!tVector op && (tPR w != 0 || tPN w != 0)) ||
    ((op == 0x18 || op == 0x19 || op == 0x1A || op == 0x1B) && tTrg w) ||
    ((op == 0xC || op == 0xD) && tD w % 2 == 1) || ((op == 0xE || op == 0xF) && decide (tD w ≥ 16)) ||
    (op == 0x20 && decide (tImm w > 1)) ||
    (op == 0x28 && (decide (24 ≤ tD w ∧ tD w ≤ 30) || k.item.isSome)) ||
    (op == 0x29 && k.item.isNone)

/-- Scratchpad word address A (R105). -/
def tAddr (k : Cor) (w : W64) : Nat := ((((k.s (tA w)).toNat % 2 ^ 29 : Nat) + sext (tImm w) 26) % 2 ^ 29).toNat

def tSrcs (w : W64) : List Nat :=
  let p := if tVector (tOp w) then [nP (tPR w)] else []
  p ++ match tOp w with
  | 0x01 => [tA w]
  | 0x02 => [tA w]
  | 0x03 => [tD w, tA w]
  | 0x04 => [tD w, tA w]
  | 0x05 => [tA w, tB w]
  | 0x08 => [tA w, tB w]
  | 0x09 => [tA w, tB w, nV (tD w)]
  | 0x0A => [tA w, nV (tB w)]
  | 0x0B => [tA w, nV (tB w), nV (tD w)]
  | 0x0C => [tA w]
  | 0x0D => [tA w, nV (tD w), nV (tD w + 1)]
  | 0x0E => [tA w]
  | 0x0F => [tA w, nX (tD w % 16)]
  | 0x10 => [tD w, tA w, tB w]
  | 0x11 => [tD w, tA w, tB w]
  | 0x19 => [tA w]
  | 0x1B => [tA w]
  | _ => []

/-- Registers that a transfer writes, at issue or when it is performed. -/
def tDstsOf (op td : Nat) : List Nat :=
  match op with
  | 0x01 => [td]
  | 0x02 => [td]
  | 0x05 => [td]
  | 0x08 => [nV td]
  | 0x0A => [nV td]
  | 0x0C => [nV td, nV (td + 1)]
  | 0x0E => [nX (td % 16)]
  | 0x1A => [td]
  | 0x28 => td :: from_ 24 7
  | _ => []

def tDsts (w : W64) : List Nat := tDstsOf (tOp w) (tD w)

/-- Units of a copy and its device memory address. -/
def tUnits (k : Cor) (w : W64) : Nat := (k.s (tB w)).toNat % 65536 + 1
def tDev (k : Cor) (w : W64) : Nat := (k.s (tD w)).toNat % 2 ^ 40

/-- Causes of Table 4-12 that the slot meets. -/
def tCauses (s : State) (k : Cor) (w : W64) : List Nat :=
  if tIllegal k w then [1]
  else
    let op := tOp w
    let on := lanesOf (k.active (tPR w) (tPN w))
    (if (op = 2 ∨ op = 4 ∨ op = 0xC ∨ op = 0xD) ∧ tAddr k w % 2 = 1 then [4] else []) ++
    (if tCopy op ∧ tDev k w % 32 ≠ 0 then [4] else []) ++
    (if tCopy op ∧ ((List.range (tUnits k w)).any fun i => (s.rgnAt (tDev k w + 32 * i)).isNone) then [5] else []) ++
    (if ((tAccess op ∨ tCopy op ∨ op = 0x19 ∨ op = 0x1B) ∧ k.sSpoilt (tA w)) ∨ ((op = 8 ∨ op = 9 ∨ tCopy op) ∧ k.sSpoilt (tB w))
        ∨ (tCopy op ∧ k.sSpoilt (tD w)) ∨ ((op = 0xA ∨ op = 0xB) ∧ on.any fun i => k.vSpoilt (tB w) i) then [6] else [])

/-- Word addresses of an access, in the order of its lanes (Table 4-10). -/
def accWords (a : TAcc) : List Nat :=
  let on := lanesOf a.act
  match a.top with
  | 2 => wordsFrom a.base 2
  | 4 => wordsFrom a.base 2
  | 8 => on.map fun i => (a.base + i * a.stride) % 2 ^ 29
  | 9 => on.map fun i => (a.base + i * a.stride) % 2 ^ 29
  | 0xA => on.map fun i => (a.base + a.idx.getD i 0) % 2 ^ 29
  | 0xB => on.map fun i => (a.base + a.idx.getD i 0) % 2 ^ 29
  | 0xC => on.flatMap fun i => wordsFrom (a.base + 2 * i) 2
  | 0xD => on.flatMap fun i => wordsFrom (a.base + 2 * i) 2
  | 0xE => on.flatMap fun i => wordsFrom (a.base + 12 * i) 12
  | 0xF => on.flatMap fun i => wordsFrom (a.base + 12 * i) 12
  | _ => [a.base]

/-- The words a store carries, in the order of `accWords`. -/
def tData (k : Cor) (w : W64) : List (W32 × Bool) :=
  let on := lanesOf (k.active (tPR w) (tPN w))
  let td := tD w
  match tOp w with
  | 3 => [((k.s td).setWidth 32, k.sSpoilt td)]
  | 4 => [((k.s td).setWidth 32, k.sSpoilt td), ((k.s td >>> 32).setWidth 32, k.sSpoilt td)]
  | 5 => [((k.s (tB w)).setWidth 32, k.sSpoilt (tB w))]
  | 0xD => on.flatMap fun i => [(k.v td i, k.vSpoilt td i), (k.v (td + 1) i, k.vSpoilt (td + 1) i)]
  | 0xF => on.flatMap fun i => ((k.x (td % 16) i).words).map fun x => (x, k.xSpoilt (td % 16) i)
  | _ => on.map fun i => (k.v td i, k.vSpoilt td i)

/-- The access as issued, with none of its requests sent. -/
def tAccOf (k : Cor) (w : W64) : TAcc :=
  { id := k.nextId, top := tOp w, td := tD w, base := tAddr k w, act := k.active (tPR w) (tPN w),
    stride := (k.s (tB w)).toNat % 2 ^ 29,
    idx := if tOp w = 0xA ∨ tOp w = 0xB then (List.range 64).map fun i => (k.v (tB w) i).toNat % 2 ^ 29 else [],
    data := if tStores (tOp w) then tData k w else [], trg := if tTrg w then some (tCtr w) else none,
    dev := tDev k w, units := tUnits k w, todo := [], left := 0, got := [] }


/-- The line requests of a scratchpad access of core `c` (R105, R125): a load reads each word once, stores keep the order of their
lanes, and an AADD is one access (R135). -/
def accReqs (c : Nat) (a : TAcc) : List BankReq :=
  let ws := accWords a
  if a.top = 5 then
    let d := a.data.headD (0#32, false)
    [{ (lineReq (.t c a.id) c a.base false).cover a.base 15 d.1 d.2 with aadd := true }]
  else if tStores a.top then wordWrites (.t c a.id) c (ws.zip a.data)
  else lineReads (.t c a.id) c ws.dedup

/-- The words of unit `n` of a copy. -/
def TAcc.unitWords (a : TAcc) (n : Nat) : List Nat := wordsFrom (a.base + 8 * n) 8

/-- A copy as issued: every unit is still to be requested of device memory; an HGET ends when its last line is written, an HPUT when
its last unit is (R105). -/
def TAcc.copying (a : TAcc) : TAcc :=
  { a with todo := List.range a.units
           left := if a.top = 0x10 then (List.range a.units).foldl (fun x n => x + (((a.unitWords n).map (· / 4)).dedup).length) 0 else a.units }

/-- The scratchpad reads of an HPUT enter at the edge stop of its core's terrace (R128). -/
def State.copyReads (s : State) (c : Nat) (a : TAcc) : State :=
  if a.top = 0x11 then
    (List.range a.units).foldl (fun t n =>
      (lineReads (.copyRd c a.id n) (edgeOf (c / 128)) (a.unitWords n)).foldl (fun t q => t.injectReq (edgeOf (c / 128)) q) t) s
  else s

/-! ## Work items (R114, R115) -/

/-- Registers that GETW writes (R114): TD the OPC and TAG, s24 to s30 the arguments. -/
def getwRegs (k : Cor) (td : Nat) (ws : List (W32 × Bool)) : Cor :=
  let w := fun i => (ws.getD i (0#32, false))
  let k := k.setS td (BitVec.ofNat 64 ((w 0).1.toNat % 65536 * 2 ^ 32 + (w 1).1.toNat)) ((w 0).2 || (w 1).2)
  (List.range 7).foldl (fun a i =>
    a.setS (24 + i) ((w (2 * i + 3)).1 ++ (w (2 * i + 2)).1) ((w (2 * i + 3)).2 || (w (2 * i + 2)).2)) k

/-- Removes head entries of core `owner`'s queues that fail their check and gives the first that passes: queue, index
and words. `n` bounds the entries looked at. -/
def getwScan : Nat → State → Nat → State × Option (Nat × Nat × List (W32 × Bool))
  | 0, s, _ => (s, none)
  | n + 1, s, owner =>
    match s.headQueue owner with
    | none => (s, none)
    | some q =>
      let i := (s.que q).head
      let r := s.entryAt (.core owner) q i
      let w0 := (r.2.getD 0 (0#32, false)).1
      match entryCheck w0 with
      | none => (r.1, some (q, i, r.2))
      | some st => getwScan n ((r.1.popHead q).dropEntry q i (r.2.getD 1 (0#32, false)).1 st) owner

/-- Entries waiting in the core's queues: a bound for the scan. -/
def State.waitingEntries (s : State) (c : Nat) : Nat :=
  (List.range 4).foldl (fun a i =>
    match s.cwqOf c i with
    | some q => a + ((s.que q).tail + 2 ^ (s.que q).log2n - (s.que q).head) % 2 ^ (s.que q).log2n
    | none => a) 0

/-- Core `c` starts the entry (queue, index, words) whose home core is `home`. -/
def State.startItem (s : State) (c home q i : Nat) (ws : List (W32 × Bool)) : State :=
  let u := s.unitAt q i
  let s := (s.popHead q).updTrain fun t => { t with posts := t.posts.filter fun p => !(p.1 == q && p.2.1 == i) }
  s.updCore c fun k => { k with
    item := some { q := q, tag := (ws.getD 1 (0#32, false)).1, home := home,
                   notify := (ws.getD 0 (0#32, false)).1.getLsbD 21, job := u }
    idleq := false }

/-! ## Stalls and exceptions -/

/-- The environment of core `c`. -/
def State.envOf (s : State) (c : Nat) : Env :=
  { seed := (s.host.job.map (·.seed)).getD 0#64, det := (s.host.job.map (·.detmode)).getD 0, lnode := s.fab.lnode, core := c }

/-- Registers with a write that an outstanding transfer or counter read has yet to make (R97). -/
def State.pendingRegs (s : State) (c : Nat) : List Nat :=
  ((s.core c).tacc.flatMap fun a => tDstsOf a.top a.td) ++
  s.coll.reqs.filterMap fun r => match r.src, r.op with
    | .core d dst _, .read => if d = c then some dst else none
    | _, _ => none

/-- The slots of a bundle (Table 4-2). -/
def slotS (b : BitVec 256) : W64 := b.setWidth 64
def slotV (b : BitVec 256) : W64 := (b >>> 64).setWidth 64
def slotM (b : BitVec 256) : W64 := (b >>> 128).setWidth 64
def slotT (b : BitVec 256) : W64 := (b >>> 192).setWidth 64

/-- Register writes that do not count: s0 and p0 (R94). -/
def realDst (r : Nat) : Bool := r != 0 && r != 64

def bundleSrcs (b : BitVec 256) : List Nat :=
  sSrcs (slotS b) ++ (if vGroup (vfOf (slotV b)).op = .nop then [] else (vfOf (slotV b)).srcs) ++
    (mRegs (slotM b)).filter (· < 32) ++ tSrcs (slotT b)
def bundleDsts (b : BitVec 256) : List Nat := (sDsts (slotS b) ++ (vfOf (slotV b)).dsts ++ tDsts (slotT b)).filter realDst

/-- FENCE's conditions (R112). -/
def fenceOk (k : Cor) (scope : Nat) : Bool :=
  !(k.tacc.any fun a => tStores a.top) && (scope == 0 || (k.hacc.isEmpty && k.mQuiet))

/-- Stalls that come from outside the S and V results (R97): pending writes, full units, an unsatisfied FENCE. -/
def State.stalled (s : State) (c : Nat) (b : BitVec 256) : Bool :=
  let k := s.core c
  let pend := s.pendingRegs c
  let t := slotT b
  (bundleSrcs b ++ bundleDsts b).any (fun r => realDst r && pend.contains r) ||
  (tAccess (tOp t) && decide (k.tacc.length ≥ 16)) || (tCopy (tOp t) && decide (k.hacc.length ≥ 8)) ||
  (mRejectEarly k (slotM b) == 0 && mStall k (slotM b))

/-- Two slots write one register (R98): the first of them, in the order S, V, T. -/
def twoWrites (b : BitVec 256) : List (Nat × Nat) :=
  let sd := (sDsts (slotS b)).filter realDst
  let vd := ((vfOf (slotV b)).dsts).filter realDst
  let td := (tDsts (slotT b)).filter realDst
  if sd.any (fun r => vd.contains r || td.contains r) then [(1, 0)]
  else if vd.any (fun r => td.contains r) then [(1, 1)] else []

/-- Every cause the bundle meets, with its slot (R121); `now` in the cycle in which it would issue. -/
def State.causes (s : State) (c : Nat) (b : BitVec 256) (now : Bool) : List (Nat × Nat) :=
  let k := s.core c
  let v := vfOf (slotV b)
  (sCauses k (slotS b)).map (·, 0) ++
  (if v.illegal (slotV b) then [(1, 1)] else if v.spoilUse k then [(6, 1)] else []) ++
  (if (if now then mReject k (slotM b) else mRejectEarly k (slotM b)) ≠ 0 then [(1, 2)] else []) ++
  (if (mRegs (slotM b)).any (fun r => k.sSpoilt r) then [(6, 2)] else []) ++
  (tCauses s k (slotT b)).map (·, 3) ++ twoWrites b

/-- The lowest code, and the first slot among those with it in the order S, V, M, T. -/
def lowestCause (l : List (Nat × Nat)) : Option (Nat × Nat) :=
  match l with
  | [] => none
  | x :: xs => some (xs.foldl (fun a y => if y.1 < a.1 ∨ (y.1 = a.1 ∧ y.2 < a.2) then y else a) x)

/-- A core is retired (R396): steps 1 and 2 begin; steps 3 to 5 follow when it is quiet. -/
def State.retireCore (s : State) (c : Nat) : State :=
  if (s.core c).retired then s
  else s.updCore c fun k => { k with st := .stopped, retiring := true, waiting := false, idleq := false, tpend := false, testing := false }

/-- CORE_EXCEPTION (R121, R395): COR_EXC, the report, window 7 for cause 0x08, the item ended with ABORTED. TRAP's code IMM[15:0] is
kept nowhere: no register and no record of the spec has a place for it [183]. -/
def State.coreException (s : State) (c cause slot : Nat) : State :=
  let k := s.core c
  let pc := k.pc % 2048
  let s := s.updCore c fun k => { k with st := .stopped, excCause := cause, excSlot := slot, excPc := pc,
                                         waiting := false, waitOn := none, waitOk := false, idleq := false }
  let s := s.report (rep 2 (c / 64) 0 (c % 64) 0x20 (cause + pc * 256))
  let s := s.endItem c 0x109 (BitVec.ofNat 32 cause) (BitVec.ofNat 32 pc) true
  if cause = 8 then s.winEvent 7 c (·.retireCore c) else s

/-! ## Issue -/

/-- The core cycle in which the bundle issues (R97, R99): after the last bundle, branch gaps, the vector interval and
every S and V result it names; `wait` counts only where the cycle does not follow from the program. -/
def issueCycle (k : Cor) (b : BitVec 256) (wait : Nat) : Nat :=
  let late := (bundleSrcs b ++ bundleDsts b).foldl (fun a r => if realDst r then max a (tget 0 k.rdy r) else a) (max (k.cyc + 1) k.nextAt)
  let late := if vGroup (vfOf (slotV b)).op = .nop then late else max late k.vFree
  let op := tOp (slotT b)
  if k.async ∨ op = 0x1B ∨ op = 0x20 ∨ op = 0x28 ∨ mopOf (slotM b) = 0x1C then late + wait else late

/-- All four slots issue together in cycle `t` (R97, R98): every slot reads core `k` as it stands, then all write.
`getw` is the entry a GETW takes. -/
def State.issueAll (s : State) (c : Nat) (b : BitVec 256) (t : Nat) : State :=
  let k := s.core c
  let e := s.envOf c
  let v := vfOf (slotV b)
  let w := slotT b
  let k1 := v.exec (sClear k (slotS b)) e
  let k2 := sExec k k1 e (slotS b) t
  let k3 := mIssue k k2 e (slotM b)
  let a := { tAccOf k w with id := k3.nextId }
  let k4 :=
    if tAccess (tOp w) then { k3 with tacc := k3.tacc ++ [{ a with left := (accReqs c a).length }], nextId := k3.nextId + 1 }
    else if tCopy (tOp w) then { k3 with hacc := k3.hacc ++ [a.copying], nextId := k3.nextId + 1 }
    else k3
  let rdy := ((sDsts (slotS b)).filter realDst).foldl (fun a r => tput a r (t + sLatency (slotS b))) k4.rdy
  let rdy := (v.dsts.filter realDst).foldl (fun a r => tput a r (t + v.time.2)) rdy
  let tgt := sTarget k (slotS b)
  let k5 := { k4 with
    cyc := t, rdy := rdy, async := false, waitOn := none, waitOk := false, waiting := false,
    vFree := if vGroup v.op = .nop then k4.vFree else t + v.time.1,
    nextAt := if tgt.isSome then t + 3 else t + 1,
    pc := match tgt with
      | some x => x.toNat
      | none => k.pc + 1 }
  let s := s.updCore c fun _ => k5
  let s := if tAccess (tOp w) then s.sendReqs c 0 (accReqs c a) else if tCopy (tOp w) then s.copyReads c a else s
  let n := tCtr w
  match tOp w with
  | 0x18 => s.ctrAsk (.core c 0 k.nextId) n (.add (BitVec.ofNat 48 (tImm w)))
  | 0x19 => s.ctrAsk (.core c 0 k.nextId) n (.set ((k.s (tA w)).setWidth 48))
  | 0x1A => s.ctrAsk (.core c (tD w) k.nextId) n .read
  | 0x20 => s.ctrTrg (.core c 0 0) a.trg
  | 0x28 => s.ctrTrg (.core c 0 0) a.trg
  | 0x29 =>
    let code := tImm w % 65536
    (s.endItem c (if code = 0 then 2 else 0x10B) (BitVec.ofNat 32 code) 0#32 false).ctrTrg (.core c 0 0) a.trg
  | _ => s

/-- A bundle with GETW issues with the entry it takes: its other slots as above, and the entry's registers after
them, ready two cycles later (R99, R114). -/
def State.issueGetw (s : State) (c home : Nat) (b : BitVec 256) (t : Nat) (q i : Nat) (ws : List (W32 × Bool)) : State :=
  let s := (s.issueAll c b t).startItem c home q i ws
  s.updCore c fun k =>
    let k := getwRegs k (tD (slotT b)) ws
    { k with rdy := ((tD (slotT b) :: from_ 24 7).filter realDst).foldl (fun a r => tput a r (t + 2)) k.rdy }

/-- The bundle at the PC. -/
def Cor.bundle (k : Cor) : BitVec 256 := tget 0#256 k.imem k.pc

/-- The exception of a bundle that meets cause `x` (R121); an M operation of a condition of Table 3-8 writes LASTERR whichever cause
is recorded. -/
def State.bundleFault (s : State) (c : Nat) (rj : Nat) (x : Nat × Nat) : State :=
  (if rj ≠ 0 then s.updCore c fun k => { k with lastErr := BitVec.ofNat 8 rj } else s).coreException c x.1 x.2

/-- The bundle's exception in the cycle in which it would issue, if it has one. -/
def State.lateFault (s : State) (c : Nat) (b : BitVec 256) : Option State :=
  (lowestCause (s.causes c b true)).map fun x => s.bundleFault c (mReject (s.core c) (slotM b)) x

/-- The bundle issues, or takes the exception it meets in that cycle. -/
def State.issueOr (s : State) (c : Nat) (b : BitVec 256) (t : Nat) : State := (s.lateFault c b).getD (s.issueAll c b t)

/-- The bundle with GETW issues with entry `e` (queue, index, words) of core `home`'s queues, which `r` holds; an exception leaves
every queue of `s` as it is. -/
def State.getwOr (s r : State) (c home : Nat) (b : BitVec 256) (t : Nat) (e : Nat × Nat × List (W32 × Bool)) : State :=
  (s.lateFault c b).getD (r.issueGetw c home b t e.1 e.2.1 e.2.2)

/-- The core stalls in GETW (R97, R119). -/
def State.goIdle (s : State) (c : Nat) : State := s.updCore c fun k => { k with idleq := true, idleAt := s.hubNow }

/-- BUNDLE_ISSUE (R97). A core that is not in RUN, or whose bundle stalls, issues nothing. A PC past the loaded extent raises 0x03,
whether a branch or the bundle before it led there [182], and 0x03 there and 0x08 record slot S [181]. -/
def execBundleIssue (c wait : Nat) (ierr : Bool) (s : State) : Res :=
  unit c 512 <|
    let k := s.core c
    if k.st ≠ .run then .next s
    else if k.pc ≥ k.extent then .next (s.coreException c 3 0)
    else if ierr then .next (s.coreException c 8 0)
    else
      let b := k.bundle
      if s.stalled c b then .next s
      else
        match lowestCause (s.causes c b false) with
        | some x => .next (s.bundleFault c (mRejectEarly k (slotM b)) x)
        | none =>
          let t := issueCycle k b wait
          let w := slotT b
          match tOp w with
          | 0x1B =>
            let thr := (k.s (tA w)).toNat % 2 ^ 48
            if k.waiting then .next s
            else if k.waitOk then .next (s.issueOr c b t)
            else
              let r := s.ctrRead (.core c 0 0) (tCtr w)
              if r.2.toNat ≥ thr then .next (r.1.issueOr c b t)
              else .next (r.1.updCore c fun k => { k with waiting := true, waitOn := some (tCtr w, thr) })
          | 0x20 => if fenceOk k (tImm w % 4) then .next (s.issueOr c b t) else .next s
          | 0x28 =>
            if k.idleq then .next s
            else if k.tpend ∨ k.held then .next (s.goIdle c)
            else
              let r := getwScan (s.waitingEntries c + 1) s c
              (match r.2 with
               | some e => .next (s.getwOr r.1 c c b t e)
               | none => .next (r.1.goIdle c))
          | _ => .next (s.issueOr c b t)

end Sys2Proof.Machine
end

