-- ==== Sys2Proof/Machine/CoreOps.lean ====
section
/-! DEFINITION. The core's other commands (04): transfers performed, waits, work items, balancing, self-test. -/

namespace Sys2Proof.Machine

/-! ## Transfers performed (R105, R107, R111) -/

/-- Puts the words of a load into its destination. -/
def loadInto (k : Cor) (a : TAcc) (ws : List (W32 × Bool)) : Cor :=
  let w := fun i => ws.getD i (0#32, false)
  let on := lanesOf a.act
  match a.top with
  | 1 => k.setS a.td ((w 0).1.setWidth 64) (w 0).2
  | 2 => k.setS a.td ((w 1).1 ++ (w 0).1) ((w 0).2 || (w 1).2)
  | 5 => k.setS a.td ((w 0).1.setWidth 64) (w 0).2
  | 0xC => on.zipIdx.foldl (fun k x => (k.setV a.td x.1 (w (2 * x.2)).1 (w (2 * x.2)).2).setV (a.td + 1) x.1 (w (2 * x.2 + 1)).1 (w (2 * x.2 + 1)).2) k
  | 0xE => on.zipIdx.foldl (fun k x =>
      let r := (ws.drop (12 * x.2)).take 12
      k.setX (a.td % 16) x.1 (exOfWords (r.map (·.1))).1 (r.any (·.2))) k
  | _ => on.zipIdx.foldl (fun k x => k.setV a.td x.1 (w x.2).1 (w x.2).2) k

/-- XLD's format errors (R107): one report for each bad record of one XLD, against its core, INFO the record's word address; the rule
gives the cause alone [184]. -/
def State.xldReports (s : State) (c : Nat) (a : TAcc) (ws : List (W32 × Bool)) : State :=
  if a.top ≠ 0xE then s
  else (lanesOf a.act).zipIdx.foldl (fun t x =>
    if (exOfWords (((ws.drop (12 * x.2)).take 12).map (·.1))).2 then t
    else t.report (rep 2 (c / 64) 0 (c % 64) 0x31 ((a.base + 12 * x.1) % 2 ^ 29))) s

/-- What a performed access leaves in the core: a load's or AADD's words go to their destination. -/
def State.accDone (s : State) (c : Nat) (a : TAcc) : State :=
  if tStores a.top && a.top != 5 then s
  else
    let ws := (accWords a).map (wordIn a.got)
    (s.updCore c fun k => loadInto k a ws).xldReports c a ws

/-- T_ACCESS_PERFORMED (R105, R111): every line of outstanding access `i` of core `c` has been performed at its bank and answered;
its registers are written and its counter is raised. -/
def execTAccessPerformed (c i : Nat) (s : State) : Res :=
  unit c 512 <|
    match (s.core c).tacc[i]? with
    | none => .next s
    | some a =>
      when (a.left == 0) s
        (((s.updCore c fun k => { k with tacc := k.tacc.eraseIdx i, async := true }).accDone c a).ctrTrg (.core c 0 0) a.trg)

/-- HGET_HPUT_COMPLETE (R105): copy `i` of core `c` has written its last byte and its counter is raised. -/
def execHgetHputComplete (c i : Nat) (s : State) : Res :=
  unit c 512 <|
    match (s.core c).hacc[i]? with
    | none => .next s
    | some a =>
      when (a.left == 0) s ((s.updCore c fun k => { k with hacc := k.hacc.eraseIdx i, async := true }).ctrTrg (.core c 0 0) a.trg)

/-! ## Waits (R110) -/

/-- The stalled WAIT's condition holds. -/
def State.waitHolds (s : State) (c : Nat) : Bool :=
  match (s.core c).waitOn with
  | some x => decide ((s.ctrSeen x.1).toNat ≥ x.2)
  | none => false

/-- WAIT_SATISFIED (R110): the condition has held at some change of its counter, or holds; the bundle may issue. -/
def execWaitSatisfied (c : Nat) (s : State) : Res :=
  unit c 512 <|
    when ((s.core c).waiting && ((s.core c).waitOk || s.waitHolds c)) s (s.updCore c fun k => { k with waiting := false, waitOk := true, async := true })

/-- WAIT_TIME_LIMIT (R110): a WAIT unsatisfied for COR_WAIT_LIMIT µs raises exception 0x07 in slot T. -/
def execWaitTimeLimit (c us : Nat) (s : State) : Res :=
  unit c 512 <|
    let k := s.core c
    when (k.waiting && !k.waitOk && !s.waitHolds c && k.waitLimit != 0#32 && decide (us ≥ k.waitLimit.toNat) && k.st == .run) s (s.coreException c 7 3)

/-! ## Work (R114, R117 to R119) -/

/-- A core stalled in a GETW that may take an entry. -/
def Cor.wantsWork (k : Cor) : Bool := k.st == .run && k.idleq && !k.tpend && !k.held

/-- Every queue of the core is empty. -/
def State.queuesEmpty (s : State) (c : Nat) : Bool := (s.headQueue c).isNone

/-- GETW_TAKE (R114): the stalled GETW takes the head entry and its bundle issues, after `wait` core cycles of stall. -/
def execGetwTake (c wait : Nat) (s : State) : Res :=
  unit c 512 <|
    let k := s.core c
    if k.wantsWork then
      let r := getwScan (s.waitingEntries c + 1) s c
      match r.2 with
      | some e => .next ((s.getwOr r.1 c c k.bundle (issueCycle { k with async := true } k.bundle wait) e).updCore c fun k => { k with async := true })
      | none => .next r.1
    else .next s

/-- Group size and first core of a core's balancing group (R117). -/
def groupOf (j : JobCfg) (c : Nat) : Nat × Nat :=
  let n := if j.group = 1 then 128 else 64
  (c / n * n, n)

/-- The owner's own stalled GETW takes this head in the same cycle: the owner wins (R119). -/
def State.ownerTakes (s : State) (o q : Nat) : Bool := (s.core o).wantsWork && s.headQueue o == some q

/-- The first entry a balancing core may take (R117): queue and owner. `waits` gives how long each queue's head has
waited, in µs; AGE counts as 0 for an owner in or pending a self-test. -/
def State.balCandidate (s : State) (j : JobCfg) (c : Nat) (waits : List (Nat × Nat)) : Option (Nat × Nat) :=
  let g := groupOf j c
  (from_ 1 (g.2 - 1)).findSome? fun d =>
    let o := g.1 + (c - g.1 + d) % g.2
    (List.range 4).findSome? fun i =>
      match s.cwqOf o i with
      | none => none
      | some q =>
        let e := s.que q
        let w0 := ((s.entryAt (.core c) q e.head).2.getD 0 (0#32, false)).1
        let age := if (s.core o).st = .test ∨ (s.core o).tpend then 0 else j.age
        if e.has && w0.getLsbD 20 && decide (tget 0 waits q ≥ age) && !s.ownerTakes o q then some (q, o) else none

/-- A core that asks for a balancing take: stalled in GETW with every queue of its own empty (R117). -/
def State.balAsks (s : State) (j : JobCfg) (waits : List (Nat × Nat)) (c : Nat) : Bool :=
  (s.core c).wantsWork && s.queuesEmpty c && (s.balCandidate j c waits).isSome

/-- The core that is served among those that ask (R119): the one that has waited longest, ties by the rotating index over its group. -/
def State.balPick (s : State) (j : JobCfg) (able : List Nat) : Option Nat :=
  match able with
  | [] => none
  | c0 :: _ =>
    let oldest := (able.map fun c => (s.core c).idleAt).foldl min (s.core c0).idleAt
    let tied := able.filter fun c => (s.core c).idleAt == oldest
    let g := groupOf j (tied.headD c0)
    (firstFrom (tget 0 s.train.balRot g.1) g.2 fun i => tied.contains (g.1 + i)).map (g.1 + ·)

/-- One balancing grant among the requesters left (R119), each with the core cycles it has stalled: an entry that fails its check is
dropped, and one that passes is granted, which moves the group's index to the core after. -/
def State.balGrant (s : State) (j : JobCfg) (cs waits : List (Nat × Nat)) : State × List (Nat × Nat) :=
  match s.balPick j ((cs.map (·.1)).filter (s.balAsks j waits)) with
  | none => (s, [])
  | some c =>
    match s.balCandidate j c waits with
    | none => (s, tdel cs c)
    | some qo =>
      let i := (s.que qo.1).head
      let r := s.entryAt (.core c) qo.1 i
      match entryCheck (r.2.getD 0 (0#32, false)).1 with
      | some st => ((r.1.popHead qo.1).dropEntry qo.1 i (r.2.getD 1 (0#32, false)).1 st, cs)
      | none =>
        let k := s.core c
        let g := groupOf j c
        let t := issueCycle { k with async := true } k.bundle (tget 0 cs c)
        (((s.getwOr r.1 c qo.2 k.bundle t (qo.1, i, r.2)).updCore c fun k => { k with async := true }).updTrain fun t =>
          { t with balRot := tput t.balRot g.1 ((c - g.1 + 1) % g.2) }, tdel cs c)

/-- BALANCING_TAKE (R117 to R119): the idle cores `cs` request in hub cycle `cyc`; only with balancing enabled and DETMODE 0. -/
def execBalancingTake (cs waits : List (Nat × Nat)) (cyc : Nat) (s : State) : Res :=
  if cs.any (fun c => decide (c.1 ≥ 512)) then .fault .noSuchUnit
  else
    match s.host.job with
    | none => .next s
    | some j =>
      if j.dlb && j.detmode == 0 then
        .next ((List.range (cs.length + 64)).foldl (fun (a : State × List (Nat × Nat)) _ => a.1.balGrant j a.2 waits)
          (s.hubAt cyc, cs)).1
      else .next s

/-! ## Retirement (R396) -/

/-- Nothing of the core is outstanding (R396 step 2, Table 4-13 step 3). -/
def State.coreQuiet (s : State) (c : Nat) : Bool :=
  let k := s.core c
  k.tacc.isEmpty && k.hacc.isEmpty && k.mQuiet &&
  !(s.coll.reqs.any fun r => match r.src with
    | .core d _ _ => d == c
    | .array d _ => d == c
    | _ => false)

/-- Steps 3 to 5 of R396: the item ends with ABORTED, each CWQ enters ERROR with its entries aborted, RETIRED = 1. -/
def State.finishRetire (s : State) (c cause : Nat) : State :=
  if (s.core c).retired then s
  else
    let s := s.endItem c 0x109 (BitVec.ofNat 32 (s.core c).excCause) (BitVec.ofNat 32 (s.core c).excPc) true
    let s := (List.range 4).foldl (fun t i =>
      match t.cwqOf c i with
      | some q => (t.abortEntries (.core c) q).queueError q
      | none => t) s
    (s.updCore c fun k => { k with st := .stopped, retired := true, retiring := false, tpend := false, testing := false }).ledg
      1 (c / 64) 0 (c % 64) [BitVec.ofNat 8 cause]

/-! ## In-field self-test (R122, Table 4-13) -/

/-- CORE_SELFTEST_SELECT: step 1. `sec` counts from the core's last window, or from its cancellation. -/
def execCoreSelftestSelect (c sec : Nat) (s : State) : Res :=
  unit c 512 <|
    let k := s.core c
    let interval := match s.host.job with
      | some j => j.testInt
      | none => 600
    let due := if k.tcancel then decide (sec ≥ 1) else decide (sec ≥ interval)
    let busy := (from_ (c / 64 * 64) 64).any fun d => (s.core d).tpend || (s.core d).st == .test
    when (k.st == .run && !k.retired && due && !busy) s (s.updCore c fun k => { k with tpend := true, tcancel := false })

/-- No watershed is open, and no VOTE waits. -/
def State.between (s : State) : Bool :=
  s.train.ws != .open_ && s.train.ws != .voting && s.train.ws != .unresolved && s.train.votes.isEmpty

/-- CORE_SELFTEST_ENTER: step 2, at a GETW with no item; with STEP_ONLY only between an outcome and the next step. -/
def execCoreSelftestEnter (c : Nat) (s : State) : Res :=
  unit c 512 <|
    let k := s.core c
    let stepOk := match s.host.job with
      | some j => !j.stepOnly || s.between
      | none => true
    when (k.st == .run && k.tpend && k.item.isNone && tOp (slotT k.bundle) == 0x28 && decide (k.pc < k.extent) && stepOk) s
      (s.updCore c fun k => { k with st := .test, tpend := false, testing := false, idleq := true })

/-- CORE_SELFTEST_START: step 3, once the core is quiet. -/
def execCoreSelftestStart (c : Nat) (s : State) : Res :=
  unit c 512 <| when ((s.core c).st == .test && !(s.core c).testing && s.coreQuiet c) s (s.updCore c fun k => { k with testing := true })

/-- An array after a self-test window (R93): tiles, buffers and scale files as after reset, the rest kept. -/
def Arr.wiped (a : Arr) : Arr :=
  { a with aBuf := [], bBuf := [], aSp := [], bSp := [], aScl := [], bScl := [], aSclSp := [], bSclSp := [], acc := [], accSp := [] }

/-- Registers and spoil marks as R95 leaves them. -/
def Cor.zeroed (k : Cor) : Cor := { k with sreg := [], sSp := [], vreg := [], vSp := [], preg := [], xa := [], xaSp := [] }

/-- A core after a self-test window: registers and arrays (R93, R116). -/
def Cor.wiped (k : Cor) : Cor :=
  { k.zeroed with arr0 := k.arr0.wiped, arr1 := k.arr1.wiped, arr2 := k.arr2.wiped, arr3 := k.arr3.wiped }

/-- CORE_SELFTEST_PASS: step 4; VFLAGS, COR_MAT_FLAGS and the ring configurations are kept (R93, R116). -/
def execCoreSelftestPass (c : Nat) (s : State) : Res :=
  unit c 512 <|
    when ((s.core c).st == .test && (s.core c).testing) s
      (s.updCore c fun k => { k.wiped with st := .run, testing := false, idleq := true, idleAt := s.hubNow, async := true })

/-- CORE_SELFTEST_FAIL: step 4a; cause 0x21 and retirement under R396. -/
def execCoreSelftestFail (c : Nat) (s : State) : Res :=
  unit c 512 <|
    when ((s.core c).st == .test && (s.core c).testing) s
      ((s.report (rep 2 (c / 64) 0 (c % 64) 0x21 0)).finishRetire c 0x21)

/-- CORE_SELFTEST_CANCEL: step 2 has not occurred within 50 ms. -/
def execCoreSelftestCancel (c ms : Nat) (s : State) : Res :=
  unit c 512 <|
    when ((s.core c).tpend && (s.core c).st != .test && decide (ms ≥ 50)) s
      (s.updCore c fun k => { k with tpend := false, tcancel := true, idleAt := if k.idleq then s.hubNow else k.idleAt })

end Sys2Proof.Machine
end

