-- ==== Sys2Proof/Machine/FloorOps.lean ====
section
/-! DEFINITION. The floor's commands (05): bank arbitration, maintenance, the mesh, bonded streams and their lanes. -/

namespace Sys2Proof.Machine

/-! ## Bank arbitration (R133 to R135) -/

/-- The queue of port 0 HOME-T, 1 HOME-M, 2 MESH, 3 MAINT. -/
def Bank.port (k : Bank) (i : Nat) : List BankReq :=
  match i with
  | 0 => k.homeT
  | 1 => k.homeM
  | 2 => k.mesh
  | _ => k.maint
def Bank.pop (k : Bank) (i : Nat) : Bank :=
  match i with
  | 0 => { k with homeT := k.homeT.tail }
  | 1 => { k with homeM := k.homeM.tail }
  | 2 => { k with mesh := k.mesh.tail }
  | _ => { k with maint := k.maint.tail }

/-- The port granted in floor cycle `cyc` and whether the grant settled a tie: a MAINT request that has waited 256
cycles first, then the oldest head of the other three, equal ages by the rotating index, and MAINT alone last. -/
def bankGrant (k : Bank) (cyc : Nat) : Option (Nat × Bool) :=
  match k.maint with
  | m :: _ => if cyc ≥ m.age + 256 then some (3, false) else others k (some (3, false))
  | [] => others k none
where
  /-- The grant among HOME-T, HOME-M and MESH, else `d`. -/
  others (k : Bank) (d : Option (Nat × Bool)) : Option (Nat × Bool) :=
    let heads := (List.range 3).filterMap fun i => (k.port i).head?.map fun r => (i, r.age)
    match heads with
    | [] => d
    | h :: t =>
      let low := t.foldl (fun a x => min a x.2) h.2
      let tied := heads.filter fun x => x.2 == low
      (firstFrom k.rot 3 fun i => tied.any fun x => x.1 == i).map fun i => (i, decide (tied.length > 1))

/-- A write of any subset of a line's bytes (R125, R144). A write to a retired bank is one access, reported once (R147). -/
def State.lineWrite (s : State) (q : BankReq) : State :=
  if s.bankDead (regionOf q.word) (bankOf q.word) then
    s.report (floorRep 2 (regionOf q.word) 0x0A (q.words.headD q.word + 2 ^ 32))
  else
    (List.range 4).foldl (fun t j =>
      let m := (List.range 4).filter fun i => q.bmask.getLsbD (4 * j + i)
      let w := (q.word / 4 * 4 + j) % 2 ^ 29
      let v := q.data.getD j 0#32
      if m.length = 4 then t.spWrite w v (q.spoil.getLsbD j)
      else m.foldl (fun u i => u.spWriteByte (4 * w + i) (BitVec.ofNat 8 (v.toNat / 2 ^ (8 * i))) (q.spoil.getLsbD j)) t) s

/-- The words of line `row` of a bank. -/
def lineWords (r b row : Nat) : List Nat := (List.range 4).map fun j => r * 2 ^ 20 + row * 128 + b * 4 + j

/-- One granted access performed, with the words it read (R133, R135, R143, R145). A write-back changes no data (R134). -/
def State.bankDo (s : State) (r b : Nat) (q : BankReq) (f : EccFind) : State × List (Nat × W32 × Bool) :=
  if q.port = .maint then
    if q.who = .scrub then
      let x := s.spReads (lineWords r b (s.bank r b).scrubRow) f
      (x.1.updBank r b fun k => { k with scrubRow := (k.scrubRow + 1) % 8192 }, [])
    else (s, [])
  else if q.aadd then
    let x := s.spRead q.word f
    (x.1.spWrite q.word (x.2.1 + q.data.getD (q.word % 4) 0#32) (x.2.2 || q.spoil.getLsbD (q.word % 4)), [(q.word, x.2)])
  else if q.write then (s.lineWrite q, [])
  else
    let x := s.spReads q.words f
    (x.1, q.words.zip x.2)

/-- What follows a performed access: the credits of a home request, and the reply, at once to the home core's unit and over the
reply plane to every other requester (R129, R137). -/
def State.bankReply (s : State) (r b : Nat) (q : BankReq) (ws : List (Nat × W32 × Bool)) : State :=
  match q.port with
  | .maint => s
  | .mesh => s.updFloor fun f =>
      { f with stops := tupd [] f.stops (2 * r + 1) fun l => l ++ [{ inp := 0, age := s.floorNow, dst := q.src, req := none, rep := some (q.who, ws) }] }
  | p =>
    let k := 1024 * r + (if q.write && !q.aadd then b else if p = .homeT then 64 else 65)
    ((s.owe (1024 * r + 32 + b)).owe k).accGot q.who ws

/-- The latest floor cycle named. -/
def State.floorAt (s : State) (cyc : Nat) : State := s.updFloor fun f => { f with clk := max f.clk cyc }

/-- The terrace of region `r` has completed Table 5-5. -/
def State.regionUp (s : State) (r : Nat) : Bool := (s.terr (r / 128)).ready

/-- Every terrace has: the mesh and the bonds work (Table 5-5 step 4). -/
def State.floorUp (s : State) : Bool := (List.range 4).all fun t => (s.terr t).ready

/-- The bank grants port `g` in floor cycle `cyc`, and occupies itself: an AADD for two cycles (R135). -/
def State.bankTake (s : State) (r b cyc : Nat) (g : Nat × Bool) (q : BankReq) : State :=
  (s.updBank r b fun k => { (k.pop g.1) with rot := if g.2 then (g.1 + 1) % 3 else k.rot,
                                             busy := if q.aadd then cyc + 2 else cyc + 1 }).floorAt cyc

/-- What bank `b` of region `r` grants in floor cycle `cyc`: the port with its head request, none while it is occupied. -/
def State.bankNext (s : State) (r b cyc : Nat) : Option ((Nat × Bool) × BankReq) :=
  if !s.regionUp r || decide ((s.bank r b).busy > cyc) then none
  else
    match bankGrant (s.bank r b) cyc with
    | none => none
    | some g => ((s.bank r b).port g.1).head?.map fun q => (g, q)

/-- BANK_ACCESS (R133): in floor cycle `cyc` bank `b` of region `r` grants one port and performs its head request. A slice that
wins is BANK_SELFTEST_SLICE's. -/
def execBankAccess (r b cyc : Nat) (f : EccFind) (s : State) : Res :=
  unit r 512 <| unit b 32 <|
    match s.bankNext r b cyc with
    | none => .next s
    | some (g, q) =>
      if q.who = .slice then .next s
      else
        let x := (s.bankTake r b cyc g q).bankDo r b q f
        .next (x.1.bankReply r b q x.2)

/-- The bank grants MAINT's head, which `who` names (R134). -/
def State.maintNext (s : State) (r b cyc : Nat) (who : Acc) : Option ((Nat × Bool) × BankReq) :=
  (s.bankNext r b cyc).filter fun x => x.2.port == .maint && x.2.who == who

/-- MAINT_WRITEBACK (R143): the queued write-back is granted through MAINT. The word's data does not change. -/
def execMaintWriteback (r b cyc : Nat) (s : State) : Res :=
  unit r 512 <| unit b 32 <|
    match s.maintNext r b cyc .back with
    | none => .next s
    | some (g, q) => .next (s.bankTake r b cyc g q)

/-- A scrub or a slice joins MAINT's queue, once (R133). -/
def State.maintAsk (s : State) (r b cyc : Nat) (who : Acc) : State :=
  if (s.bank r b).maint.any fun q => q.who == who then s
  else s.updBank r b fun k => { k with maint := k.maint ++ [maintReq cyc who 0] }

/-- PATROL_SCRUB (R145): the read of the bank's next line joins MAINT, and is performed where MAINT is granted it in this cycle;
findings act as R143 and R144 say. -/
def execPatrolScrub (r b cyc : Nat) (f : EccFind) (s : State) : Res :=
  unit r 512 <| unit b 32 <|
    if (s.terr (r / 128)).scrub && !s.bankDead r b then
      let s := (s.maintAsk r b cyc .scrub).floorAt cyc
      match s.maintNext r b cyc .scrub with
      | none => .next s
      | some (g, q) => .next ((s.bankTake r b cyc g q).bankDo r b q f).1
    else .next s

/-- BANK_SELFTEST_SLICE (R146, R147): a slice joins MAINT and, once granted, occupies the bank for `len` cycles, at most 48, tests
the next row and restores its data; `faulty` is the largest number of faulty cells in one word. -/
def execBankSelftestSlice (r b cyc len faulty : Nat) (s : State) : Res :=
  unit r 512 <| unit b 32 <|
    if (s.terr (r / 128)).bist && !s.bankDead r b then
      let s := (s.maintAsk r b cyc .slice).floorAt cyc
      match s.maintNext r b cyc .slice with
      | none => .next s
      | some (g, q) =>
        let s := (s.bankTake r b cyc g q).updBank r b fun k => { k with bistRow := (k.bistRow + 1) % 8192, busy := cyc + min len 48 }
        .next (if faulty ≥ 2 then s.bankRetire r b else s)
    else .next s

/-! ## The mesh (R126, R129, R132) -/

/-- Floor coordinates of core `c`'s stop (R126). -/
def stopXY (c : Nat) : Nat × Nat :=
  let t := c / 128
  let d := c / 64 % 2
  let l := c % 64
  (16 * (t % 2) + 8 * d + l % 8, 8 * (t / 2) + l / 8)

/-- The stop at coordinates (gx, gy). -/
def stopAt (x y : Nat) : Nat := 128 * (x / 16 + 2 * (y / 8)) + 64 * (x / 8 % 2) + x % 8 + 8 * (y % 8)

/-- Dimension-ordered routing, first along gx (R129): 0 LOCAL, 1 X+, 2 X−, 3 Y+, 4 Y−. -/
def meshOut (here dst : Nat) : Nat :=
  let a := stopXY here
  let b := stopXY dst
  if b.1 > a.1 then 1 else if b.1 < a.1 then 2 else if b.2 > a.2 then 3 else if b.2 < a.2 then 4 else 0

/-- The neighbour reached by an output, and the input it arrives at. -/
def meshNext (here out : Nat) : Nat × Nat :=
  let a := stopXY here
  match out with
  | 1 => (stopAt (a.1 + 1) a.2, 2)
  | 2 => (stopAt (a.1 - 1) a.2, 1)
  | 3 => (stopAt a.1 (a.2 + 1), 4)
  | _ => (stopAt a.1 (a.2 - 1), 3)

/-- The flit that an output of a stop forwards (R132): the older, equal ages by the output's rotating index; whether a tie was settled. -/
def flitNext (l : List Flit) (stop out rot : Nat) : Option (Flit × Bool) :=
  match l.filter fun f => meshOut stop f.dst == out with
  | [] => none
  | h :: t =>
    let low := t.foldl (fun a f => min a f.age) h.age
    let tied := (h :: t).filter fun f => f.age == low
    let many := tied.any fun f => f.inp != (tied.headD h).inp
    (firstFrom rot 5 fun i => tied.any fun f => f.inp == i).bind fun i => (tied.find? fun f => f.inp == i).map fun f => (f, many)

/-- A flit at its own stop: a request joins its bank's MESH queue, a reply reaches the unit that asked (R129). -/
def State.flitHome (s : State) (f : Flit) (cyc : Nat) : State :=
  let s := match f.req with
    | some q => s.updBank (regionOf q.word) (bankOf q.word) fun k => { k with mesh := k.mesh ++ [{ q with port := .mesh, age := cyc }] }
    | none => s
  match f.rep with
  | some x => s.accGot x.1 x.2
  | none => s

/-- A command of a core's own stop has been forwarded, and its credit is to be returned (Table 5-4). -/
def State.flitOwe (s : State) (stop : Nat) (f : Flit) : State :=
  match f.inp, f.req with
  | 0, some q => if q.who.core? = some stop then s.owe (1024 * stop + 66) else s
  | _, _ => s

/-- MESH_FLIT_ARRIVAL (R129, R132): in floor cycle `cyc` output `out` of a stop grants one flit of plane 0 (requests) or 1
(replies). It moves to the next stop, or at its own stop to its bank or to the unit that asked. -/
def execMeshFlitArrival (stop plane out cyc : Nat) (s : State) : Res :=
  unit stop 512 <| unit plane 2 <| unit out 5 <|
    if !s.floorUp then .next s
    else
      let rk := 10 * stop + 5 * plane + out
      match flitNext (tget [] s.floor.stops (2 * stop + plane)) stop out (tget 0 s.floor.stopRot rk) with
      | none => .next s
      | some (f, tie) =>
        let s := ((s.updFloor fun x =>
          { x with stops := tupd [] x.stops (2 * stop + plane) (·.erase f)
                   stopRot := if tie then tput x.stopRot rk ((f.inp + 1) % 5) else x.stopRot }).floorAt cyc).flitOwe stop f
        if out ≠ 0 then
          let n := meshNext stop out
          .next (s.updFloor fun x =>
            { x with stops := tupd [] x.stops (2 * n.1 + plane) fun l => l ++ [{ f with inp := n.2, age := cyc + 1 }] })
        else .next (s.flitHome f cyc)

/-! ## Bonded streams (R136 to R141) -/

/-- DIE, SUB and UNIT of a bond interface or edge link: cores 0–511, 512 the hub, 513 + e engine e (R141). -/
def bondSite (c : Nat) : Nat × Nat × Nat :=
  if c < 512 then (8, c / 128, c % 128) else if c = 512 then (9, 0, 3) else (10 + (c - 513), 0, 20)

def bondRep (cls c cause info : Nat) : Report := rep cls (bondSite c).1 (bondSite c).2.1 (bondSite c).2.2 cause info

/-- A group that cannot be repaired (R139, R140): UNREP and cause 0x06, fatal for a hub edge group; once a group. -/
def State.unrepair (s : State) (c g : Nat) : State :=
  if (s.group c g).unrep then s
  else ((s.updBond c fun b => { b with unrep := true }).updGroup c g fun k => { k with unrep := true }).report
    (bondRep (if c = 512 then 3 else 2) c 0x06 g)

/-- A lane judged lasting (R140): it waits for its switch where the spare is free, else the group is unrepairable. -/
def State.laneLasting (s : State) (c g lane : Nat) : State :=
  let k := s.group c g
  if k.spare.isNone && k.retire.isNone then s.updGroup c g fun k => { k with retire := some lane }
  else if k.spare == some lane || k.retire == some lane then s
  else s.unrepair c g

/-- The spoil bits of words delivered from a transfer found uncorrectable (R138). -/
def spoilAll (x : BondXfer) : List (W32 × Bool) := x.words.map fun w => (w, true)

/-- Groups RD and WR carry lines; RQ and CR carry commands, credits and acknowledgements (Table 5-3). The edge links take the
numbers of a core's interface [124]. -/
def dataGroup (g : Nat) : Bool := decide (g < 320)

/-- A transfer that is received whole: its words are delivered, and a corrected lane is counted (R138, R140). -/
def State.bondDeliver (s : State) (c g : Nat) (x : BondXfer) (rest : List BondXfer) : State :=
  let s := s.updGroup c g fun k => { k with
    got := x.words.zip (x.spoil ++ List.replicate x.words.length false), replay := rest, fails := 0 }
  match x.lane with
  | none => s
  | some l =>
    ((s.updBond c fun b => { b with laneEvt := satAdd 8 b.laneEvt 1 }).report (bondRep 1 c 0x03 (g + l * 65536))).winEvent 0
      (c * 2 ^ 20 + g * 32 + l) (·.laneLasting c g l)

/-- BOND_TRANSFER_RECEIVE (R138): group `g` of interface `c` receives a transfer of at most a line and checks its code, which names
one of the 17 lanes. While a retry is requested the later transfers join the replay buffer behind the failed one; once the sender
replays, what arrives is the buffer's oldest, and `x` gives only what its check finds. -/
def execBondTransferReceive (c g : Nat) (x : BondXfer) (s : State) : Res :=
  unit c 519 <| unit g 336 <|
    let k := s.group c g
    if x.words.length > 4 ∨ !(x.lane.all (· < 17)) ∨ !s.floorUp then .next s
    else if k.retry then .next (if k.replay.length < 32 then s.updGroup c g fun k => { k with replay := k.replay ++ [x] } else s)
    else
      let y := match k.replay with
        | [] => x
        | o :: _ => { o with lane := x.lane, bad := x.bad }
      if !y.bad then .next (s.bondDeliver c g y k.replay.tail)
      else if dataGroup g then
        .next ((s.updGroup c g fun k => { k with got := spoilAll y, replay := k.replay.tail, fails := 0 }).report (bondRep 2 c 0x04 g))
      else
        let s := s.updGroup c g fun k => { k with retry := true, fails := k.fails + 1, replay := y :: k.replay.tail }
        .next (if k.fails + 1 > 3 then s.report (rep 3 (bondSite c).1 (bondSite c).2.1 (bondSite c).2.2 0x07 g) else s)

/-- BOND_REPLAY (R138): the sender of a group whose receiver asked for a retry replays its buffer, oldest first. -/
def execBondReplay (c g : Nat) (s : State) : Res :=
  unit c 519 <| unit g 336 <| when (s.group c g).retry s (s.updGroup c g fun k => { k with retry := false })

/-- The groups that carry what credits of kind `k` count (Tables 5-3 and 5-4): first group and number. -/
def creditGroups (k : Nat) : Nat × Nat := if k < 32 then (160, 160) else if k = 64 ∨ k = 65 then (0, 160) else (320, 8)

/-- A lane of those groups waits for its switch, so no credit is issued for them (R140 step 1). -/
def State.creditHeld (s : State) (c k : Nat) : Bool :=
  (from_ (creditGroups k).1 (creditGroups k).2).any fun g => (s.group c g).retire.isSome

/-- BOND_CREDIT_RETURN (R137): a receive entry has been emptied, its credit goes back, and the requests that wait for it are sent. -/
def execBondCreditReturn (c k : Nat) (s : State) : Res :=
  unit c 519 <| unit k 67 <|
    let key := 1024 * c + k
    if tget 0 s.floor.owed key > 0 ∧ !s.creditHeld c k then
      let s := s.updFloor fun f => { f with owed := tupd 0 f.owed key (· - 1), spent := tupd 0 f.spent key (· - 1) }
      .next ((List.range 4).foldl (fun t j => t.pumpAll (4 * c + j)) s)
    else .next s

/-- An earlier LANE entry names the group and lane (R139, Table 14-7). -/
def State.laneLogged (s : State) (c g lane : Nat) : Bool :=
  (s.flt.ledger ++ s.flt.ledgq).any fun e =>
    e.typ == 3 && e.die == (bondSite c).1 && e.sub == (bondSite c).2.1 && e.unit == (bondSite c).2.2 &&
    e.body.take 3 == natLe g 2 ++ [BitVec.ofNat 8 lane]

/-- A lane found failing is reported with cause 0x05; a LANE entry is written once per group and lane (R139, R140). -/
def State.laneFound (s : State) (c g lane : Nat) : State :=
  let logged := s.laneLogged c g lane
  let s := s.report (bondRep 1 c 0x05 (g + lane * 65536))
  if logged then s else s.ledg 3 (bondSite c).1 (bondSite c).2.1 (bondSite c).2.2 (natLe g 2 ++ [BitVec.ofNat 8 lane])

/-- A lane moved to the spare: FLR_BOND_c and its report. -/
def State.laneSpared (s : State) (c g lane : Nat) : State :=
  ((s.updGroup c g fun k => { k with spare := some lane, retire := none }).updBond c fun b =>
    { b with spared := b.spared + 1, lastGrp := g, lastLane := lane }).laneFound c g lane

/-- LANE_RETIRE_SWITCH (R140): with every transfer in flight received and none to be replayed, both ends switch the lasting lane to
the spare, and credits are issued again. -/
def execLaneRetireSwitch (c g : Nat) (s : State) : Res :=
  unit c 519 <| unit g 336 <|
    match (s.group c g).retire with
    | none => .next s
    | some l => when (!(s.group c g).retry && (s.group c g).replay.isEmpty) s (s.laneSpared c g l)

end Sys2Proof.Machine
end

