-- ==== Sys2Proof/Machine/Light.lean ====
section
/-! DEFINITION. Light and passes (08): comb inputs, markers, rings, spare rotation, automatic power reduction,
readmission, telemetry and the pass-set switch. Powers are in 0.01 dBm. -/

namespace Sys2Proof.Machine

/-! ## Ports (R218, R243, R246) -/

/-- LIDs whose port is `p`. -/
def State.portLids (s : State) (p : Nat) : List Nat := (s.fab.lids.filter fun k => k.2.port == p).map (·.1)

/-- Ports whose axis light of port `p` crosses are as they were; a line of port `p` that nothing but APR blocks takes its role again
(R240 step 4). -/
def State.unblock (s : State) (p : Nat) : State :=
  (List.range 17).foldl (fun (a : State) w =>
    if (a.line p w).rxr = .block ∧ entIn (a.lineEnt p w) ≠ 2 then
      (if (a.port p).st = .ready ∨ (a.port p).st = .soak then a.lockLine p w else a.parkLine p w)
    else a) s

/-- A port becomes FAILED (R244, R246, cause 0x35), once. A readmission that waits on it ends. -/
def State.failPort (s : State) (p : Nat) : State :=
  if (s.port p).st = .failed then s
  else
    let h := (s.port p).hnd
    let s := (s.portLids p).foldl (fun a l => a.lidForce l) s
    let s := (s.parkMask p (BitVec.allOnes 17)).updPort p fun x =>
      { x with st := .failed, rot := 0, rotDue := none, soaked := false, pend := true, wait := false, hnd := none }
    let s := (s.report (rep 2 (10 + p) 0 17 0x35 0)).ledg 8 (10 + p) 0 17 [2#8]
    match h with
    | some i => s.finishLong i 0x104 0#32 0#32 0#32 0#32
    | none => s

/-- An edge group that cannot be repaired makes the port FAILED for good (R246). -/
def State.breakPort (s : State) (p : Nat) : State := (s.updPort p fun x => { x with broken := true }).failPort p

/-! ## Search and assignment (R235, R236, R244) -/

/-- Heater power for ring `k` on its line under shift `σ` (R236). -/
def ringHeat (bus : List (List Nat)) (k sh : Nat) : Nat := (bus.getD k []).getD ((k + sh) % 17) 255

/-- Largest heater power of a bus under a shift; 255 where a ring cannot reach its line. -/
def busHeat (bus : List (List Nat)) (sh : Nat) : Nat := min 255 (((List.range 17).map fun k => ringHeat bus k sh).foldl max 0)

/-- The shift of a bus: the smallest that minimises the largest heater power. -/
def busShift (bus : List (List Nat)) : Nat :=
  ((List.range 17).foldl (fun (a : Nat × Nat) sh => if busHeat bus sh < a.2 then (sh, busHeat bus sh) else a) (0, 256)).1

/-- Heater power that physical line `w` takes under a shift. -/
def lineHeat (bus : List (List Nat)) (w sh : Nat) : Nat := ringHeat bus ((w + 17 - sh) % 17) sh

/-- What a search found for the rings of a line: those that cannot reach it are FAILED, and the line with them. -/
def Line.search (x : Line) (rx tx : Nat) : Line :=
  { x with rxr := if rx ≥ 255 then .failed else .parked, txr := if tx ≥ 255 then .failed else .parked
           failed := decide (rx ≥ 255) || decide (tx ≥ 255), heat := min 127 rx, set_ := min 127 rx }

/-- A search has ended: every line of the port has the rings that it found, and a line that is newly FAILED its LINE entry. -/
def State.searchLines (s : State) (p : Nat) (f : EngineFind) : State :=
  let x := s.port p
  (List.range 17).foldl (fun (a : State) w =>
    let was := (a.line p w).failed
    let a := a.updLine p w fun k => a.aprRole p w (k.search (lineHeat f.rx w x.rxShift) (lineHeat f.tx w x.txShift))
    if (a.line p w).failed ∧ !was then a.ledg 7 (10 + p) 0 w [BitVec.ofNat 8 w, 2#8] else a) s

/-- Steps 3 and 4 of Table 8-10: an engine's rings are assigned, its RINGS entry is written, and its port is READY. -/
def State.startEngine (s : State) (p : Nat) (f : EngineFind) : State :=
  let r := busShift f.rx
  let t := busShift f.tx
  let s := (s.updPort p fun x => { x with rxShift := r, txShift := t, searched := true }).searchLines p f
  let out := ((List.range 17).map fun w => b2n (decide (lineHeat f.rx w r ≥ 255)) + b2n (decide (lineHeat f.tx w t ≥ 255))).sum
  let hot := max (busHeat f.rx r) (busHeat f.tx t)
  (s.ledg 11 (10 + p) 0 20 [BitVec.ofNat 8 hot, BitVec.ofNat 8 out, BitVec.ofNat 8 r, BitVec.ofNat 8 t]).updPort p fun x => { x with st := .ready }

/-- The search or recalibration of a port's rings has ended (R235, R237, R244): a first search assigns the rings; at a readmission the rings
lock in their roles and the soak starts (R243) [192]. -/
def State.searchDone (s : State) (p : Nat) (f : EngineFind) : State :=
  if (s.port p).st ≠ .search ∨ !s.mod.rails then s
  else if !(s.port p).searched then s.startEngine p f
  else ((s.searchLines p f).lockPort p).updPort p fun x => { x with st := .soak }

/-- A ring goes out of its role to be searched again, where its line is FAILED, or to be recalibrated in full (R237, R244). -/
def Line.again (x : Line) (first : Bool) : Line :=
  let r : Ring := if first || x.failed then .search else .cal
  { x with rxr := r, txr := r, foreign_ := false, framed := false, good := 0, mism := 0, soaks := 0, ready := false, wait := false }

/-- Readmission starts (R243, R244): FAILED lines are searched again and the others recalibrated; an engine that has never been searched runs
steps 3 and 4 of Table 8-10. -/
def State.readmitPort (s : State) (p : Nat) : State :=
  if !s.mod.rails then s
  else
    let first := !(s.port p).searched
    let s := (List.range 17).foldl (fun a w => a.updLine p w fun x => a.aprRole p w (x.again first)) s
    s.updPort p fun x =>
      { x with st := .search, soaked := false, pend := !first, wait := false, soaks := 0, base := none, rot := 0, rotDue := none, aprAt := 0 }

/-- A fenced LID is readmitted (R404, R243): its lines lock, the port's spare soaks, and PASS_EP advances before it trains. A rotation of the
span is abandoned for it [193]. Elsewhere the port's own readmission is still to come. -/
def State.readmitLid (s : State) (l : Nat) : State :=
  let s := s.updLid l fun k => { k with st := .down, fenceCyc := none }
  let p := s.lidPort l
  if (s.port p).st ≠ .ready then s
  else
    let m := s.lidLines l ||| BitVec.ofNat 17 (2 ^ (s.port p).phys 16)
    let s := (List.range 17).foldl (fun (a : State) w => if m.getLsbD w then a.lockLine p w else a) s
    s.updPort p fun x => { x with st := .soak, soaked := false, pend := true, wait := false, soaks := 0, rot := 0, rotDue := none }

/-! ## PASS_EP (R230, R243) -/

/-- PASS_EP advances (R230): lines that wait rejoin their LIDs; with `ports`, ports that passed their soak open and their
LIDs train (R243). -/
def State.passEpoch (s : State) (ports : Bool) : State :=
  let s := s.updLight fun b => { b with passEp := (b.passEp + 1) % 8 }
  let s := (s.light.lines.filter fun x => x.2.ready).foldl (fun (a : State) x =>
    let p := x.1 / 17
    let w := x.1 % 17
    (a.updLine p w fun y => { y with ready := false }).maskJoin p ((a.port p).logical w) w) s
  if !ports then s
  else
    ((List.range 6).filter fun p => (s.port p).st == .ready && (s.port p).soaked && (s.port p).pend).foldl (fun (a : State) p =>
      let h := (a.port p).hnd
      let a := a.updPort p fun x => { x with pend := false, hnd := none }
      let a := (a.fab.cur.links.filter fun e => e.2.port == p && (a.lid e.1).st == .down).foldl (fun b e => b.train_ e.1) a
      match h with
      | some i => a.doneLong i
      | none => a) s

/-- A readmission is pending: of a port, or of a line that has passed its soak (R239, R243) [171]. -/
def State.readmissionDue (s : State) : Bool :=
  ((List.range 6).any fun p => (s.port p).st == .ready && (s.port p).soaked && (s.port p).pend) ||
    s.light.lines.any fun x => x.2.ready

/-! ## Comb inputs (R216 to R218) -/

/-- State code of an input: 0 ABSENT, 1 OK, 2 AGED, 3 FAILED; the first that applies. -/
def combState (r : CombRead) : Nat :=
  if r.total < -1000 then 0
  else if r.fell3 || r.lines.any (fun x => decide (x < 600)) then 3
  else if r.low10s then 2 else 1

/-- A switch-over to input `i` (Table 8-3): SEL, SWCNT, cause 0x36 at each engine and a COMB entry. -/
def State.combSwitch (s : State) (i : Nat) : State :=
  let s := s.updLight fun b => { b with sel := i, swCnt := satAdd 8 b.swCnt 1 }
  (s.reportTie ((List.range 6).map fun e => rep 1 (10 + e) 0 19 0x36 i)).ledg 12 10 0 19
    [BitVec.ofNat 8 i, BitVec.ofNat 8 (if i = 0 then s.light.aSt else s.light.bSt)]

/-- NO_COMB_OK (R218): every LID DOWN, every ring parked, every port DARK, cause 0x37 at each engine. -/
def State.combLost (s : State) : State :=
  let s := (s.fab.lids.map (·.1)).foldl (fun a l => a.lidForce l) s
  let s := (List.range 6).foldl (fun (a : State) p =>
    (a.parkPort p).updPort p fun x => { x with st := .dark, soaked := false, pend := true, rot := 0, rotDue := none, aprAt := 0 }) s
  s.reportTie ((List.range 6).map fun e => rep 2 (10 + e) 0 19 0x37 0)

/-- A port that nothing lights returns to readmission; one that its edge group has broken is FAILED still (R246). -/
def State.returnPort (s : State) (p : Nat) : State :=
  if (s.port p).broken then s.updPort p fun x => { x with st := .failed, aprAt := 0 } else s.readmitPort p

/-- The ports return once an input is OK again (R218). -/
def State.combBack (s : State) : State :=
  ((List.range 6).filter fun p => (s.port p).st == .dark).foldl (fun a p => a.returnPort p) s

/-- An input became AGED or FAILED: a COMB entry (Table 14-7). -/
def State.combNote (s : State) (i was now : Nat) : State :=
  if now ≠ was ∧ now ≥ 2 then s.ledg 12 10 0 19 [BitVec.ofNat 8 i, BitVec.ofNat 8 now] else s

/-- An input is OK. -/
def State.combOk (s : State) : Bool := s.light.aSt == 1 || s.light.bSt == 1

/-- The readings of both inputs (Table 8-15). -/
def State.combRead (s : State) (a b : CombRead) : State :=
  let x := combState a
  let y := combState b
  ((s.combNote 0 s.light.aSt x).combNote 1 s.light.bSt y).updLight fun l =>
    { l with aSt := x, bSt := y, aPwr := tputAll l.aPwr (a.lines.zipIdx.map fun e => (e.2, e.1))
             bPwr := tputAll l.bPwr (b.lines.zipIdx.map fun e => (e.2, e.1)) }

/-- COMB_MEASURE (R216, R217, R218): every 10 µs. `found` names the ports whose resonance search or recalibration has ended by then; a
switch-over in the same measure restarts those searches (R245), and what they found is lost [192]. -/
def execCombMeasure (a b : CombRead) (found : List (Nat × EngineFind)) (s : State) : Res :=
  let had := s.combOk
  let s1 := s.combRead a b
  let cur := if s.light.sel = 0 then combState a else combState b
  let oth := if s.light.sel = 0 then combState b else combState a
  if s.mod.step < 11 then .next s1
  else if !s1.combOk then .next (if had then s1.combLost else s1)
  else if oth = 1 ∧ (cur = 3 ∨ cur = 0) then
    let s2 := s1.combSwitch (1 - s.light.sel)
    .next (if had then s2 else s2.combBack)
  else .next (found.foldl (fun t f => t.searchDone f.1 f.2) (if had then s1 else s1.combBack))

/-- The selected input is AGED and the other is OK. -/
def State.combAged (s : State) : Bool :=
  if s.light.sel = 0 then s.light.aSt == 2 && s.light.bSt == 1 else s.light.bSt == 2 && s.light.aSt == 1

/-- The switch of an AGED input at a watershed outcome or a release (R217). -/
def State.agedSwitch (s : State) : State := if s.combAged then s.combSwitch (1 - s.light.sel) else s

/-- COMB_AGED_SWITCH: 10 s have passed without an outcome or a release. -/
def execCombAgedSwitch (sec : Nat) (s : State) : Res := when (s.combAged && decide (sec ≥ 10)) s s.agedSwitch

/-! ## Spare rotation (R237 to R239) -/

/-- No mask change of the LID of logical line `i` is under way. -/
def State.maskQuiet (s : State) (p i : Nat) : Bool :=
  let e := s.passEnt s.light.actSet p i
  decide (entLid e ≥ 96) || (s.lid (entLid e)).newMask.isNone

/-- SPARE_ROTATION_START: ROT_INT after the last rotation, at the end with the lower node ID. -/
def execSpareRotationStart (p sec : Nat) (s : State) : Res :=
  unit p 6 <|
    let x := s.port p
    match x.nbr, firstFrom (x.rotNext % 16) 16 (fun i => s.eligible p i) with
    | some n, some i =>
      when (decide (s.light.rotInt > 0 ∧ sec ≥ s.light.rotInt ∧ x.rot = 0 ∧ s.fab.phys < n) && x.soaked && x.open_
        && !s.light.swPend && decide (s.light.swStep = 0)) s (s.startRotation p i)
    | _, _ => .next s

/-- Step 1 has ended for logical line `i`: the spare is in the mask in effect of its LID, or no LID carries frames there. -/
def State.spareJoined (s : State) (p i : Nat) : Bool :=
  let k := s.lid (entLid (s.passEnt s.light.actSet p i))
  s.maskQuiet p i && (k.wmask.getLsbD ((s.port p).phys 16) || !k.carries)

/-- The far end of a rotation (R238): it runs none of its own, and its peer's mask change has put the spare in the mask of the LID of
eligible line `i`. -/
def State.farRotation (s : State) (p i : Nat) : Bool :=
  let k := s.lid (entLid (s.passEnt s.light.actSet p i))
  (s.port p).rot == 0 && decide (i < 16) && s.eligible p i && k.carries && k.wmask.getLsbD ((s.port p).phys 16)

/-- ROTATION_MASK_ACK: step 2 of Table 8-11, at the initiator and at the other end, of logical line `i` [191]; the maps swap, PASS_EP
advances and the old line begins to leave. -/
def execRotationMaskAck (p i : Nat) (s : State) : Res :=
  unit p 6 <|
    let x := s.port p
    when (((x.rot == 1 && x.rotLine == i) || s.farRotation p i) && s.spareJoined p i) s <|
      let w := x.phys i
      let sp := x.phys 16
      let s := s.updPort p fun x => { x with rot := 2, rotLine := i, soaked := false, lmap := tputAll x.lmap [(i, sp), (16, w)] }
      (s.passEpoch false).maskLeave p w

/-- ROTATION_LINE_LEAVE: step 3; the old line carries nothing and its rings recalibrate. -/
def execRotationLineLeave (p : Nat) (s : State) : Res :=
  unit p 6 <|
    let x := s.port p
    when (x.rot == 2 && s.maskQuiet p x.rotLine) s <|
      (s.calLine p (x.phys 16)).updPort p fun x => { x with rot := 3 }

/-- ROTATION_CAL_DONE: step 4; the old line is locked as the spare. -/
def execRotationCalDone (p : Nat) (s : State) : Res :=
  unit p 6 <|
    let x := s.port p
    when (x.rot == 3) s <| (s.lockLine p (x.phys 16)).updPort p fun x => { x with rot := 4 }

/-- The soak passes (R244). -/
def soakPass (r : SoakRead) : Bool := decide (r.ber7 ≤ 1000 ∧ r.unc = 0 ∧ r.mism = 0 ∧ r.power ≥ -2030)

/-- What the soak measured is in the line's registers. -/
def State.soakNote (s : State) (p w : Nat) (r : SoakRead) : State :=
  s.updLine p w fun x => x.count r.corr r.unc r.power

/-- ROTATION_SOAK_END: step 5; ten failures make the line FAILED, and the span has no spare. -/
def execRotationSoakEnd (p : Nat) (r : SoakRead) (s : State) : Res :=
  unit p 6 <|
    let x := s.port p
    let w := x.phys 16
    let done := fun (t : State) (ok : Bool) =>
      (t.updLine p w fun y => { y with soaks := 0 }).updPort p fun y => { y with rot := 0, soaked := ok, rotNext := (x.rotLine + 1) % 16 }
    when (x.rot == 4) s <|
      let s := s.soakNote p w r
      if soakPass r then done s true
      else if (s.line p w).soaks + 1 ≥ 10 then (done s false).failLine p w
      else (s.updLine p w fun y => { y with soaks := y.soaks + 1 }).updPort p fun y => { y with rot := 5 }

/-! ## Markers and rings (R220, R221, R224, R225) -/

/-- A marker is valid: SYNC and CRC. -/
def markerValid (bs : List Byte) : Bool :=
  bs.length == 16 && fieldLe bs 0 2 == 0x5AC3 && fieldLe bs 14 2 == crc16 (bs.take 14)

/-- A line becomes FOREIGN (R221): cause 0x39, out of its LID's mask; a FOREIGN line counts as dark. -/
def State.foreignLine (s : State) (p w src : Nat) : State :=
  if (s.line p w).foreign_ then s
  else ((s.updLine p w fun x => { x with foreign_ := true }).report (rep 1 (10 + p) 0 w 0x39 src)).maskLeave p w

/-- MARKER_RECEIVE: a marker on a dropped line. The check of R221 is suspended from a pass-set release until marker lock. -/
def execMarkerReceive (p w : Nat) (bytes : List Byte) (s : State) : Res :=
  unit p 6 <| unit w 17 <|
    if (s.line p w).rxr ≠ .drop then .next s
    else if !markerValid bytes then .next (s.updLine p w fun x => { x with good := 0 })
    else
      let src := fieldLe bytes 2 2
      let i := (s.port p).logical w
      let off := (s.line p w).susp
      let s := s.updLine p w fun x =>
        { x with good := min 2 (x.good + 1), framed := x.framed || decide (x.good ≥ 1), susp := x.susp && x.good == 0 }
      let s := if i = 16 then s.updPort p fun x => { x with nbr := some src, nbTx := some (sval (fieldLe bytes 6 2) 16) } else s
      if off then .next s
      else if entPeer (s.lineEnt p w) = src ∧ fieldLe bytes 5 1 % 32 = i then .next (s.updLine p w fun x => { x with mism := 0 })
      else
        let s := (s.updLine p w fun x => { x with mism := min 2 (x.mism + 1) }).lineEvent p w
        .next (if (s.line p w).mism ≥ 2 then s.foreignLine p w src else s)

/-- MARKER_ABSENT_TIMEOUT: 4 µs without a valid marker while light is present. The report's INFO names a marker's SRC, and
there is none: a free value. -/
def execMarkerAbsentTimeout (p w us : Nat) (s : State) : Res :=
  unit p 6 <| unit w 17 <|
    when ((s.line p w).rxr == .drop && decide (us ≥ 4) && !(s.line p w).foreign_ && !(s.line p w).susp) s
      (s.foreignLine p w ((Config.freeWord s.free).toNat % 65536)).tick

/-- RING_LOOP_UPDATE: one correction of a locked ring; `err` in 0.1 GHz, `lostNs` of lost carrier. Lock loss restarts the
loop from the last setting and counts in window 1. -/
def execRingLoopUpdate (p w tx : Nat) (err : Int) (heat lostNs : Nat) (s : State) : Res :=
  unit p 6 <| unit w 17 <|
    let x := s.line p w
    let on : Bool := if tx = 0 then x.rxr == .drop || x.rxr == .block else x.txr == .add
    if !on then .next s
    else if err > 60 ∨ err < -60 ∨ (tx = 0 ∧ lostNs ≥ 1000) then
      let s := s.updLine p w fun x => { x with lockloss := satAdd 8 x.lockloss 1, heat := if tx = 0 then x.set_ else x.heat }
      .next ((s.report (rep 1 (10 + p) 0 w 0x3A 0)).lineEvent p w)
    else .next (s.updLine p w fun x => if tx = 0 then { x with heat := heat % 128, set_ := heat % 128 } else x)

/-! ## Eye safety (R240, R241) -/

/-- APR_LIGHT_LOSS: step 1 of Table 8-12, on a port in any state. -/
def execAprLightLoss (p : Nat) (power : Int) (s : State) : Res :=
  unit p 6 <|
    when (decide (power < -3000) && (s.port p).aprAt == 0) s
      (s.updPort p fun x => { x with aprAt := 1, rxtot := power })

/-- The launch is reduced (step 3): the port's add rings park but the spare's, and every line that would pass its pair toward it is blocked
there. -/
def State.aprReduce (s : State) (p : Nat) : State :=
  let s := s.updPort p fun x => { x with aprAt := 2 }
  if !s.mod.rails then s
  else
    let o := pairPort p
    (List.range 17).foldl (fun (a : State) w => (a.updLine p w (a.aprRole p w)).updLine o w (a.aprRole o w)) s

/-- APR_DECLARE: the port's LIDs are dark and enter DOWN, and the launch is reduced within 50 ms. -/
def execAprDeclare (p ms : Nat) (s : State) : Res :=
  unit p 6 <|
    when ((s.port p).aprAt == 1 && decide (ms ≤ 50)) s <|
      let s := (s.portLids p).foldl (fun a l => a.lidDown l) s
      (s.aprReduce p).updPort p fun x => { x with st := .apr, rot := 0, rotDue := none, soaked := false, pend := true, wait := false }

/-- APR_LIGHT_RETURN: step 4; the lines blocked at the port's pair pass again, and the port is readmitted, once an input is OK. -/
def execAprLightReturn (p : Nat) (power : Int) (s : State) : Res :=
  unit p 6 <|
    let x := s.port p
    if power < -2500 ∨ x.aprAt = 0 then .next s
    else
      let s := s.updPort p fun x => { x with rxtot := power, aprAt := 0 }
      if x.aprAt = 1 then .next s
      else
        let s := s.unblock (pairPort p)
        .next (if s.combOk then s.returnPort p else s.updPort p fun x => { x with st := .dark })

/-! ## Soaks (R243, R244) -/

/-- A port's soak ends. -/
def State.portSoak (s : State) (p : Nat) (r : SoakRead) : State :=
  let s := s.soakNote p ((s.port p).phys 16) r
  if soakPass r then
    let clear := (s.port p).degr && (s.port p).hnd.isSome
    let s := s.updPort p fun x => { x with st := .ready, soaked := true, soaks := 0, wait := false, degr := x.degr && !clear }
    let s := if clear then s.ledg 8 (10 + p) 0 17 [0#8] else s
    if s.train.js = .run then s else s.passEpoch true
  else if (s.port p).soaks + 1 ≥ 10 then s.failPort p
  else s.updPort p fun x => { x with soaks := x.soaks + 1, wait := true }

/-- A line's own soak ends (R239). Passed, it rejoins as PASS_EP advances, at once with no job running (R243) [171]; the spare
serves again. -/
def State.lineSoak (s : State) (p w : Nat) (r : SoakRead) : State :=
  let s := s.soakNote p w r
  if soakPass r then
    let sp : Bool := (s.port p).logical w == 16
    let t := (s.lockLine p w).updLine p w fun x => { x with soaks := 0, ready := !sp, foreign_ := false }
    if sp then t.updPort p fun x => { x with soaked := x.soaked || (x.st == .ready && x.rot == 0) }
    else if s.train.js = .run then t
    else t.passEpoch true
  else if (s.line p w).soaks + 1 ≥ 10 then s.failLine p w
  else s.updLine p w fun x => { x with soaks := x.soaks + 1, wait := true }

/-- SOAK_END: of the port's spare, or of a line that left its mask. -/
def execSoakEnd (p : Nat) (line : Option Nat) (r : SoakRead) (s : State) : Res :=
  unit p 6 <|
    match line with
    | none => when ((s.port p).st == .soak && !(s.port p).wait) s (s.portSoak p r)
    | some w => unit w 17 <|
      when ((s.line p w).rxr == .cal && !(s.line p w).wait && !((s.port p).rot ≥ 3 && (s.port p).phys 16 == w)) s (s.lineSoak p w r)

/-- SOAK_REPEAT: 1 s after a failed soak. -/
def execSoakRepeat (p : Nat) (line : Option Nat) (ms : Nat) (s : State) : Res :=
  unit p 6 <|
    if ms < 1000 then .next s
    else
      match line with
      | none => .next (s.updPort p fun x => { x with wait := false })
      | some w => unit w 17 <|
        .next (if (s.port p).rot = 5 ∧ (s.port p).phys 16 = w then s.updPort p fun x => { x with rot := 4 }
          else s.updLine p w fun x => { x with wait := false })

/-! ## Telemetry (R242) -/

/-- TELEMETRY_MEASURE: every second; `dark` passes lie on the span. -/
def execTelemetryMeasure (p : Nat) (rx tx : Int) (ret dark : Nat) (s : State) : Res :=
  unit p 6 <|
    let x := s.port p
    let sl := x.nbTx.map (· - rx)
    let base := x.base <|> (if x.open_ then sl else none)
    let alarm : Bool := decide (ret < 3000) || (match sl with
      | some v => decide (v > 200 + 50 * (dark : Int))
      | none => false)
    let warn : Bool := decide (ret < 3500) || (match sl, base with
      | some v, some b => decide (v ≥ b + 100)
      | _, _ => false)
    let t := if alarm then 2 else if warn then 1 else 0
    let s := s.updPort p fun x => { x with rxtot := rx, txtot := tx, ret := ret % 65536, span := sl.getD 0, base := base, telem := t }
    .next (if t = x.telem then s else s.report (rep 1 (10 + p) 0 17 0x38 t))

/-! ## Pass-set switch (R231, R232, R245, 09 R257, R273) -/

def pswSet (d : Desc) : Nat := bitsOf (Desc.word d 5) 2 0
def pswDrain (d : Desc) : Nat := bitsOf (Desc.word d 5) 23 12
def pswCtr (d : Desc) : Nat := bitsOf (Desc.word d 6) 11 0
def pswThr (d : Desc) : Nat := (Desc.word d 7).toNat + bitsOf (Desc.word d 8) 15 0 * 2 ^ 32

/-- The entry that set `n` will have once it is active: the shadow's where one is held for it (R229). -/
def State.passTarget (s : State) (n p i : Nat) : W32 :=
  if n = s.light.actSet then tget (s.passEnt n p i) (tget [] s.light.shadow n) (17 * p + i) else s.passEnt n p i

/-- Entries that differ between the active set and set `n`, as 17 * port + line. -/
def State.changedLines (s : State) (n : Nat) : List Nat :=
  (List.range 102).filter fun x => s.passEnt s.light.actSet (x / 17) (x % 17) != s.passTarget n (x / 17) (x % 17)

/-- LIDs with a changed entry. -/
def State.changedLids (s : State) (n : Nat) : List Nat :=
  (((s.changedLines n).flatMap fun x =>
    [entLid (s.passEnt s.light.actSet (x / 17) (x % 17)), entLid (s.passTarget n (x / 17) (x % 17))]).filter (· < 96)).dedup

/-- Step 1 of Table 8-8: SWPEND, PENDSET, changed LIDs DRAINING. -/
def State.pswBegin (s : State) (q : Nat) (d : Desc) : State :=
  let n := pswSet d
  let ls := s.changedLids n
  let s := s.updLight fun b => { b with swPend := true, pendSet := n, swStep := 1, swLids := ls, swLines := s.changedLines n,
                                        swFenced := [], swEnt := some (q, d) }
  ls.foldl (fun a l => a.softFence l false) s

/-- A PSW starts, or waits until the one before it has passed step 6 (Table 8-13). -/
def State.pswStart (s : State) (q : Nat) (d : Desc) : State :=
  if s.light.swStep = 0 then s.pswBegin q d else s.updLight fun b => { b with swWait := b.swWait ++ [(q, d)] }

/-- The engine of a list; list 8192 is the sequencer's. -/
def State.pswAdd (s : State) (q c : Nat) : State := s.ctrAsk (.engine (s.que q).eng) c (.add 1#48)

/-- Every changed LID has drained or been hard-fenced, no rotation holds one, and no entry of a pair with one runs. -/
def State.pswDrained (s : State) : Bool :=
  (s.light.swLids.all fun l => (s.lid l).st != .up && ((s.lid l).st != .draining || (s.lid l).drained)) &&
  ((List.range 6).all fun p => !((s.port p).rot == 1 || (s.port p).rot == 2) ||
    !s.light.swLids.contains (entLid (s.passEnt s.light.actSet p (s.port p).rotLine))) &&
  (s.coll.runs.all fun r => !(s.pairLids r.tp).any fun l => s.light.swLids.contains l)

/-- PASS_SWITCH_DRAINED: step 2, the drain counter. -/
def execPassSwitchDrained (s : State) : Res :=
  match s.light.swEnt with
  | some (q, d) => when (s.light.swStep == 1 && s.pswDrained) s ((s.pswAdd q (pswDrain d)).updLight fun b => { b with swStep := 2 })
  | none => .next s

/-- A changed LID trains on the new set, unless a command fenced it; one that the new set leaves without lines is DOWN. -/
def State.pswLid (s : State) (l : Nat) : State :=
  if (s.lid l).st = .fenced ∧ !s.light.swFenced.contains l then s
  else
    let was := (s.lid l).st
    let t := if (s.port (s.lidPort l)).open_ then s.train_ l else s
    if (t.lid l).st = .training then t.updLid l fun k => { k with seq := 0, exp := 0, nak := false, due := false }
    else if was = .draining ∨ was = .training ∨ was = .fenced then t.lidOff l .down else t

/-- The shadow of set `n` takes effect as a switch that names the active set `n` is released, and VER advances (R229). -/
def State.takeShadow (s : State) (n : Nat) : State :=
  let t := tget [] s.light.shadow n
  if n ≠ s.light.actSet ∨ t.isEmpty then s
  else s.updLight fun b =>
    { b with sets := tputAll b.sets (t.map fun (x : Nat × W32) => (102 * n + x.1, x.2)), shadow := tdel b.shadow n
             ver := tupd 0 b.ver n fun v => (v + 1) % 8 }

/-- PASS_SWITCH_RELEASE: step 3; the target set is active, PASS_EP advances, changed rings retune with their markers unchecked until lock
(R221), changed LIDs train. The engine reads the release counter (R251). -/
def execPassSwitchRelease (s : State) : Res :=
  match s.light.swEnt with
  | none => .next s
  | some (q, d) =>
    let r := s.ctrRead (.engine (s.que q).eng) (pswCtr d)
    if s.light.swStep ≠ 2 then .next s
    else if r.2.toNat < pswThr d then .next r.1
    else
      let n := pswSet d
      let s := (r.1.takeShadow n).updLight fun b => { b with actSet := n, swPend := false, swStep := 3 }
      let s := s.light.swLines.foldl (fun (a : State) x =>
        let w := (a.port (x / 17)).phys (x % 17)
        (a.parkLine (x / 17) w).updLine (x / 17) w fun y => { y with susp := true }) s
      let s := s.light.swLids.foldl (fun (a : State) l => a.pswLid l) s
      .next ((s.passEpoch true).agedSwitch)

/-- RING_SHIFT_DONE: step 4; the changed rings are locked in the roles of the new set. -/
def execRingShiftDone (s : State) : Res :=
  when (s.light.swStep == 3) s <|
    let s := s.light.swLines.foldl (fun (a : State) x =>
      let p := x / 17
      if (a.port p).st = .dark ∨ (a.port p).st = .apr ∨ (a.port p).st = .failed ∨ (a.port p).st = .search then a
      else a.lockLine p ((a.port p).phys (x % 17))) s
    s.updLight fun b => { b with swStep := 4 }

/-- PASS_SWITCH_RECOVERED: step 5. -/
def execPassSwitchRecovered (s : State) : Res :=
  when (s.light.swStep == 4) s (s.updLight fun b => { b with swStep := 5 })

/-- Rotations that the switch deferred start (R245). -/
def State.dueRotations (s : State) : State :=
  (List.range 6).foldl (fun (a : State) p =>
    match (a.port p).rotDue with
    | some i => if (a.port p).rot = 0 ∧ a.eligible p i then a.startRotation p i else a.updPort p fun x => { x with rotDue := none }
    | none => a) s

/-- PASS_SWITCH_LOCKED: step 6, once every changed LID is UP or DOWN; the PSW completes with the count of LIDs that
stayed down, and the next one starts. -/
def execPassSwitchLocked (s : State) : Res :=
  match s.light.swEnt with
  | none => .next s
  | some (q, d) =>
    when (s.light.swStep == 5 && s.light.swLids.all fun l => (s.lid l).st != .training) s <|
      let named := (List.range 102).map fun x => entLid (s.passEnt s.light.actSet (x / 17) (x % 17))
      let lost := (s.light.swLids.filter fun l => named.contains l && (s.lid l).st != .up).length
      let s := s.updLight fun b => { b with swStep := 0, swLids := [], swLines := [], swFenced := [], swEnt := none }
      let s := (s.updEng (s.que q).eng fun e => { e with inprog := e.inprog - 1 }).tolDone q (s.que q).eng d (BitVec.ofNat 32 lost)
      let s := s.dueRotations
      match s.light.swWait with
      | [] => s
      | x :: xs => (s.updLight fun b => { b with swWait := xs }).pswBegin x.1 x.2

/-- PASS_LID_TRAIN_TIMEOUT (R232): 1 ms after the release. -/
def execPassLidTrainTimeout (lid us : Nat) (s : State) : Res :=
  unit lid 96 <| when (decide (s.light.swStep ≥ 3 ∧ us ≥ 1000) && s.light.swLids.contains lid && (s.lid lid).st == .training) s (s.lidDown lid)

end Sys2Proof.Machine
end

