-- ==== Sys2Proof/Machine/Watershed.lean ====
section
/-! DEFINITION. The watershed (10 R288 to R296), the tailings log (R297 to R299, 11 R320) and what an outcome does:
the state that training commands share. -/

namespace Sys2Proof.Machine

/-! ## Configuration -/

/-- The job configuration with every default of Table 12-13. -/
def jcDefault : JobCfg :=
  { detmode := 0, rec_ := 0, exportOn := false, dlb := false, group := 0, stepOnly := false, coreRg := 0, age := 2,
    ctrBase := 0, ctrN := 0, seqCeq := 1, waitLimit := 0, seed := 0#64, testInt := 600, hbmSlice := 50, nrqWait := 1000,
    collTmo := 100, voteTmo := 50, outGrace := 10, mirrorWait := 20, waitTmo := 100, retryMax := 2, ovfMax := 16,
    nRaise := 2000, eInit := 16, ovfMask := 0x03#8, expTgt := 0, targets := [] }

/-- The job's parameters (Tables 10-8 and 12-13). -/
def State.jc (s : State) : JobCfg := s.host.job.getD jcDefault

/-- Cores of the device, by number. -/
def allCores : List Nat := List.range 512

/-! ## Cores (R95) -/

/-- A core starts at its entry bundle with every register zero, no exception recorded (CAUSE of Table 4-15); its arrays and flag words
stay as they are (R49, R93). -/
def Cor.launch (k : Cor) : Cor :=
  { k.zeroed with st := .run, pc := k.entry, waiting := false, waitOn := none, waitOk := false, idleq := false,
                  item := none, tpend := false, testing := false, held := false, async := true, rdy := [], excCause := 0 }

/-- Core `c` starts, unless it is retired (R396). -/
def State.launchCore (s : State) (c : Nat) : State :=
  if (s.core c).retired ∨ (s.core c).retiring then s else s.updCore c fun k => { k.launch with step := s.train.step }

/-- A job launch: every core that is not retired starts, and VFLAGS of every core is cleared (R49, R95). -/
def State.launchAll (s : State) : State :=
  let s := allCores.foldl (fun a k => a.launchCore k) s
  { s with cores := s.cores.map fun (c : Nat × Cor) => (c.1, { c.2 with vflags := 0#8 }) }

/-! ## Readmission of cores, regions and dies (R398) -/

/-- Cores that word 2 of UNIT_READMIT names: a core, the core of a floor home region, or those of a compute die. -/
def readmitCores (w : W32) : List Nat :=
  let die := bitsOf w 29 24
  let sub := bitsOf w 23 22
  let u := bitsOf w 21 12
  if die < 8 ∧ sub = 0 ∧ u < 64 then [64 * die + u]
  else if die < 8 ∧ sub = 0 ∧ u = 64 then from_ (64 * die) 64
  else if die = 8 ∧ u < 128 then [128 * sub + u] else []

/-- A core is retired, or its home region has a retired bank. -/
def State.unitOut (s : State) (c : Nat) : Bool := (s.core c).retired || tget 0#32 s.floor.retbank c != 0#32

/-- The tests of R398 on one core and its region. What they find is a free choice: nothing, a bond group, a bank, the core. -/
def State.testCore (s : State) (c : Nat) : State × Bool :=
  let m := tget 0#32 s.floor.retbank c
  match Config.freeChoice s.free % 4 with
  | 0 => (s.tick, true)
  | 1 => ((s.tick.report (bondRep 2 c 0x06 (Config.freeChoice (s.free + 1) % 336))).tick, false)
  | 2 =>
    match (List.range 32).find? fun b => m.getLsbD b with
    | some b => (s.tick.report (floorRep 2 c 0x08 b), false)
    | none => (s.tick.report (rep 2 (c / 64) 0 (c % 64) 0x21 0), false)
  | _ => (s.tick.report (rep 2 (c / 64) 0 (c % 64) 0x21 0), false)

/-- The cores are tested one at a time, up to the first that fails. -/
def State.testCores (s : State) : List Nat → State × Bool
  | [] => (s, true)
  | c :: cs => if (s.testCore c).2 then (s.testCore c).1.testCores cs else ((s.testCore c).1, false)

/-- A core that passed: RETIRED, the bank bits and UNREP are cleared, and it is IDLE (R396). -/
def State.returnCore (s : State) (c : Nat) : State :=
  ((s.updCore c fun k => { k with retired := false, st := .idle }).updFloor fun f => { f with retbank := tput f.retbank c 0#32 }).updBond c
    fun b => { b with unrep := false }

/-- UNIT_READMIT acts: OK with a READMIT entry where every test passes, else BAD_STATE. -/
def State.actReadmit (s : State) (f : Fetched) : State :=
  let w := Desc.word f.d 2
  let cs := readmitCores w
  let r := s.testCores cs
  let t : State := if r.2 then (cs.foldl State.returnCore r.1).ledg 2 (bitsOf w 29 24) (bitsOf w 23 22) (bitsOf w 21 12) [] else r.1
  t.postOn f.q (rec0 (Desc.word f.d 1) f.q (if r.2 then 0 else 0x104) f.sqhead 0#32 0#32 0#32 0#32 ((Desc.word f.d 0).getLsbD 21))

/-- Readmissions that wait act at the attempt boundary. -/
def State.readmitDue (s : State) : State :=
  if s.train.atRest then s.flt.readmits.foldl State.actReadmit (s.updFlt fun f => { f with readmits := [] }) else s

/-! ## Records of the log (R297, R298) -/

/-- Units of 256 bytes of a record with `n` payload bytes. -/
def recUnits (n : Nat) : Nat := (64 + n + 255) / 256

/-- Table 10-11: the header, STATE OPEN. -/
def recHeader (kind lnode : Nat) (step : W64) (vseq : W32) (e : Int) (clean : Nat) (payload : List Byte) : List Byte :=
  [0x54#8, 0x4C#8, 0x4F#8, 0x47#8, BitVec.ofNat 8 kind, 0#8] ++ natLe lnode 2 ++ natLe step.toNat 8 ++ wordBytes vseq ++
  [BitVec.ofNat 8 (twos e 8), 0#8] ++ natLe clean 2 ++ natLe payload.length 8 ++ treeHash payload

/-- A record, padded to a multiple of 256 bytes. -/
def recBytes (h payload : List Byte) : List Byte :=
  let b := h ++ payload
  b ++ List.replicate (256 * recUnits payload.length - b.length) 0#8

/-- Where the next record of `u` units goes: at HEAD, or at 0 where it would pass the end; none where it would overlap a
record that is held (R297, R299). -/
def placeRec (size head : Nat) (held : List (Nat × Nat × Nat × Nat × Nat)) (u : Nat) : Option Nat :=
  let p := if head + u > size then 0 else head
  if u ≤ size ∧ held.all (fun r => decide (p + u ≤ r.1 ∨ r.1 + r.2.1 ≤ p)) then some p else none

/-- TAIL: the offset of the first record held, HEAD where there is none. -/
def tailOf (recs : List (Nat × Nat × Nat × Nat × Nat)) (head : Nat) : Nat := (recs.head?.map (·.1)).getD head

/-- A phase boundary: the power controller's phase changes (R364), and weights that a command has set take effect (R191). -/
def State.toPhase (s : State) (n : Nat) : State := (s.setPhase n).weightsDue

/-- Bytes of this device's memory for its hub. -/
def State.hubRead (s : State) (a n : Nat) : State × List Byte × List Bool :=
  let r := s.memRead .hub 0 (a % 2 ^ 40) n
  (r.1, r.2.1, r.2.2.1)
def State.hubWrite (s : State) (a : Nat) (bs : List Byte) : State := (s.memPut .hub 0 (a % 2 ^ 40) bs).1

/-- The records of the mentee for a VSEQ, from HEAD: offset, units, STEP, VSEQ, KIND. -/
def State.menteeRecs (s : State) (t : StageTab) (v : W32) : Nat → Nat → List (Nat × Nat × Nat × Nat × Nat)
  | 0, _ => []
  | k + 1, p =>
    let hdr := fun (q : Nat) => (s.hubRead (t.logBase + 256 * q) 32).2.1
    let good := fun (q : Nat) => let h := hdr q
      fieldLe h 0 4 == 0x474F4C54 && fieldLe h 5 1 == 0 && fieldLe h 6 2 == t.mentee && fieldLe h 16 4 == v.toNat
    match ([p, 0].dedup).find? fun q => decide (q < t.logSize) && good q with
    | none => []
    | some q =>
      let h := hdr q
      let u := recUnits (fieldLe h 24 8)
      let r := (q, u, fieldLe h 8 8, fieldLe h 16 4, fieldLe h 4 1)
      if fieldLe h 4 1 = 1 then [r] else r :: s.menteeRecs t v k (q + u)

/-- The mentee's records of the VSEQ take their STATE, and a commit moves HEAD past them (R289 action 3, R290, R320);
COMMITTED INPUT records are exported where the job asks for it (R321). -/
def State.holderMark (s : State) (commit : Bool) : State :=
  match s.train.tab with
  | none => s
  | some t =>
    let rs := s.menteeRecs t s.train.vseq (t.logSize + 1) s.train.head
    let s := rs.foldl (fun a r => a.hubWrite (t.logBase + 256 * r.1 + 5) [if commit then 1#8 else 2#8]) s
    if !commit then s
    else
      let s := s.updTrain fun x =>
        let h := (rs.getLast?.map fun r => r.1 + r.2.1).getD x.head
        { x with recs := x.recs ++ rs, head := h, tail := tailOf (x.recs ++ rs) h }
      if !s.jc.exportOn then s
      else (rs.filter fun r => r.2.2.2.2 == 2).foldl (fun (a : State) r =>
        let b := a.hubRead (t.logBase + 256 * r.1) (256 * r.2.1)
        let off := (Config.freeWord b.1.free).toNat
        ((b.1.tick).emit (.storage a.jc.expTgt off b.2.1)).updDet fun d => { d with expPend := satAdd 16 d.expPend 1 }) s

/-! ## Images (R300, R301, R304) -/

/-- A region's chunks of 64 MiB with their spoil marks. -/
def chunksOf (b : List (Byte × Bool)) : List (List (Byte × Bool)) :=
  (List.range ((b.length + 2 ^ 26 - 1) / 2 ^ 26)).map fun i => (b.drop (2 ^ 26 * i)).take (2 ^ 26)

/-- Table 10-13. -/
def manifestEntry (region chunk : Nat) (b : List (Byte × Bool)) : List Byte :=
  [BitVec.ofNat 8 region, BitVec.ofNat 8 (b2n (b.any (·.2))), 0#8, 0#8] ++ natLe chunk 4 ++ natLe b.length 4 ++ natLe 0 4 ++ sha256 (b.map (·.1))

/-- Table 10-12, and the entries. -/
def manifest (kind lnode : Nat) (step : W64) (e : Int) (clean : Nat) (regions : List (Nat × List (Byte × Bool))) : List Byte :=
  let ents := regions.flatMap fun r => (chunksOf r.2).zipIdx.map fun c => manifestEntry r.1 c.2 c.1
  let tab := ents.flatMap id
  [0x4D#8, 0x4E#8, 0x46#8, 0x54#8, 1#8, BitVec.ofNat 8 kind] ++ natLe lnode 2 ++ natLe step.toNat 8 ++ [BitVec.ofNat 8 (twos e 8), 0#8] ++
    natLe clean 2 ++ natLe ents.length 4 ++ natLe (regions.map (·.2.length)).sum 8 ++ sha256 tab ++ tab

/-- The state regions of a slot, in state-entry order, read under regulator group `g`. -/
def State.regionsOf (s : State) (g : Nat) (t : StageTab) (slot : Nat) : State × List (Nat × List (Byte × Bool)) :=
  t.states.zipIdx.foldl (fun (a : State × List (Nat × List (Byte × Bool))) r =>
    let x := a.1.memReadG g .hub 0 ((if slot = 0 then r.1.1 else r.1.2.1) % 2 ^ 40) r.1.2.2
    (x.1, a.2 ++ [(r.2, x.2.1.zip x.2.2.1)])) (s, [])

/-- Bytes `b` with spoil marks go to window `win` of a node from byte `off`, in WRITE messages of at most 2^24 bytes whose answers count
as `use` says. -/
def State.writeOut (s : State) (dst win off use : Nat) (b : List (Byte × Bool)) : State :=
  (List.range ((b.length + 2 ^ 24 - 1) / 2 ^ 24)).foldl (fun (a : State) i =>
    let x := (b.drop (2 ^ 24 * i)).take (2 ^ 24)
    let slot := a.newSlot
    let a := a.updFab fun f => { f with nextSlot := (slot + 1) % 65536, outMsgs := f.outMsgs ++
      [{ slot := slot, typ := 2, q := 0, tag := 0#32, sqh := 0, dev := 0, len := x.length, got := 0, sent := true, use := use, part := a.fab.part }] }
    a.sendMsg dst 2 win (off + 2 ^ 24 * i) slot a.fab.part false x) s

/-- A drain image goes to the standby: the manifest, then its chunks. No rule names the window that takes it: a free value [147]. -/
def State.sendDrain (s : State) (rs : List (Nat × List (Byte × Bool))) : State :=
  match s.train.pend.find? fun x => x.kind == 2 && x.n == s.train.repl.lnode with
  | none => s
  | some x =>
    let m := manifest 1 s.fab.lnode (s.train.step - 1) s.train.e s.train.clean rs
    s.tick.writeOut x.y (Config.freeChoice s.free % 1024) 0 2 (m.map (·, false) ++ rs.flatMap (·.2))

/-- The mentee's log from TAIL to HEAD: its records in order. -/
def State.menteeLog (s : State) (t : StageTab) : State × List (Byte × Bool) :=
  s.train.recs.foldl (fun (a : State × List (Byte × Bool)) r =>
    let x := a.1.memReadG s.train.repl.grp .hub 0 ((t.logBase + 256 * r.1) % 2 ^ 40) (256 * r.2.1)
    (x.1, a.2 ++ x.2.1.zip x.2.2.1)) (s, [])

/-- The records of a copied log and their places: they keep the places of R297, from unit `pos` on. -/
def logRecs (size : Nat) : Nat → Nat → List Byte → List ((Nat × Nat × Nat × Nat × Nat) × List Byte)
  | 0, _, _ => []
  | k + 1, pos, b =>
    if fieldLe b 0 4 ≠ 0x474F4C54 then []
    else
      let u := recUnits (fieldLe b 24 8)
      let o := if pos + u > size then 0 else pos
      ((o, u, fieldLe b 8 8, fieldLe b 16 4, fieldLe b 4 1), b.take (256 * u)) :: logRecs size k (o + u) (b.drop (256 * u))

/-- The standby of a drain takes the mentee's log (Table 10-15 step 4): its records, HEAD and TAIL. -/
def State.takeLog (s : State) (t : StageTab) (tail : Nat) (b : List Byte) : State :=
  let l := logRecs t.logSize t.logSize tail b
  let s := l.foldl (fun a r => a.hubWrite (t.logBase + 256 * r.1.1) r.2) s
  s.updTrain fun y =>
    let h := (l.getLast?.map fun r => r.1.1 + r.1.2.1).getD tail
    { y with recs := l.map (·.1), head := h, tail := tailOf (l.map (·.1)) h }

/-! ## Pending changes (R289 action 4, R295, R300, R304) -/

/-- A checkpoint seal: TAIL moves to the first record whose STEP is above `S`, at the holder and at the mentee. -/
def State.sealCkpt (s : State) (at_ : Nat) : State :=
  s.updTrain fun t =>
    let r := t.recs.dropWhile fun x => decide (x.2.2.1 ≤ at_)
    let b := t.bRecs.dropWhile fun x => decide (x.2.2.1 ≤ at_)
    { t with recs := r, tail := tailOf r t.head, bRecs := b, bTail := tailOf b t.bHead, loggap := false,
             sealStep := BitVec.ofNat 64 at_ }

/-- Place of a standby slot in STBYPOS (R197). -/
def stbyIdx (n : Nat) : Nat := n / 128 * 8 + (n % 128 - 64)

/-- A LOG2PHYS change takes effect (R22, R299, R302, R304). -/
def State.moveNode (s : State) (x : Pending) : State :=
  let prev := s.l2p x.n
  let s := s.updFab fun f => { f with
    l2p := tput f.l2p x.n x.y
    stby := if x.y % 128 ≥ 64 then tput f.stby (stbyIdx x.y) (BitVec.ofNat 8 x.stby) else f.stby
    stbyClr := if prev < 65535 ∧ prev % 128 ≥ 64 then setIns f.stbyClr (stbyIdx prev) else f.stbyClr }
  let s := s.updTrain fun t =>
    if x.kind = 1 ∧ (t.tab.map (·.buddy)) = some x.n then { t with bHead := 0, bTail := 0, bRecs := [], loggap := true } else t
  if x.y = s.fab.phys then
    let s := (s.updFab fun f => { f with lnode := x.n }).updTrain fun t => { t with repl := { t.repl with st := 5 } }
    s.setJob .held 6
  else
    let s := if prev = s.fab.phys then s.updTrain fun t => { t with repl := { t.repl with st := 5 } } else s
    if x.hnd = 0 then s else s.doneLong x.hnd

/-- The changes named for VSEQ `v` take effect in the order of R289 action 4. -/
def State.applyPending (s : State) (v : Nat) : State :=
  let mine := s.train.pend.filter fun x => x.vseq == v
  let s := s.updTrain fun t => { t with pend := t.pend.filter fun x => x.vseq != v }
  let s := (mine.filter fun x => x.kind == 0).foldl (fun (a : State) x => a.sealCkpt x.s) s
  let s := (mine.filter fun x => x.kind != 0).foldl (fun (a : State) x => a.moveNode x) s
  let s := if s.fab.shadow.isSome ∧ !s.fab.shadowSw ∧ s.fab.shadowAt = v then s.epochSwitch else s
  if s.readmissionDue then s.passEpoch true else s

/-- The changes named for VSEQ `v` are discarded; their commands end with ABORTED. -/
def State.discardPending (s : State) (v : Nat) : State :=
  let mine := s.train.pend.filter fun x => x.vseq == v
  let s := s.updTrain fun t => { t with pend := t.pend.filter fun x => x.vseq != v }
  let s := mine.foldl (fun (a : State) x => if x.hnd = 0 then a else a.finishLong x.hnd 0x109 0#32 0#32 0#32 0#32) s
  if s.fab.shadow.isSome ∧ !s.fab.shadowSw ∧ s.fab.shadowAt = v then
    s.dropShadow
  else s

/-! ## Loss scale (R291) -/

def Train.scale (t : Train) (commit ovf : Bool) (nRaise : Nat) : Train :=
  if commit then
    if t.clean + 1 = nRaise then { t with e := min (t.e + 1) 64, clean := 0 } else { t with clean := t.clean + 1 }
  else if ovf then { t with e := max (t.e - 1) (-64), clean := 0 }
  else t

/-! ## Votes (R288, R295) -/

/-- The sequencer's VOTE entry (R288). -/
def voteEntry (vseq : W32) (tp : Nat) (h o : Bool) : Desc :=
  [0x443#32, 0#32, BitVec.ofNat 32 (2 ^ 25 + 4035 * 2 ^ 12), 0#32, BitVec.ofNat 32 ((0xF000 + vseq.toNat % 4095) * 65536),
   BitVec.ofNat 32 (tp % 4 * 2 ^ 20), vseq, BitVec.ofNat 32 (b2n h + 2 * b2n o), 0#32, 0#32, 0#32, 0#32, 0#32, 0#32, 0#32, 0#32]

/-- VSEQ rises by 1 for every watershed; launch and attachment name the first. -/
def State.openVseq (s : State) : State :=
  s.updTrain fun t => { t with vseq := if t.fresh then t.vseq else t.vseq + 1, fresh := false, out := none, sealed_ := t.fresh && t.sealed_ }

/-- The VOTE of the attempt is posted (Table 10-7 step 7). Errors reported from here on count in the next attempt. -/
def State.postVote (s : State) (h o : Bool) : State :=
  let tp := (s.train.tab.map (·.voteTp)).getD 0
  (s.toPhase 5).updTrain fun t =>
    { t with h := h, o := o, voteAt := s.now, votes := t.votes ++ [voteEntry t.vseq tp h o], errSince := false }

/-- CERTIFY begins between attempts (R326): what it certifies is the state as it then stands [149]. -/
def State.startCert (s : State) : State :=
  match s.det.cert with
  | some c =>
    if s.det.certAt.isSome ∨ !s.between ∨ !s.train.atRest then s
    else
      let t := s.train
      let ff := ((s.det.ffAt.find? fun f => f.1 == c.2.2.2.1).map (·.2)).getD false
      s.updDet fun d => { d with certAt := some { slot := t.slot, step := t.step, vseq := t.vseq, e := t.e, clean := t.clean, ff := ff } }
  | none => s

/-- CFG_WATERSHED between attempts (R295): word 2 [1:0] of the command names the tree pair. -/
def State.startCfg (s : State) : State :=
  match s.train.cfgHnd with
  | none => s
  | some h =>
    if !s.between ∨ !s.train.atRest then s
    else
      let tp := ((s.longAt h).map fun l => bitsOf (Desc.word l.d 2) 1 0).getD 0
      let s := s.openVseq
      let fills : Bool := s.train.js == .pending || s.train.js == .rebuild || s.train.repl.st == 4
      let ok := !fills || s.train.repl.st == 3
      s.updTrain fun t => { t with cfgw := true, ws := .open_, h := ok, o := false,
                                   votes := t.votes ++ [voteEntry t.vseq tp ok false] }

/-! ## Outcomes (R289, R290, R292, R295, R296) -/

/-- Payload bytes of the INPUT records of an attempt (Table 11-4): at most 4,096 entries a record. -/
def inputEntry (x : InputRec) : List Byte :=
  natLe x.order 4 ++ [BitVec.ofNat 8 x.srck, 0#8, 0#8, 0#8] ++ natLe x.len 4 ++ natLe 0 4 ++ natLe x.obj 8 ++ natLe x.off 8 ++
  natLe x.dst 8 ++ x.dig.take 24

def pad256 (bs : List Byte) : List Byte := bs ++ List.replicate ((256 - bs.length % 256) % 256) 0#8

def inputPayloads (full : Bool) (l : List InputRec) : List (List Byte) :=
  (List.range ((l.length + 4095) / 4096)).map fun i =>
    let g := (l.drop (4096 * i)).take 4096
    g.flatMap inputEntry ++ (if full then g.flatMap fun x => pad256 x.data else [])

/-- The job's CWQs. -/
def State.jobQueues (s : State) (typ : Nat) : List Nat := (s.host.qs.filter fun e => e.2.typ == typ && e.2.part == s.fab.part).map (·.1)

/-- The job is brought to rest (R296): queued items are removed with ABORTED and cores take no further item. -/
def State.beginRest (s : State) : State :=
  let s := (s.jobQueues 3).foldl (fun (a : State) q => a.abortEntries (.core (a.que q).core) q) s
  let s := { s with cores := s.cores.map fun (c : Nat × Cor) => if c.2.st = RunState.run then (c.1, { c.2 with held := true }) else c }
  s.updTrain fun t => { t with atRest := false }

/-- A replay whose command has been cancelled is over once the job holds (R346). -/
def State.endReplay (s : State) : State := s.updDet fun d => { d with replay := d.replay && d.rhnd != 0, feed := if d.rhnd = 0 then [] else d.feed }

/-- The replay has reached T_stop (R322). -/
def State.stopReplay (s : State) : State :=
  (s.updDet fun d => { d with replay := false, rhnd := 0, feed := [] }).doneLong s.det.rhnd

/-- The source of a drain sends its image at its first commit, and its mentee's log at the commit that holds the job (Table 10-15). -/
def State.drainSends (s : State) (hold : Bool) : State :=
  match s.train.tab with
  | some t =>
    if !s.train.repl.source then s
    else if s.train.repl.t_ = 0 then
      let x := s.regionsOf s.train.repl.grp t s.train.slot
      (x.1.sendDrain x.2).updTrain fun y => { y with repl := { y.repl with image := y.step.toNat - 1, t_ := 1 } }
    else if hold then
      let x := s.menteeLog t
      x.1.sendDrain [(255, x.2)]
    else s
  | none => s

/-- COMMIT of a training watershed (R289). -/
def State.stepCommit (s : State) : State :=
  let v := s.train.vseq.toNat
  let done := s.train.step
  let s := s.updTrain fun t => { (t.scale true false s.jc.nRaise) with
    slot := (t.slot + 1) % 2, step := t.step + 1, retry := 0, ovfrun := 0, hrun := 0 }
  let s := s.holderMark true
  let s := s.updTrain fun t =>
    let h := (t.sent.getLast?.map fun r => r.1 + r.2.1).getD t.bHead
    { t with bRecs := t.bRecs ++ t.sent, bHead := h, bTail := tailOf (t.bRecs ++ t.sent) h, sent := []
             pend := t.pend.map fun x => if x.kind = 2 then { x with s := x.s + 1 } else x }
  let pay := if s.jc.rec_ = 0 then [] else (inputPayloads (s.jc.rec_ == 2) s.det.inputs).map (done.toNat, ·)
  let s := s.updDet fun d => { d with inPay := d.inPay ++ pay, inputs := [], ffAt := (done, s.power.ffheld) :: d.ffAt
                                      origDig := if d.replay ∨ d.sentDig.isEmpty then d.origDig else d.origDig ++ [(done.toNat, d.sentDig)] }
  let drain := s.train.pend.any fun x => x.kind == 2 && x.s == 2
  let s := s.drainSends drain
  let s := (s.applyPending v).ctrAsk .sequencer 4036 (.add 1#48)
  let stop : Bool := s.det.replay && s.train.step == s.det.tstop
  let s := if stop then s.stopReplay else s
  let hold : Nat := if drain then 6 else if s.train.wantHold || stop then 5 else 0
  let s := if hold > 0 then s.endReplay else s
  let s := s.updTrain fun t => { t with wantHold := false }
  if hold > 0 ∧ s.train.js = .run then s.setJob .held hold
  else if s.train.wantRun then (s.updTrain fun t => { t with wantRun := false }).setJob .run 0 else s

/-- Cause of the hold after an ABORT, 0 for a retry (R296). -/
def State.abortHold (s : State) (ovf tmo : Bool) : Nat :=
  let t := s.train
  if tmo then 2 else if t.full then 4 else if t.wantHold then 5 else if t.pend.any (fun x => x.kind == 1) then 6
  else if ovf then (if t.ovfrun ≥ s.jc.ovfMax then 7 else 0)
  else if t.hrun > s.jc.retryMax then 1 else 0

/-- ABORT of a training watershed (R290). `h` is the combined health bit. -/
def State.stepAbort (s : State) (ovf h tmo : Bool) : State :=
  let v := s.train.vseq.toNat
  let s := (s.updTrain fun t => { (t.scale false ovf s.jc.nRaise) with
    retry := satAdd 8 t.retry 1, ovfrun := if ovf then satAdd 8 t.ovfrun 1 else 0, hrun := if h then 0 else t.hrun + 1
    sent := [] }).holderMark false
  let s := s.discardPending v
  let s := s.updDet fun d => { d with inputs := [] }
  let hold := s.abortHold ovf tmo
  (s.updTrain fun t => { t with due := hold, wantHold := false }).beginRest

/-- The outcome of a configuration watershed: action 4 alone (R295). -/
def State.cfgOutcome (s : State) (commit : Bool) : State :=
  let v := s.train.vseq.toNat
  let h := s.train.cfgHnd
  let s := if commit then (s.applyPending v).updTrain fun t => { t with gather := true } else s.discardPending v
  let s := s.updTrain fun t => { t with cfgHnd := none }
  match h with
  | some i => s.finishLong i (if commit then 2 else 0x109) 0#32 0#32 0#32 0#32
  | none => s

/-- A device takes the outcome of its VSEQ (R289 to R292). -/
def State.takeOutcome (s : State) (commit ovf h tmo : Bool) : State :=
  let s := (s.toPhase 0).updTrain fun t => { t with out := some (commit, ovf), ws := if commit then .committed else .aborted,
                                                    aborts := if commit then t.aborts else satAdd 16 t.aborts 1 }
  let s := if s.train.cfgw then s.cfgOutcome commit else if commit then s.stepCommit else s.stepAbort ovf h tmo
  s.balanceReport.agedSwitch.readmitDue.startCert.startCfg

end Sys2Proof.Machine
end

