-- ==== Sys2Proof/Machine/Coll.lean ====
section
/-! DEFINITION. Collectives on double trees (09): starting entries of triggered-operation lists, sending and combining
data cells, seals, barriers and votes, time limits and the census of a tree plan. -/

namespace Sys2Proof.Machine

/-! ## Runs -/

/-- The collective in progress on a pair under a CID. -/
def State.collRun (s : State) (tp cid : Nat) : Option CollRun := s.coll.runs.find? fun r => r.tp == tp && r.cid == cid

/-- The run as it stands. -/
def State.putRun (s : State) (r : CollRun) : State :=
  s.updColl fun c => { c with runs := c.runs.map fun x => if x.tp == r.tp && x.cid == r.cid then r else x }

def CollRun.tree (r : CollRun) (t : Nat) : TreeRun := if t = 0 then r.a else r.b
def CollRun.setTree (r : CollRun) (t : Nat) (x : TreeRun) : CollRun := if t = 0 then { r with a := x } else { r with b := x }

def TreeEnt.root (e : TreeEnt) : Bool := e.parent == 0x7F
def TreeEnt.has0 (e : TreeEnt) : Bool := e.child0 != 0x7F
def TreeEnt.has1 (e : TreeEnt) : Bool := e.child1 != 0x7F

/-- The engine that combines at this node (R248): that of the parent LID's port, at the root of CHILD0's; a list's own
engine on a device alone. -/
def State.nodeEng (s : State) (r : CollRun) (t : Nat) : Nat :=
  let e := s.tree r.tp t
  if !e.root then (s.lid e.parent).port else if e.has0 then (s.lid e.child0).port else r.eng

/-- Progress of a tree at its start. -/
def TreeRun.init (h o : Bool) : TreeRun :=
  { upAt := 0, c0 := [], c1 := [], fwd := [], dnq := [], wrote := [], out := [], got0 := false, got1 := false, gotP := false,
    sent := false, voteH := h, voteO := o, down := none }

/-! ## Wire forms (Table 9-5): 0 rows, 1 two bytes, 2 four bytes, 3 eight bytes, 4 limb packets -/

def colSrcWire (d : Desc) : Nat := if colRows d then 0 else if colSfmt d = 1 then 1 else 2
def colDstWire (d : Desc) : Nat := if colXdst d then 4 else if colDfmt d = 1 then 1 else if colDfmt d = 3 then 3 else 2
def colSumx (d : Desc) : Bool := decide (colKind d ≤ 2) && colOp d == 1

/-- Data on its way up. -/
def colUpWire (d : Desc) : Nat := if colKind d ≥ 3 then colSrcWire d else if colSumx d then 4 else 2

/-- Data on its way down: rounded DFMT values or packets of a SUMX all-reduce, packets of a SUMX reduce-scatter (R263). -/
def colDnWire (d : Desc) : Nat :=
  if colKind d ≥ 3 then colSrcWire d else if !colSumx d then 2 else if colKind d = 2 then 4 else colDstWire d

/-- Bytes of a unit; 1 stands for a packet, whose length is its own. -/
def wireLen (w l : Nat) : Nat :=
  match w with
  | 0 => l + 1
  | 1 => 2
  | 2 => 4
  | 3 => 8
  | _ => 1

/-- Units that a cell's 236 bytes hold; packets as many as fit. -/
def wireCap (w l : Nat) : Nat := 236 / wireLen w l

/-- MSGOFF of a unit in its segment. Of binary64 values, which Table 9-5 does not list, the element index [32]. -/
def wireOff (w l i : Nat) : Nat := if w = 3 then i else wireLen w l * i

/-- Units of a segment of 2^22 elements (R262). -/
def segUnits (w l : Nat) : Nat := if w = 0 then 2 ^ 22 / l else 2 ^ 22

/-- The longest run of units whose bytes fit a cell. -/
def fitUnits : Nat → List Elem → List Elem
  | _, [] => []
  | n, u :: us => if u.bytes.length ≤ n then u :: fitUnits (n - u.bytes.length) us else []

/-- Units read from a payload. -/
def wireUnits (w l : Nat) (spoil : Bool) : Nat → List Byte → List Elem
  | 0, _ => []
  | n + 1, bs =>
    if bs.isEmpty then []
    else if w = 4 then
      (match readPacket bs with
      | none => []
      | some p => { bytes := bs.take (bs.length - p.2.length), spoil := spoil, marks := [] } :: wireUnits w l spoil n p.2)
    else { bytes := bs.take (wireLen w l), spoil := spoil, marks := [] } :: wireUnits w l spoil n (bs.drop (wireLen w l))

/-! ## Values (R258, R260, R263, R264) -/

/-- A source unit in the form that its tree carries, with the flags of its reading; binary32 that is added or compared is read under R42 and
R43, integers and gathered data pass as they are. -/
def colIn (d : Desc) (bs : List Byte) (code : Byte) : List Byte × Nat :=
  if colKind d ≥ 3 then (if colRows d then code :: bs else bs, 0)
  else
    let x := leNat bs
    if colSumx d then
      if colXsrc d then ((exOfWords (bytesWords bs)).1.packet, 0)
      else ((Ex.zero.addNum (fmtB32.read x)).packet, fmtB32.snf x)
    else if colOp d = 4 ∨ colOp d = 5 then (bs, 0)
    else
      let f := if colSfmt d = 1 then fmtQ16 else fmtB32
      let y := fmtB32.write (f.read x) 0 0
      (natLe y.1 4, y.2 ||| f.snf x)

/-- Two partials combined (Table 9-4), with flags. -/
def colJoin (d : Desc) (a b : List Byte) : List Byte × Nat :=
  if colSumx d then
    match readPacket a, readPacket b with
    | some x, some y => ((x.1.add y.1).packet, 0)
    | _, _ => (a, 0)
  else
    let x := leNat a
    let y := leNat b
    match colOp d with
    | 0 => let z := fpLane 1 fmtB32 x y 0; (natLe z.1 4, z.2)
    | 2 => let z := fpLane 5 fmtB32 x y 0; (natLe z.1 4, z.2)
    | 3 => let z := fpLane 6 fmtB32 x y 0; (natLe z.1 4, z.2)
    | 4 => (natLe ((x + y) % 2 ^ 32) 4, 0)
    | _ => (natLe (Nat.lor x y) 4, 0)

def joinElem (d : Desc) (a b : Elem) : Elem × Nat :=
  let z := colJoin d a.bytes b.bytes
  ({ bytes := z.1, spoil := a.spoil || b.spoil, marks := [] }, z.2)

/-- A spoiled source reached the unit. -/
def Elem.bad (u : Elem) : Bool := u.spoil || u.marks.any id

/-- A spoiled source reached element `j` of the unit (R265). -/
def Elem.badAt (u : Elem) (j : Nat) : Bool := u.spoil || u.marks.getD j false

/-- DST's format. -/
def colFmt (d : Desc) : Fmt := if colDfmt d = 1 then fmtQ16 else if colDfmt d = 3 then fmtB64 else fmtB32

/-- A packet in DST's form: a record, or rounded once (R61). `r` is the draw of the element. -/
def colRound (d : Desc) (r : Nat) (bs : List Byte) : List Byte × Nat :=
  match readPacket bs with
  | none => (bs, 0)
  | some x =>
    if colXdst d then (wordsBytes x.1.words, 0)
    else
      let y := (colFmt d).write x.1.num (colCvt d) r
      (natLe y.1 ((colFmt d).w / 8), y.2)

/-- A unit as DST takes it: bytes, flags. Rows of Q8 leave their code to DCODE, or widen to Q16 (R264). -/
def colOut (d : Desc) (wire r : Nat) (bs : List Byte) : List Byte × Nat :=
  if colKind d ≥ 3 then
    if colRows d then
      if colDfmt d = 0 then (bs.drop 1, 0)
      else
        let ys := (bs.drop 1).map fun b => widenQ8 b.toNat (bs.headD 0#8).toNat
        (ys.flatMap fun y => natLe y.1 2, ys.foldl (fun a y => a ||| y.2) 0)
    else (bs, 0)
  else if colSumx d then (if wire = 4 then colRound d r bs else (bs, 0))
  else if colDfmt d = 1 then
    let y := fmtQ16.write (fmtB32.read (leNat bs)) (colCvt d) r
    (natLe y.1 2, y.2)
  else (bs, 0)

/-- The draw of element `i` of tree half `t` at engine `e` (R261). -/
def State.colDraw (s : State) (r : CollRun) (e t i : Nat) : Nat :=
  draw s.jc.seed s.train.step 0 (80 + 2 * e + t) r.cid i % 65536

/-! ## Source and destination -/

/-- A run in hand: the state, the run, and whether one of its requests has failed (R154, R157). -/
structure Work where
  s    : State
  r    : CollRun
  lost : Bool

def Work.flags (w : Work) (e f : Nat) : Work := { w with s := w.s.updEng e fun x => { x with flags := orFlags x.flags f } }

/-- Units `i`, …, `i + n − 1` of tree `t`'s source. -/
def Work.read (w : Work) (t i n : Nat) : Work × List Elem :=
  let d := w.r.ent
  let e := w.s.nodeEng w.r t
  let h := colHalf d t (colSrcUnits d w.s.train.n)
  let sb := colSbytes d
  let x := w.s.spaceRead e (colSrc d).1 ((colSrc d).2 + (h + i) * sb) (n * sb)
  let y := if colRows d then x.1.spaceRead e false (4 * (Desc.word d 10).toNat + h + i) n else (x.1, [], false)
  let us := (List.range n).map fun j =>
    let bs := (x.2.1.drop (j * sb)).take sb
    let c := y.2.1.getD j (0#8, false)
    let v := colIn d (bs.map (·.1)) c.1
    (({ bytes := v.1, spoil := if colRows d then c.2 else bs.any (·.2), marks := if colRows d then bs.map (·.2) else [] } : Elem), v.2)
  (({ w with s := y.1, lost := w.lost || x.2.2 || y.2.2 } : Work).flags e (us.foldl (fun a u => a ||| u.2) 0), us.map (·.1))

/-- First unit of this device's shard (R258). -/
def State.shardAt (s : State) (r : CollRun) (t : Nat) : Nat := (s.tree r.tp t).rank * colUnits r.ent

/-- Units from index `i` of the tree half are written to DST. -/
def Work.write (w : Work) (t i : Nat) (us : List Elem) (wire : Nat) : Work :=
  let d := w.r.ent
  let e := w.s.nodeEng w.r t
  let j := if colKind d = 2 then i - w.s.shardAt w.r t else i
  let h := colHalf d t (colDstUnits d w.s.train.n)
  let vs := us.zipIdx.map fun u => (u.1, colOut d wire (w.s.colDraw w.r e t (i + u.2)) u.1.bytes)
  let wide := if colRows d ∧ colDfmt d = 1 then 2 else 1
  let x := w.s.spaceWrite e (colDst d).1 ((colDst d).2 + (h + j) * colDbytes d)
    (vs.flatMap fun v => v.2.1.zipIdx.map fun b => (b.1, v.1.badAt (b.2 / wide)))
  let y := if colRows d ∧ colDfmt d = 0 then
      x.1.spaceWrite e false (4 * (Desc.word d 11).toNat + h + j) (us.map fun u => (u.bytes.headD 0#8, u.spoil))
    else (x.1, false)
  let tr := w.r.tree t
  ({ s := y.1, r := w.r.setTree t { tr with wrote := tr.wrote ++ [(j, us.length)] }, lost := w.lost || x.2 || y.2 } : Work).flags e
    (vs.foldl (fun a v => a ||| v.2.2) 0)

/-! ## Data down (R259) -/

/-- Cuts a run of units at the bounds of shards of `n` units. -/
def byOwner (n : Nat) : Nat → Nat → List Elem → List Chunk
  | 0, _, _ => []
  | k + 1, i, us =>
    if us.isEmpty then []
    else
      let m := (i / n + 1) * n - i
      { idx := i, units := us.take m } :: byOwner n k (i + m) (us.drop m)

/-- The child whose subtree holds a rank (R254). -/
def TreeEnt.holds (e : TreeEnt) (k : Nat) : Nat := if e.rank < k ∧ k ≤ e.rank + e.c0size then 0 else 1

/-- A chunk waits for child `k`. -/
def CollRun.push (r : CollRun) (t k : Nat) (c : Chunk) : CollRun :=
  let x := r.tree t
  r.setTree t { x with dnq := x.dnq ++ [(k, c)] }

/-- A chunk waits for every child. -/
def Work.pushAll (w : Work) (t : Nat) (c : Chunk) : Work :=
  let e := w.s.tree w.r.tp t
  let r := if e.has0 then w.r.push t 0 c else w.r
  { w with r := if e.has1 then r.push t 1 c else r }

/-- Data that comes down, or arises at the root: written where it is this device's, and passed on. -/
def Work.down (w : Work) (t i : Nat) (us : List Elem) (wire : Nat) : Work :=
  let d := w.r.ent
  if us.isEmpty then w
  else if colKind d = 0 then w.write t i us wire
  else if colKind d = 2 then
    (byOwner (colUnits d) (us.length + 1) i us).foldl (fun (a : Work) c =>
      let e := a.s.tree a.r.tp t
      let k := c.idx / colUnits d
      if k = e.rank then a.write t c.idx c.units wire else { a with r := a.r.push t (e.holds k) c }) w
  else (w.write t i us wire).pushAll t { idx := i, units := us }

/-! ## Data up -/

/-- Units of the tree half that are reduced. -/
def colTotal (d : Desc) (n : Nat) : Nat := if colKind d = 2 then n * colUnits d else colUnits d

/-- Units from index `i` on that have come, without a gap (02 R64). -/
def runFrom (i : Nat) (xs : List (Nat × Elem)) : Nat := ((List.range xs.length).takeWhile fun j => xs.any fun x => x.1 == i + j).length

/-- The partial of unit `i`. -/
def unitAt (xs : List (Nat × Elem)) (i : Nat) (u : Elem) : Elem := ((xs.find? fun x => x.1 == i).map (·.2)).getD u

/-- Units at a node for which both partials have come. -/
def State.upReady (s : State) (r : CollRun) (t : Nat) : Nat :=
  let e := s.tree r.tp t
  let x := r.tree t
  let left := colTotal r.ent s.train.n - x.upAt
  let a := if e.has0 then min left (runFrom x.upAt x.c0) else left
  if e.has1 then min a (runFrom x.upAt x.c1) else a

/-- `n` units combined as round(round(local + c0) + c1). -/
def Work.combine (w : Work) (t n : Nat) : Work × List Elem :=
  let e := w.s.tree w.r.tp t
  let x := w.r.tree t
  let z := w.read t x.upAt n
  let one := fun (u : Elem × Nat) =>
    let a := if e.has0 then joinElem w.r.ent u.1 (unitAt x.c0 (x.upAt + u.2) u.1) else (u.1, 0)
    let b := if e.has1 then joinElem w.r.ent a.1 (unitAt x.c1 (x.upAt + u.2) u.1) else (a.1, 0)
    (b.1, a.2 ||| b.2)
  let vs := z.2.zipIdx.map one
  (z.1.flags (w.s.nodeEng w.r t) (vs.foldl (fun a v => a ||| v.2) 0), vs.map (·.1))

/-- `n` units have been used. -/
def TreeRun.used (x : TreeRun) (n : Nat) : TreeRun :=
  { x with upAt := x.upAt + n, c0 := x.c0.filter (fun u => decide (u.1 ≥ x.upAt + n)), c1 := x.c1.filter fun u => decide (u.1 ≥ x.upAt + n) }

/-- The root combines what is ready; a SUMX all-reduce or reduce is rounded here (R263). -/
def Work.rootUp (w : Work) (t : Nat) : Work :=
  let d := w.r.ent
  let n := w.s.upReady w.r t
  if !(w.s.tree w.r.tp t).root ∨ colKind d ≥ 3 ∨ n = 0 then w
  else
    let i := (w.r.tree t).upAt
    let z := w.combine t n
    let e := w.s.nodeEng w.r t
    let vs : List (Elem × Nat) := z.2.zipIdx.map fun (u : Elem × Nat) =>
      if colSumx d ∧ colKind d ≤ 1 ∧ !colXdst d then
        let y := colRound d (w.s.colDraw w.r e t (i + u.2)) u.1.bytes
        (({ u.1 with bytes := y.1 } : Elem), y.2)
      else (u.1, 0)
    let a := z.1.flags e (vs.foldl (fun (f : Nat) (v : Elem × Nat) => f ||| v.2) 0)
    ({ a with r := a.r.setTree t ((a.r.tree t).used n) } : Work).down t i (vs.map (·.1)) (colDnWire d)

/-- What a node does as its entry starts: the root of a broadcast or gather takes its own source. -/
def Work.begin (w : Work) (t : Nat) : Work :=
  let d := w.r.ent
  if !colUses d t then w
  else if (w.s.tree w.r.tp t).root ∧ colKind d ≥ 3 then
    let n := colUnits d
    let z := w.read t 0 n
    let a := z.1
    ({ a with r := a.r.setTree t { a.r.tree t with upAt := n } } : Work).down t (if colKind d = 3 then w.s.shardAt w.r t else 0) z.2 (colSrcWire d)
  else w.rootUp t

/-! ## Seal, barrier and vote (R266 to R268) -/

/-- Units of DST that this device writes from tree `t`. -/
def State.colNeed (s : State) (r : CollRun) (t : Nat) : Nat :=
  let e := s.tree r.tp t
  match colKind r.ent with
  | 0 => if e.root then colUnits r.ent else 0
  | 3 => s.train.n * colUnits r.ent
  | _ => colUnits r.ent

/-- The whole DST part of the device is written, in every tree of the collective (R266). -/
def State.colWritten (s : State) (r : CollRun) : Bool :=
  [0, 1].all fun t => !colUses r.ent t || decide (((r.tree t).wrote.map (·.2)).sum ≥ s.colNeed r t)

/-- SEAL, BAR or VOTE goes up, or down from the root, once it has come from every child. -/
def State.advTree (s : State) (r : CollRun) (t : Nat) : State × CollRun :=
  let e := s.tree r.tp t
  let x := r.tree t
  let inputs := (!e.has0 || x.got0) && (!e.has1 || x.got1)
  let done := r.opc != 0x441 || s.colWritten r
  if x.sent ∨ !inputs ∨ !done ∨ (r.opc = 0x441 ∧ !colUses r.ent t) then (s, r)
  else
    let pair := b2n x.voteH + 2 * b2n x.voteO
    let k := if r.opc = 0x441 then 5 else if r.opc = 0x442 then 2 else 1
    let w0 := if r.opc = 0x443 then Desc.word r.ent 6 else 0#32
    let w1 := if r.opc = 0x443 then BitVec.ofNat 32 pair else 0#32
    if e.root then
      (s.ctlDown r.tp t k r.cid w0 w1,
       r.setTree t { x with sent := true, gotP := true, down := if r.opc = 0x443 then some (x.voteH, x.voteO, false) else none })
    else (s.ctlUp r.tp t k r.cid w0 w1, r.setTree t { x with sent := true })

/-- The outcome of a vote (R268): COL_VOTE, and the sequencer where the vote is its own. -/
def State.voteOutcome (s : State) (r : CollRun) (a b : Bool × Bool × Bool) : State :=
  let commit := a.1 && b.1 && !a.2.1 && !b.2.1 && !a.2.2 && !b.2.2
  let ovf := a.2.1 || b.2.1
  let s := s.updColl fun c =>
    { c with vVseq := Desc.word r.ent 6, vValid := true, vCommit := commit, vOvf := ovf, vAtmo := a.2.2, vBtmo := b.2.2,
             vLat := BitVec.ofNat 32 (100 * (s.now - r.at_)) }
  let s := (s.dropRun r).tolDone r.q r.eng r.ent 0#32
  if r.q = seqTol then s.takeOutcome commit ovf (a.1 && b.1) (a.2.2 || b.2.2) else s

/-- Completion of a run whose trees have all answered; a sealed VSEQ takes no outcome from the trees (R294). -/
def State.finishRun (s : State) (r : CollRun) : State :=
  if r.opc = 0x443 then
    match r.a.down, r.b.down with
    | some a, some b => if r.q = seqTol ∧ s.train.sealed_ then s else s.voteOutcome r a b
    | _, _ => s
  else
    let all := [0, 1].all fun t => (r.opc == 0x441 && !colUses r.ent t) || (r.tree t).gotP
    if !all then s
    else if r.q = seqTol then (s.dropRun r).epochSwitch
    else ((s.dropRun r).tolDone r.q r.eng r.ent 0#32).settle

/-- A run goes on: a failed request aborts it unless it has sent its seal (R269); seals and votes move; it completes. -/
def Work.settle (w : Work) : State :=
  let s := w.s.putRun w.r
  if w.lost ∧ !w.r.sealed then s.abortRun w.r none
  else
    let x := s.advTree w.r 0
    let y := x.1.advTree x.2 1
    (y.1.putRun y.2).finishRun y.2

/-! ## Starting entries (R252, R253, R257) -/

/-- Nonzero bits of word `i` above those of `mask`. -/
def extra (d : Desc) (i mask : Nat) : Bool := Nat.land (Desc.word d i).toNat mask != (Desc.word d i).toNat

/-- Words `i` to 15 are 0. -/
def zeroFrom (d : Desc) (i : Nat) : Bool := (from_ i (16 - i)).all fun j => Desc.word d j == 0#32

/-- Byte ranges that SRC and DST of a COLL take. -/
def colSpan (d : Desc) (n : Nat) : (Bool × Nat × Nat) × (Bool × Nat × Nat) :=
  let k := if colTrees d = 3 then 2 else 1
  (((colSrc d).1, (colSrc d).2, k * colSrcUnits d n * colSbytes d), ((colDst d).1, (colDst d).2, k * colDstUnits d n * colDbytes d))

/-- DST equals SRC exactly or does not meet it (R258). -/
def colApart (d : Desc) (n : Nat) : Bool :=
  let x := colSpan d n
  x.1.1 != x.2.1 || x.1.2.1 == x.2.2.1 || decide (x.1.2.1 + x.1.2.2 ≤ x.2.2.1 ∨ x.2.2.1 + x.2.2.2 ≤ x.1.2.1)

/-- The formats of a COLL agree with Table 9-4. -/
def colFormats (d : Desc) : Bool :=
  let s := colSfmt d
  let f := colDfmt d
  if colKind d ≥ 3 then colOp d == 0 && !colXsrc d && !colXdst d && decide (s ≤ 2) && (f == s || (s == 0 && f == 1))
  else
    let short := (s == 1 || s == 2) && (f == 1 || f == 2) && !colXsrc d && !colXdst d
    match colOp d with
    | 0 => short
    | 1 => s == 2 && (f == 1 || f == 2 || f == 3)
    | 2 => short
    | 3 => short
    | 4 => s == 2 && f == 2 && !colXsrc d && !colXdst d
    | 5 => s == 2 && f == 2 && !colXsrc d && !colXdst d
    | _ => false

/-- SRC or DST has only the bits of its space. -/
def placeOk (w : W64) : Bool := if w.getLsbD 63 then decide (w.toNat % 2 ^ 63 < 2 ^ 40) else decide (w.toNat < 2 ^ 29)

/-- A COLL is refused by its operation (Table 9-3, R258, R261, R311). -/
def State.colBad (s : State) (d : Desc) : Bool :=
  let rnd := nbit (colCvt d) 0
  extra d 5 0xFFFFFF || colNl d == 3 || (colRows d && colE d % colL d != 0) || colTrees d == 0 || decide (colKind d ≥ 5) ||
  !colFormats d || !placeOk (Desc.dword d 6) || !placeOk (Desc.dword d 8) || extra d 10 0x1FFFFFFF || extra d 11 0x1FFFFFFF ||
  colE d == 0 || decide (colE d > 2 ^ 31) || !zeroFrom d 13 || !colApart d s.train.n ||
  (s.jc.detmode == 2 && ((decide (colKind d ≤ 2) && colOp d == 0) || rnd))

/-- TOL_ENTRY_REJECT (R253): a reserved opcode, field or bit, or a condition its operation refuses. -/
def State.tolBad (s : State) (d : Desc) : Bool :=
  let o := tolOpc d
  let cid := tolCid d == 0xFFFF
  let plan := !(s.tree (tolTp d) 0).valid || !(s.tree (tolTp d) 1).valid
  extra d 0 0x0010FFFF || extra d 2 0x03FFFFFF || cid ||
  (if o = 0x440 then extra d 5 0xFFF || !zeroFrom d 7
   else if o = 0x441 then plan || s.colBad d
   else if o = 0x442 then plan || extra d 5 0x300000 || !zeroFrom d 6
   else if o = 0x443 then plan || extra d 5 0x300000 || extra d 7 3 || !zeroFrom d 8
   else if o = 0x444 then extra d 5 0xFFF007 || extra d 6 0xFFF || extra d 8 0xFFFF || !zeroFrom d 9 || !s.light.valid.getLsbD (pswSet d)
   else if o = 0x445 then extra d 5 0x3F || !zeroFrom d 8
   else true)

/-- A tree entry waits at the head (R257): the pair's pass set is not active, a pending switch changes one of its LIDs, or
its CID is still in use on the pair. -/
def State.pairBusy (s : State) (d : Desc) : Bool :=
  let tp := tolTp d
  (s.tree tp 0).pset != s.light.actSet || (s.tree tp 1).pset != s.light.actSet ||
  (decide (s.light.swStep ≠ 0) && (s.pairLids tp).any fun l => s.light.swLids.contains l) || (s.collRun tp (tolCid d)).isSome

/-- A COLL, BAR or VOTE starts; one whose pair has a lost LID aborts at once (R269, R273), a VOTE excepted. -/
def State.startRun (s : State) (q e : Nat) (d : Desc) : State :=
  let w7 := Desc.word d 7
  let t := TreeRun.init (w7.getLsbD 0) (w7.getLsbD 1)
  let r : CollRun := { cid := tolCid d, opc := tolOpc d, q := q, eng := e, ent := d, tp := tolTp d, a := t, b := t, at_ := s.now }
  let s := s.updColl fun c => { c with runs := c.runs ++ [r], dead := c.dead.filter (· != (r.tp, r.cid)) }
  let gone := (s.pairLids r.tp).any fun l => (s.lid l).st == .down || (s.lid l).st == .fenced
  if r.opc ≠ 0x443 ∧ gone then s.abortRun r none
  else if r.opc = 0x441 then ((({ s := s, r := r, lost := false } : Work).begin 0).begin 1).settle
  else ({ s := s, r := r, lost := false } : Work).settle

/-- The head entry `d` of list `q` leaves it and starts on engine `e`. -/
def State.startEntry (s : State) (q e : Nat) (d : Desc) : State :=
  let s := s.updEng e fun x => { x with lastCid := tolCid d }
  let busy := s.updEng e fun x => { x with inprog := x.inprog + 1 }
  match tolOpc d with
  | 0x440 => (s.ctrAsk (.engine e) (bitsOf (Desc.word d 5) 11 0) (.add ((Desc.word d 6).setWidth 48))).tolDone q e d 0#32
  | 0x444 => busy.pswStart q d
  | 0x445 => (s.setWeights (bitsOf (Desc.word d 5) 5 0) (Desc.dword d 6)).tolDone q e d 0#32
  | _ => busy.startRun q e d

/-- An entry that runs on a tree pair. -/
def onPair (o : Nat) : Bool := o == 0x441 || o == 0x442 || o == 0x443

/-- The sequencer's own list (R288): its VOTE starts under R257, and WSTATE becomes VOTING (R292). The list also carries the
barrier of FAB_TABLES (R204). -/
def State.startVote (s : State) : State :=
  match s.train.votes with
  | [] => s
  | d :: rest =>
    if s.pairBusy d then s
    else
      let bar : Bool := tolOpc d == 0x442
      let s := s.updTrain fun t => { t with votes := rest, ws := if bar then t.ws else .voting }
      if s.tolBad d then (if bar then s.dropShadow else s.tolRecord seqTol d 0x103 0#32) else s.startRun seqTol 0 d

/-- TOL_ENTRY_START (R252); list 8192 is the sequencer's own. -/
def execTolEntryStart (q : Nat) (s : State) : Res :=
  unit q 8193 <|
    if q = seqTol then .next s.startVote
    else
      let k := s.que q
      if k.typ ≠ 6 ∨ !k.has ∨ (s.eng k.eng).inprog ≥ 8 then .next s
      else
        let x := s.entryAt (.coll k.eng) q k.head
        let d := x.2.map (·.1)
        let y := if tolTen d then x.1.ctrRead (.engine k.eng) (tolTctr d) else (x.1, 0#48)
        if tolTen d ∧ y.2.toNat < tolTthr d then .next y.1
        else if y.1.tolBad d then .next (((y.1.popHead q).tolRecord q d 0x103 0#32).stopTol q k.eng)
        else if onPair (tolOpc d) ∧ y.1.pairBusy d then .next y.1
        else .next ((y.1.popHead q).startEntry q k.eng d)

/-! ## Sending data cells (R249, R262) -/

/-- Slot credits left for VC `v` of LID `l` beyond the cells that wait for it. -/
def State.slotCredits (s : State) (l v : Nat) : Nat :=
  let k := s.lid l
  tget 0 k.resv v - (k.outq.filter fun e => e.2.2.vc == v).length

/-- Units of the tree half that go in a direction (0 up, 1 to CHILD0, 2 to CHILD1): first and end. The ranks of a subtree lie together
(R254). -/
def TreeEnt.span (e : TreeEnt) (d : Desc) (n dir : Nat) : Nat × Nat :=
  let u := colUnits d
  match colKind d, dir with
  | 3, 0 => (e.rank * u, (e.rank + e.size) * u)
  | 3, _ => (0, n * u)
  | 2, 0 => (0, n * u)
  | 2, 1 => ((e.rank + 1) * u, (e.rank + e.c0size + 1) * u)
  | 2, _ => ((e.rank + e.c0size + 1) * u, (e.rank + e.size) * u)
  | _, _ => (0, u)

/-- A data cell of units from index `i` in a direction; LAST when it is the last of its segment to go there (R262). -/
def State.sendCell (s : State) (r : CollRun) (l t dir wire i : Nat) (us : List Elem) : State × CollRun :=
  let ln := colL r.ent
  let seg := segUnits wire ln
  let k := i / seg
  let b := (s.tree r.tp t).span r.ent s.train.n dir
  let x := r.tree t
  let out := tupd 0 x.out (3 * k + dir) (· + us.length)
  let last := decide (tget 0 out (3 * k + dir) + max b.1 (k * seg) ≥ min b.2 ((k + 1) * seg))
  let fl := b2n last + 2 * b2n (us.any Elem.bad) + 4 * b2n (wire == 4) + 8 * b2n (wire == 0)
  (s.sendOn l (if dir = 0 then 0x10 else 0x18) ((if dir = 0 then 6 else 8) + t) r.cid (BitVec.ofNat 8 fl) (wireOff wire ln (i % seg))
    (natLe k 4 ++ us.flatMap (·.bytes)), r.setTree t { x with out := out })

/-- Units that one cell takes from index `i`. -/
def cellTake (wire ln i : Nat) (us : List Elem) : List Elem :=
  let n := segUnits wire ln - i % segUnits wire ln
  if wire = 4 then fitUnits 236 (us.take n) else us.take (min n (wireCap wire ln))

/-- The next data cell up of a run. -/
def State.tryUp (s : State) (r : CollRun) (t : Nat) : Option State :=
  let d := r.ent
  let e := s.tree r.tp t
  let x := r.tree t
  let ln := colL d
  let wire := colUpWire d
  let w : Work := { s := s, r := r, lost := false }
  if e.root ∨ (s.lid e.parent).st ≠ .up ∨ s.slotCredits e.parent (6 + t) < 3 then none
  else if colKind d ≤ 2 then
    let n := min (s.upReady r t) (wireCap wire ln)
    if n = 0 then none
    else
      let z := w.combine t n
      let us := cellTake wire ln x.upAt z.2
      let y := z.1.s.sendCell z.1.r e.parent t 0 wire x.upAt us
      some ({ z.1 with s := y.1, r := y.2.setTree t ((y.2.tree t).used us.length) } : Work).settle
  else if colKind d = 3 then
    if x.upAt < colUnits d then
      let i := s.shardAt r t + x.upAt
      let z := w.read t x.upAt (min (colUnits d - x.upAt) (wireCap wire ln))
      let us := cellTake wire ln i z.2
      let y := z.1.s.sendCell z.1.r e.parent t 0 wire i us
      some ({ z.1 with s := y.1, r := y.2.setTree t { y.2.tree t with upAt := x.upAt + us.length } } : Work).settle
    else
      match x.fwd with
      | [] => none
      | c :: cs =>
        let us := cellTake wire ln c.idx c.units
        let rest := c.units.drop us.length
        let fwd := if rest.isEmpty then cs else { idx := c.idx + us.length, units := rest } :: cs
        let y := s.sendCell r e.parent t 0 wire c.idx us
        some ({ w with s := y.1, r := y.2.setTree t { y.2.tree t with fwd := fwd } } : Work).settle
  else none

/-- The LID of child `k`. -/
def TreeEnt.child (e : TreeEnt) (k : Nat) : Nat := if k = 0 then e.child0 else e.child1

/-- The next data cell down of a run: the first chunk whose child has slots. -/
def State.tryDown (s : State) (r : CollRun) (t : Nat) : Option State :=
  let e := s.tree r.tp t
  let x := r.tree t
  let wire := colDnWire r.ent
  match x.dnq.find? fun c => (s.lid (e.child c.1)).st == .up && decide (s.slotCredits (e.child c.1) (8 + t) ≥ 3) with
  | none => none
  | some c =>
    let us := cellTake wire (colL r.ent) c.2.idx c.2.units
    let rest := c.2.units.drop us.length
    let new : Nat × Chunk := (c.1, { idx := c.2.idx + us.length, units := rest })
    let dnq := if rest.isEmpty then x.dnq.erase c else x.dnq.map fun y => if y = c then new else y
    let y := s.sendCell r (e.child c.1) t (c.1 + 1) wire c.2.idx us
    some ({ s := y.1, r := y.2.setTree t { y.2.tree t with dnq := dnq }, lost := false } : Work).settle

/-- COLL_CELL_SEND (R249): the first collective of the pair that has data for the direction sends a cell. -/
def execCollCellSend (tp tree : Nat) (down : Bool) (s : State) : Res :=
  unit tp 4 <| unit tree 2 <|
    .next (((s.coll.runs.filter fun r => r.tp == tp && r.opc == 0x441 && colUses r.ent tree).findSome? fun r =>
      if down then s.tryDown r tree else s.tryUp r tree).getD s)

/-! ## The census of a tree plan (R256) -/

/-- The trees under census, as 2 * pair + tree. -/
def State.censusTrees (s : State) : List Nat :=
  match s.coll.newPlan with
  | none => []
  | some p =>
    let m := ((s.longAt p.2).map fun l => bitsOf (Desc.word l.d 5) 3 0).getD 0
    (List.range 8).filter fun x => nbit m (x / 2)

def State.newTree (s : State) (x : Nat) : TreeEnt := tget TreeEnt.none ((s.coll.newPlan.map (·.1)).getD []) x

/-- A census cell on a LID. -/
def State.sendCensus (s : State) (l t : Nat) (down : Bool) (v : Nat) : State :=
  s.sendCtl l t down 4 0xFFFF 0#32 (BitVec.ofNat 32 v)

/-- The plan is rejected: TREE_FAIL with the pair and tree. -/
def State.rejectPlan (s : State) (x : Nat) : State :=
  match s.coll.newPlan with
  | none => s
  | some p =>
    (s.updColl fun c => { c with newPlan := none, census := [], censusDn := [] }).finishLong p.2 0x10D (BitVec.ofNat 32 x) 0#32 0#32 0#32

/-- RANK and DEPTH of a tree have been checked here and are passed on; the plan stands once all its trees have. -/
def State.censusPass (s : State) (x : Nat) : State :=
  let e := s.newTree x
  let t := x % 2
  let s := if e.has0 then s.sendCensus e.child0 t true (e.rank + 1 + (e.depth + 1) * 65536) else s
  let s := if e.has1 then s.sendCensus e.child1 t true (e.rank + e.c0size + 1 + (e.depth + 1) * 65536) else s
  let s := s.updColl fun c => { c with censusDn := setIns c.censusDn x }
  match s.coll.newPlan with
  | none => s
  | some p =>
    if (s.censusTrees.all fun y => s.coll.censusDn.contains y) then
      (s.updColl fun c => { c with plan := p.1, newPlan := none, census := [], censusDn := [] }).doneLong p.2
    else s

/-- The counts of a tree have come from every child: checked and sent up, or answered by the root. -/
def State.censusUp (s : State) (x : Nat) : State :=
  let e := s.newTree x
  let n0 := tget 0 s.coll.census (4 * x)
  let n1 := tget 0 s.coll.census (4 * x + 1)
  if (e.has0 ∧ n0 = 0) ∨ (e.has1 ∧ n1 = 0) then s
  else if n0 ≠ e.c0size ∨ n0 + n1 + 1 ≠ e.size then s.rejectPlan x
  else if e.root then s.censusPass x
  else s.sendCensus e.parent (x % 2) false e.size

/-- A census cell in a slot. -/
def State.censusCell (s : State) (x : CSlot) : State :=
  let k := 2 * x.tp + x.tree
  let v := fieldLe x.cell.payload 4 4
  if !s.censusTrees.contains k then s
  else if x.ring < 2 then
    (s.updColl fun c => { c with census := tput c.census (4 * k + x.ring) (v % 2 ^ 15) }).censusUp k
  else
    let e := s.newTree k
    if v % 2 ^ 15 = e.rank ∧ v / 65536 % 128 = e.depth then s.censusPass k else s.rejectPlan k

/-- CENSUS_TIMEOUT: 10 ms without a down census. -/
def execCensusTimeout (ms : Nat) (s : State) : Res :=
  match s.censusTrees.find? fun x => !s.coll.censusDn.contains x with
  | some x => when (decide (ms ≥ 10)) s (s.rejectPlan x)
  | none => .next s

/-! ## Receiving (R249, R266 to R271) -/

/-- The cell is the first of its CID in its ring. -/
def State.firstOf (s : State) (x : CSlot) : Bool :=
  (s.coll.slots.find? fun y => y.tp == x.tp && y.tree == x.tree && y.ring == x.ring && y.cell.qtag == x.cell.qtag) == some x

/-- The engine can consume the cell now: what it would be put into is empty. -/
def State.consumable (s : State) (x : CSlot) : Bool :=
  if x.cell.qtag = 0xFFFF then s.coll.newPlan.isSome
  else
    match s.collRun x.tp x.cell.qtag with
    | none => s.coll.dead.contains (x.tp, x.cell.qtag)
    | some r =>
      let y := r.tree x.tree
      let up := if (s.tree x.tp x.tree).root then y.dnq.isEmpty else y.fwd.isEmpty
      if x.cell.typ = 0x10 then
        (if colKind r.ent ≥ 3 then up else (if x.ring = 0 then y.c0.isEmpty else y.c1.isEmpty) && (!(s.tree x.tp x.tree).root || y.dnq.isEmpty))
      else if x.cell.typ = 0x18 then y.dnq.isEmpty
      else true

/-- Units and first index of a data cell. -/
def cellUnits (wire ln : Nat) (c : Cell) : Nat × List Elem :=
  let seg := fieldLe c.payload 0 3
  let i := if wire = 3 then c.msgoff else c.msgoff / wireLen wire ln
  (seg * segUnits wire ln + i, wireUnits wire ln c.spoil 240 (c.payload.drop 4))

/-- A data cell's units join the run. -/
def Work.data (w : Work) (x : CSlot) : Work :=
  let t := x.tree
  let d := w.r.ent
  let y := w.r.tree t
  if x.cell.typ = 0x18 then
    let c := cellUnits (colDnWire d) (colL d) x.cell
    w.down t c.1 c.2 (colDnWire d)
  else
    let c := cellUnits (colUpWire d) (colL d) x.cell
    if colKind d ≥ 3 then
      if (w.s.tree w.r.tp t).root then w.down t c.1 c.2 (colUpWire d)
      else { w with r := w.r.setTree t { y with fwd := y.fwd ++ [{ idx := c.1, units := c.2 }] } }
    else
      let us := c.2.zipIdx.map fun u => (c.1 + u.2, u.1)
      ({ w with r := w.r.setTree t (if x.ring = 0 then { y with c0 := y.c0 ++ us } else { y with c1 := y.c1 ++ us }) } : Work).rootUp t

/-- SEAL or BAR from a child or from the root side, which passes it on. -/
def Work.mark (w : Work) (x : CSlot) (k : Nat) : Work :=
  let y := w.r.tree x.tree
  let z := if x.ring = 0 then { y with got0 := true } else if x.ring = 1 then { y with got1 := true } else { y with gotP := true }
  { w with r := w.r.setTree x.tree z, s := if x.ring = 2 then w.s.ctlDown w.r.tp x.tree k w.r.cid 0#32 0#32 else w.s }

/-- VOTE: combined from a child, taken and passed on unchanged from the root side; another VSEQ's, or a sealed VSEQ's, is
counted in VDROP (R268, R292). -/
def Work.vote (w : Work) (x : CSlot) : Work :=
  let v := fieldLe x.cell.payload 0 4
  let b := bytesWord ((x.cell.payload.drop 4).take 4)
  let y := w.r.tree x.tree
  if v ≠ (Desc.word w.r.ent 6).toNat ∨ (w.r.q = seqTol ∧ w.s.train.sealed_) then
    { w with s := w.s.updColl fun c => { c with vDrop := satAdd 8 c.vDrop 1 } }
  else if x.ring = 2 then
    { w with r := w.r.setTree x.tree { y with down := some (b.getLsbD 0, b.getLsbD 1, b.getLsbD 2) }
             s := w.s.ctlDown w.r.tp x.tree 1 w.r.cid (Desc.word w.r.ent 6) b }
  else
    let z := { y with voteH := y.voteH && b.getLsbD 0, voteO := y.voteO || b.getLsbD 1 }
    { w with r := w.r.setTree x.tree (if x.ring = 0 then { z with got0 := true } else { z with got1 := true }) }

/-- The engine consumes a cell of a run in progress. -/
def State.runCell (s : State) (x : CSlot) (r : CollRun) : State :=
  let k := x.cell.typ % 8
  let w : Work := { s := s.freeSlot x, r := r, lost := false }
  if k = 3 then
    if r.opc = 0x443 ∨ (r.sealed ∧ x.ring < 2) then w.s else (w.s.abortRun r (some x.lid)).settle
  else if k = 0 ∧ r.opc = 0x441 ∧ colUses r.ent x.tree then (w.data x).settle
  else if (k = 5 ∧ r.opc = 0x441 ∧ colUses r.ent x.tree) ∨ (k = 2 ∧ r.opc = 0x442) then (w.mark x k).settle
  else if k = 1 ∧ r.opc = 0x443 then (w.vote x).settle
  else w.s.dropControl x.lid

/-- COLL_CELL_RECEIVE (R249): the engine consumes the oldest cell of the LID's slots that it can, and frees its slot. -/
def execCollCellReceive (lid : Nat) (s : State) : Res :=
  unit lid 96 <|
    match s.coll.slots.find? fun x => x.lid == lid && s.firstOf x && s.consumable x with
    | none => .next s
    | some x =>
      if x.cell.qtag = 0xFFFF then .next ((s.freeSlot x).censusCell x)
      else
        match s.collRun x.tp x.cell.qtag with
        | some r => .next (s.runCell x r)
        | none => .next ((s.freeSlot x).updEng (s.lid lid).port fun e => { e with stale := satAdd 8 e.stale 1 })

/-! ## Time limits (R268, R269) -/

/-- VOTE_ROOT_TIMEOUT: the root's timer expires before its inputs are complete. -/
def execVoteRootTimeout (tree ms : Nat) (s : State) : Res :=
  unit tree 2 <|
    match s.coll.runs.find? fun r => r.opc == 0x443 && (s.tree r.tp tree).root && !(r.tree tree).sent with
    | none => .next s
    | some r =>
      when (decide (ms ≥ s.jc.voteTmo)) s <|
        let r' := r.setTree tree { r.tree tree with sent := true, down := some (false, false, true) }
        ((s.ctlDown r.tp tree 1 r.cid (Desc.word r.ent 6) 4#32).putRun r').finishRun r'

/-- COLL_TIMEOUT: no progress for COLL_TMO. A device that has sent SEAL up reports the cut-off as well. -/
def execCollTimeout (cid ms : Nat) (s : State) : Res :=
  match s.coll.runs.find? fun r => r.cid == cid && r.opc != 0x443 with
  | none => .next s
  | some r =>
    when (decide (ms ≥ s.jc.collTmo)) s <|
      let s := if r.sealed then s.report (rep 2 (10 + r.eng) 0 18 0x40 cid) else s
      (s.abortRun r none).settle

end Sys2Proof.Machine
end

