-- ==== Sys2Proof/Machine/Train.lean ====
section
/-! DEFINITION. The step sequencer's attempts (10 R280 to R287, R292, R296), checkpoint and drain images (R300, R301,
R304) and the rebuild of a lost node (R302, R303). -/

namespace Sys2Proof.Machine

/-! ## Posting entries -/

/-- A 64-byte entry is written at TAIL of queue `q`; none where the queue has no room or does not take entries. -/
def State.postEntry (s : State) (q : Nat) (d : Desc) : Option State :=
  let e := s.que q
  if e.st ≠ 1 ∨ e.dbc ∨ e.count + 1 ≥ 2 ^ e.log2n then none
  else
    let a := e.slotAddr e.tail
    let s := if e.loc = 2 then s.spWrites (d.zipIdx.map fun w => ((a + w.2) % 2 ^ 29, w.1, false)) else s.hubWrite a (wordsBytes d)
    some (s.updQue q fun x => { x with tail := x.next x.tail })

/-- An item of the sequencer (Table 10-5): it carries NOTIFY; its TAG is a free value [33]. -/
def State.itemEntry (s : State) (opc : Nat) (mov : Bool) (step : W64) (e : Int) (last first : Bool) (kind v m stash : Nat) (vseq : W32) :
    Desc :=
  [BitVec.ofNat 32 (opc % 65536 + b2n mov * 2 ^ 20 + 2 ^ 21), (Config.freeWord s.free).setWidth 32, step.setWidth 32,
   (step >>> 32).setWidth 32,
   BitVec.ofNat 32 (twos e 8 * 2 ^ 24 + b2n last * 2 ^ 18 + b2n first * 2 ^ 17 + s.train.slot % 2 * 2 ^ 16 + kind * 2 ^ 14 + v % 16 * 2 ^ 10 + m % 1024),
   BitVec.ofNat 32 stash, 0#32, 0#32, 0#32, 0#32, vseq, 0#32, 0#32, 0#32, 0#32, 0#32]

/-- One item is posted to slot `slot` of core `c` and remembered as a part of its unit. -/
def State.postTo (s : State) (c slot : Nat) (u : Nat × Nat × Nat) (d : Desc) : Option State :=
  match s.cwqOf c slot with
  | none => none
  | some q =>
    let i := (s.que q).tail
    (s.postEntry q d).map fun t => (t.updTrain fun x => { x with posts := x.posts ++ [(q, i, u)] }).tick

/-- A unit with its items, all or none of them. -/
def State.postUnit (s : State) (u : Nat × Nat × Nat) (items : List (Nat × Nat × (State → Desc))) : Option State :=
  (items.foldl (fun (a : Option State) x => a.bind fun t => t.postTo x.1 x.2.1 u (x.2.2 t)) (some s)).map fun t =>
    t.updTrain fun x => { x with units := x.units ++ [{ kind := u.1, v := u.2.1, m := u.2.2, left := items.length }] }

/-! ## The order of units (R280) -/

/-- Stage and microbatch of the i-th forward. -/
def fwdUnit (P V i : Nat) : Nat × Nat :=
  let r := i % (P * V)
  (r / P, i / (P * V) * P + r % P)

/-- The order of one attempt: (0, v, m) for F and (1, v, m) for B. -/
def unitOrder (P p V M : Nat) : List (Nat × Nat × Nat) :=
  let n := M * V
  let f := fun (i : Nat) => (0, (fwdUnit P V i).1, (fwdUnit P V i).2)
  let b := fun (i : Nat) => (1, V - 1 - (fwdUnit P V i).1, (fwdUnit P V i).2)
  let w := min n (if V = 1 then P - p - 1 else 2 * (P - p - 1) + (V - 1) * P)
  (List.range w).map f ++ (List.range (n - w)).flatMap (fun i => [f (w + i), b i]) ++ (from_ (n - w) w).map b

def StageTab.order (t : StageTab) : List (Nat × Nat × Nat) := unitOrder (t.pm1 + 1) t.pidx t.v t.m

/-- Largest number of forwards of stage `v` ahead of its backwards (R282). -/
def peakOf (l : List (Nat × Nat × Nat)) (v : Nat) : Nat :=
  (l.foldl (fun (a : Nat × Nat) u =>
    if u.2.1 ≠ v then a else if u.1 = 0 then (a.1 + 1, max a.2 (a.1 + 1)) else (a.1 - 1, a.2)) (0, 0)).2

def Stage.none : Stage :=
  { fopc := 0, bopc := 0, mov := false, cwq := 0, ncm1 := 0, cbase := 0, abCtr := 0xFFF, afCtr := 0xFFF, quota := 1, stash := 0#64, ssize := 0 }

def StageTab.stage (t : StageTab) (v : Nat) : Stage := t.stages.getD v Stage.none

/-! ## Attempts (Table 10-7) -/

/-- STEP of every core. -/
def State.giveStep (s : State) : State :=
  { s with cores := s.cores.map fun (c : Nat × Cor) => (c.1, { c.2 with step := s.train.step }) }

/-- The flag words of the job's cores, arrays and engines are cleared. -/
def State.clearFlags (s : State) : State :=
  let z := fun (a : Arr) => { a with flags := 0#8 }
  let s := { s with cores := s.cores.map fun (c : Nat × Cor) =>
    (c.1, { c.2 with vflags := 0#8, arr0 := z c.2.arr0, arr1 := z c.2.arr1, arr2 := z c.2.arr2, arr3 := z c.2.arr3 }) }
  s.updColl fun c => { c with engs := c.engs.map fun e => (e.1, { e.2 with flags := 0#8 }) }

/-- The sequencer asks for counters `b`, …, `b + n − 1` to be set to 0 (R250). -/
def State.zeroCtrs (s : State) (b n : Nat) : State := (from_ b n).foldl (fun a i => a.ctrAsk .sequencer i (.set 0#48)) s

/-- Every counter operation of the sequencer has been performed. -/
def State.seqQuiet (s : State) : Bool := !(s.coll.reqs.any fun r => r.src == .sequencer)

/-- The template entries are posted to their queues; one without room is a template error (R286). -/
def State.postTemplate (s : State) (t : StageTab) : State :=
  (t.tq.zip t.tpl).foldl (fun a x => (a.postEntry x.1 x.2).getD (a.updTrain fun y => { y with tplErr := true })) s

/-- The entries of the recorded inputs of a step (Table 11-4): `full` payloads carry their data. -/
def inputsOf (pay : List Byte) (full : Bool) : List InputRec :=
  let n := fun (b : List Byte) => fieldLe b 8 4
  let size := fun (k : Nat) => 64 * k + ((List.range k).map fun i => (n (pay.drop (64 * i)) + 255) / 256 * 256).sum
  let count := if full then ((List.range 4097).find? fun k => size k == pay.length).getD 0 else pay.length / 64
  let ents := (List.range count).map fun i => (pay.drop (64 * i)).take 64
  (ents.foldl (fun (a : List InputRec × Nat) e =>
    let l := n e
    (a.1 ++ [{ order := fieldLe e 0 4, srck := fieldLe e 4 1, len := l, obj := fieldLe e 16 8, off := fieldLe e 24 8, dst := fieldLe e 32 8 % 2 ^ 40,
               dig := (e.drop 40).take 24, data := if full then (pay.drop a.2).take l else [] }], a.2 + (l + 255) / 256 * 256)) ([], 64 * count)).1

/-- Mirror messages of an earlier attempt count for none (R28). -/
def State.orphanMirrors (s : State) : State :=
  s.updFab fun f => { f with outMsgs := f.outMsgs.map fun m => if m.use = 1 then { m with use := 2 } else m }

/-- A replay takes the COMMITTED records of its step from its source (R322, R323): INPUT records feed the attempt, and the GRAD record's
DIGEST is kept for the comparison. -/
def State.takeRecords (s : State) (recs : List (List Byte)) : State :=
  let mine := recs.filter fun b => fieldLe b 0 4 == 0x474F4C54 && fieldLe b 5 1 == 1 && fieldLe b 6 2 == s.fab.lnode &&
    fieldLe b 8 8 == s.train.step.toNat
  let ins := mine.filter fun b => fieldLe b 4 1 == 2
  let grads := mine.filter fun b => fieldLe b 4 1 == 1
  s.updDet fun d => { d with
    feed := ins.flatMap fun b => inputsOf ((b.drop 64).take (fieldLe b 24 8)) (s.jc.rec_ == 2)
    origDig := grads.map (fun b => (s.train.step.toNat, (b.drop 32).take 32)) ++ d.origDig }

/-- ATTEMPT_START: steps 1 and 2 of Table 10-7, once the counters of step 1 stand at 0. A mode change that waits is applied first
(R365). -/
def State.startAttempt (s : State) (t : StageTab) (recs : List (List Byte)) : State :=
  let s := s.applyMode.openVseq.orphanMirrors
  let s := s.updTrain fun x =>
    { x with ws := .open_, cfgw := false, upos := 0, units := [], posts := [], udone := [], itemErr := false, tplErr := false,
             errSince := x.errSince && x.ws != .none_, prep := false, mirrors := 0, mirBad := false, mirSent := false, full := false, sent := [], h := false, o := false }
  let s := s.clearFlags.giveStep.postTemplate t
  let s := s.updPower fun p => { p with ffheld := p.mode == 0 && gateKeys.all fun k => (p.gate k).eff == 64 }
  let s := s.updDet fun d => { d with inputs := [], sentDig := [], feed := [] }
  let s := if s.det.replay then s.takeRecords recs else s
  if s.train.gather then (s.toPhase 1).ctrAsk .sequencer 4032 (.add 1#48) else s.toPhase 2

/-- An attempt may start: the job is in RUN, the last one has come to rest, and nothing waits for its boundary. -/
def State.mayStart (s : State) : Bool :=
  s.train.js == .run && s.train.train && s.between && s.train.atRest && s.train.cfgHnd.isNone && s.flt.readmits.isEmpty && (s.det.cert.isNone || s.det.certAt.isSome) &&
  !(s.fab.shadow.isSome && s.fab.shadowSw)

def execAttemptStart (recs : List (List Byte)) (s : State) : Res :=
  match s.train.tab with
  | some t =>
    when (s.mayStart && s.seqQuiet) s
      (if s.train.prep then s.startAttempt t recs
       else ((s.zeroCtrs 4032 5).zeroCtrs t.crstB t.crstN).updTrain fun x => { x with prep := true })
  | none => .next s

/-- GATHER_COMPLETE: GCTR ≥ GTHR. -/
def execGatherComplete (s : State) : Res :=
  match s.train.tab with
  | some t => when (s.train.phase == 1 && s.seqQuiet && decide ((s.ctrSeen t.gctr).toNat ≥ t.gthr)) s
      ((s.updTrain fun x => { x with gather := false }).toPhase 2)
  | none => .next s

/-- The conditions of R281 for the unit at the head of the order. -/
def State.unitDue (s : State) (t : StageTab) (u : Nat × Nat × Nat) : Bool :=
  let g := t.stage u.2.1
  let met := fun (c : Nat) => c == 0xFFF || decide ((s.ctrSeen c).toNat ≥ u.2.2 + 1)
  if u.1 = 0 then met g.afCtr && (decide (u.2.2 < g.quota) || s.train.udone.contains (1, u.2.1, u.2.2 - g.quota)) else met g.abCtr

/-- UNIT_POST: one item on CWQ slot CWQ of every core of the stage. -/
def execUnitPost (s : State) : Res :=
  match s.train.tab with
  | none => .next s
  | some t =>
    match t.order[s.train.upos]? with
    | none => .next s
    | some u =>
      let g := t.stage u.2.1
      if s.train.phase ≠ 2 ∨ !s.seqQuiet ∨ !s.unitDue t u then .next s
      else
        let d := fun (a : State) => a.itemEntry (if u.1 = 0 then g.fopc else g.bopc) g.mov a.train.step a.train.e (u.2.2 + 1 == t.m) (u.2.2 == 0) u.1 u.2.1 u.2.2
          (u.2.2 % max 1 g.quota) a.train.vseq
        match s.postUnit u ((from_ g.cbase (g.ncm1 + 1)).map fun c => (c, g.cwq, d)) with
        | none => .next s
        | some x => .next (x.updTrain fun y => { y with upos := y.upos + 1 })

/-- Every B unit of the attempt has completed: SQ_BDONE and PHASE = REDUCE. -/
def State.pipeEnd (s : State) (t : StageTab) : State :=
  if s.train.phase = 2 ∧ (s.train.udone.filter fun u => u.1 == 1).length = t.v * t.m then (s.ctrAsk .sequencer 4033 (.add 1#48)).toPhase 3 else s

/-- UNIT_COMPLETE: every item of the unit has completed. -/
def execUnitComplete (kind v m : Nat) (s : State) : Res :=
  match s.train.tab, s.train.units.find? fun u => u.kind == kind && u.v == v && u.m == m && u.left == 0 with
  | some t, some u =>
    when (decide (kind < 2)) s
      ((s.updTrain fun x => { x with units := x.units.erase u, udone := x.udone ++ [(kind, v, m)] }).pipeEnd t)
  | _, _ => .next s

/-! ## The mirror (R298, R299, R320) -/

/-- Bytes `b` with spoil marks go to the log at the buddy, at unit offset `off`. -/
def State.mirrorOut (s : State) (t : StageTab) (off : Nat) (b : List (Byte × Bool)) : State :=
  (s.updTrain fun y => { y with mirrors := y.mirrors + (b.length + 2 ^ 24 - 1) / 2 ^ 24 }).writeOut (s.l2p t.buddy) t.logwin (256 * off) 1 b

/-- The attempt's records in order, with KIND: INPUT records, then GRAD. -/
def State.attemptRecs (s : State) (t : StageTab) : State × List (Nat × List (Byte × Bool)) :=
  let ins := if s.jc.rec_ = 0 then [] else (inputPayloads (s.jc.rec_ == 2) s.det.inputs).map fun p => (2, p.map (·, false))
  let x := s.hubRead t.shard (256 * t.shardLen)
  let y := x.1.spAsk (wordsFrom t.aux t.auxw)
  (y.1, ins ++ [(1, x.2.1.zip x.2.2 ++ y.2.flatMap fun w => (wordBytes w.1).map (·, w.2))])

/-- Where the records go, or none where the log lacks room (R299). -/
def placeAll (size : Nat) : Nat → List (Nat × Nat × Nat × Nat × Nat) → List Nat → Option (List Nat)
  | _, _, [] => some []
  | head, held, u :: us =>
    match placeRec size head held u with
    | none => none
    | some o => (placeAll size (o + u) (held ++ [(o, u, 0, 0, 0)]) us).map (o :: ·)

/-- One record is sent at its place. -/
def State.sendRec (s : State) (t : StageTab) (off kind : Nat) (p : List (Byte × Bool)) : State :=
  let x := s.train
  let pay := p.map (·.1)
  let h := recHeader kind s.fab.lnode x.step x.vseq x.e x.clean pay
  let n := recUnits pay.length
  let b := h.map (·, false) ++ p ++ List.replicate (256 * n - 64 - p.length) (0#8, false)
  let s := (s.mirrorOut t off b).updTrain fun y => { y with sent := y.sent ++ [(off, n, y.step.toNat, y.vseq.toNat, kind)] }
  if kind = 2 then s.updDet fun d => { d with recs := satAdd 16 d.recs 1 } else s.updDet fun d => { d with sentDig := treeHash pay }

/-- A replay compares the shard's digest with the original record's (R323). -/
def State.checkShard (s : State) : State :=
  let n := s.train.step.toNat
  match s.det.origDig.find? fun x => x.1 == n with
  | some x =>
    if s.det.replay ∧ !s.det.diverge ∧ x.2 ≠ s.det.sentDig then s.updDet fun d => { d with diverge := true, dstep := s.train.step } else s
  | none => s

/-- The optimizer items (Table 10-7 step 5): item j to core j mod 512. -/
def State.postOpt (s : State) (t : StageTab) (step : W64) (e : Int) : Option State :=
  let n := t.optNm1 + 1
  let d := fun (j : Nat) (a : State) => a.itemEntry t.optOpc false step e (j + 1 == n) (j == 0) 2 0 j 0 a.train.vseq
  s.postUnit (2, 0, 0) ((List.range n).map fun j => (j % 512, t.optSlot, d j))

/-- Step 5 is held while an image of an earlier step is still read (R300), or hashed by CERTIFY (R326). -/
def State.imageHold (s : State) : Bool :=
  (match s.train.ckpt with
   | some c => decide (s.train.step.toNat ≥ c.1 + 2)
   | none => false) ||
  (match s.det.certAt with
   | some c => decide (s.train.step.toNat ≥ c.step.toNat + 1)
   | none => false)

/-- O of R286: a flag gathered since step 1 is in OVF_MASK. -/
def State.overflowed (s : State) : Bool :=
  let cs := s.cores.foldl (fun (a : Byte) c => a ||| c.2.vflags ||| c.2.arr0.flags ||| c.2.arr1.flags ||| c.2.arr2.flags ||| c.2.arr3.flags) 0#8
  let es := s.coll.engs.foldl (fun (a : Byte) e => a ||| e.2.flags) cs
  (es &&& s.jc.ovfMask) != 0#8

/-- An early vote (R287): H = 0, and the remaining phases are skipped. -/
def State.earlyVote (s : State) : State := s.postVote false s.overflowed

/-- REDUCE_DONE: RCTR ≥ RTHR. A full log, and optimizer items that find no room, leave the phase. -/
def execReduceDone (s : State) : Res :=
  match s.train.tab with
  | none => .next s
  | some t =>
    if s.train.phase ≠ 3 ∨ !s.seqQuiet ∨ (s.ctrSeen t.rctr).toNat < t.rthr ∨ s.imageHold then .next s
    else
      let x := s.attemptRecs t
      match placeAll t.logSize s.train.bHead s.train.bRecs (x.2.map fun r => recUnits r.2.length) with
      | none => .next ((x.1.updTrain fun y => { y with full := true }).earlyVote)
      | some offs =>
        let a := (offs.zip x.2).foldl (fun (a : State) r => a.sendRec t r.1 r.2.1 r.2.2) x.1
        let a := (a.checkShard).updTrain fun y => { y with mirSent := true }
        match a.postOpt t a.train.step a.train.e with
        | none => .next ((a.updTrain fun y => { y with itemErr := true }).earlyVote)
        | some b => .next (b.toPhase 4)

/-! ## Votes (R286, R287) -/

/-- Cores that the stage table names. -/
def StageTab.cores (t : StageTab) : List Nat :=
  (t.stages.flatMap fun g => from_ g.cbase (g.ncm1 + 1)) ++ List.range (min 512 (t.optNm1 + 1))

/-- H of R286 at step 6: among others, no item of any unit is left. -/
def State.healthy (s : State) (t : StageTab) : Bool :=
  !s.train.itemErr && (s.train.units.all fun u => u.left == 0) && !s.train.tplErr && !s.train.mirBad && !s.train.errSince && !s.train.full &&
  (t.cores.all fun c => (s.core c).st != .stopped && !(s.core c).retired) && (s.hbm.stks.all fun k => k.2.st != 3)

/-- No item of the optimizer is left. -/
def State.optDone (s : State) : Bool := s.train.units.all fun u => u.kind != 2 || u.left == 0

/-- UPDATE_COMPLETE: step 6, or an early vote where an item or template entry has ended with an error. -/
def execUpdateComplete (s : State) : Res :=
  match s.train.tab with
  | none => .next s
  | some t =>
    if s.train.ws ≠ .open_ ∨ s.train.cfgw ∨ s.train.phase = 0 ∨ s.train.phase ≥ 5 then .next s
    else if s.train.itemErr ∨ s.train.tplErr then .next s.earlyVote
    else if s.train.phase = 4 ∧ s.train.mirSent ∧ s.train.mirrors = 0 ∧ s.optDone then
      let s := if s.train.mirBad then s else s.ctrAsk .sequencer 4034 (.add 1#48)
      .next (s.postVote (s.healthy t) s.overflowed)
    else .next s

/-- SEQ_WAIT_TIMEOUT: a wait on a counter or on a unit's completion has lasted WAIT_TMO. -/
def execSeqWaitTimeout (ms : Nat) (s : State) : Res :=
  let waits : Bool := match s.train.tab with
    | none => false
    | some t => match s.train.phase with
      | 1 => true
      | 2 => true
      | 3 => decide ((s.ctrSeen t.rctr).toNat < t.rthr)
      | 4 => !s.optDone
      | _ => false
  when (waits && decide (ms ≥ s.jc.waitTmo)) s s.earlyVote

/-- MIRROR_WAIT_TIMEOUT. -/
def execMirrorWaitTimeout (ms : Nat) (s : State) : Res :=
  when (s.train.phase == 4 && decide (s.train.mirrors > 0 ∧ ms ≥ s.jc.mirrorWait)) s s.earlyVote

/-- OUTCOME_GRACE_TIMEOUT (Table 10-9): no outcome VOTE_TMO + OUT_GRACE after the VOTE entry started. -/
def execOutcomeGraceTimeout (ms : Nat) (s : State) : Res :=
  when (s.train.ws == .voting && decide (ms ≥ s.jc.voteTmo + s.jc.outGrace)) s <|
    let s := s.updTrain fun t => { t with ws := .unresolved }
    let s := s.postSes s.train.sid 0x0005 s.train.vseq
    (s.report (rep 2 9 0 5 0x41 s.train.vseq.toNat)).setJob .held 3

/-! ## Rest, retry and hold (R296) -/

/-- ATTEMPT_REST: every core is at a boundary; the job's lists are reset, and the device retries or holds. A list with a collective that
has sent SEAL up is reset once that has ended (R269). -/
def execAttemptRest (s : State) : Res :=
  let tols := s.jobQueues 6
  if s.train.atRest ∨ s.cores.any fun c => c.2.held && c.2.item.isSome then .next s
  else if tols.any fun q => !s.quietQ q then .next (s.beginReset tols).settle
  else
    let s := tols.foldl (fun (a : State) q => a.resetQueue q) s
    let s := { s with cores := s.cores.map fun (c : Nat × Cor) => (c.1, { c.2 with held := false }) }
    let due := s.train.due
    let run := s.train.wantRun && due == 0
    let s := s.updTrain fun t => { t with atRest := true, due := 0, wantRun := false }
    let s := if due > 0 ∧ s.train.js = .run then s.endReplay.setJob .held due else if run ∧ s.train.js = .held then s.setJob .run 0 else s
    .next s.readmitDue.startCert.startCfg

/-- CORE_BOUNDARY_TIMEOUT: the core is stopped and launched again at its entry bundle. -/
def execCoreBoundaryTimeout (c ms : Nat) (s : State) : Res :=
  unit c 512 <|
    when (!s.train.atRest && (s.core c).held && (s.core c).item.isSome && decide (ms ≥ s.jc.waitTmo)) s
      (((s.endItem c 0x109 0#32 0#32 true).launchCore c).updCore c fun k => { k with held := true })

/-! ## Images (R300, R302, R304) -/

/-- The image of the present state is streamed to storage after its manifest, read under regulator group `g` (R300). -/
def State.streamImage (s : State) (g : Nat) (t : StageTab) (tgt off : Nat) : State :=
  let x := s.regionsOf g t s.train.slot
  let m := manifest 0 s.fab.lnode (s.train.step - 1) s.train.e s.train.clean x.2
  let one := fun (a : State × Nat) (r : Nat × List (Byte × Bool)) => (a.1.emit (.storage tgt a.2 (r.2.map (·.1))), a.2 + r.2.length)
  (x.2.foldl one (x.1.emit (.storage tgt off m), off + m.length)).1.updTrain fun y => { y with ckptBad := x.2.any fun r => r.2.any (·.2) }

/-- CKPT_IMAGE_COMPLETE: every chunk is acknowledged. A spoiled chunk fails the checkpoint. -/
def execCkptImageComplete (spoiled : Bool) (s : State) : Res :=
  match s.train.ckpt with
  | some c =>
    let bad := spoiled || s.train.ckptBad
    let s := s.updTrain fun y => { y with ckpt := none, cstate := if bad then 3 else 2 }
    .next (if bad then s.finishLong c.2 0x10E 0#32 0#32 0#32 0#32 else s.doneLong c.2)
  | none => .next s

/-- An image's regions are written into slot 0, and E, CLEAN and STEP follow its header (R302, R303). -/
def State.loadImage (s : State) (t : StageTab) (img : ImageRead) : State :=
  let s := (t.states.zip img.regions).foldl (fun (a : State) r => a.hubWrite r.1.1 (r.2.take r.1.2.2)) s
  s.updTrain fun y => { y with e := img.e, clean := img.clean, step := BitVec.ofNat 64 (img.step + 1), slot := 0 }

/-- The final record of REPLACE or DRAIN on the device that is filled. -/
def State.endRepl (s : State) (status : Nat) : State :=
  match s.train.replHnd with
  | none => s
  | some h => (s.updTrain fun t => { t with replHnd := none }).finishLong h status 0#32 0#32 0#32 0#32

/-- The rebuild is abandoned and reported; the device is HELD until it is rolled back (R303) [198]. -/
def State.abandon (s : State) : State :=
  let s := s.updTrain fun t => { t with repl := { t.repl with st := 4, rec_ := none }, rebuilding := false }
  ((s.report (rep 2 9 0 5 0x43 s.train.repl.lnode)).endRepl 0x109).setJob .held 6

/-- A check of a digest has failed: retried up to three times (R302). -/
def State.digestFail (s : State) : State :=
  if s.train.repl.tries ≥ 3 then s.abandon else s.updTrain fun t => { t with repl := { t.repl with tries := t.repl.tries + 1 } }

/-- Y has every record: READY. -/
def State.rebuildReady (s : State) : State :=
  (s.updTrain fun t => { t with repl := { t.repl with st := 3, rleft := 0, t_ := t.step.toNat } }).endRepl 2

/-- An image that has been checked fills slot 0, and the replay begins. -/
def State.rebuildFrom (s : State) (t : StageTab) (img : ImageRead) : State :=
  let s := (s.loadImage t img).updTrain fun y =>
    { y with repl := { y.repl with st := 1, image := img.step, cdone := img.nchunk % 65536, ctotal := img.nchunk % 65536, tries := 0,
                                   rleft := (Config.freeWord s.free).toNat % 2 ^ 32 } }
  s.tick.setJob .rebuild 0

/-- REBUILD_IMAGE_LOADED: step 2 of Table 10-14. -/
def execRebuildImageLoaded (img : ImageRead) (s : State) : Res :=
  match s.train.tab with
  | none => .next s
  | some t =>
    if s.train.js ≠ .pending ∨ img.kind ≠ 0 ∨ img.lnode ≠ s.train.repl.lnode then .next s
    else if !img.good ∨ img.spoiled then .next s.digestFail
    else .next (s.rebuildFrom t img)

/-- The REGION 255 entries of step 4 have come to a standby that rebuilds: the mentee's log, where its digests hold. -/
def State.drainLog (s : State) (t : StageTab) (img : ImageRead) (l : Nat × List Byte) : State :=
  if s.train.js = .rebuild ∧ s.train.repl.drain ∧ img.kind = 1 ∧ img.lnode = s.train.repl.lnode ∧ img.good then s.takeLog t l.1 l.2 else s

/-- DRAIN_IMAGE_CHECKED: step 3 of Table 10-15, or the log copy of step 4. A spoiled chunk abandons the copy, and the rebuild waits for the
checkpoint's image (R305). -/
def execDrainImageChecked (img : ImageRead) (s : State) : Res :=
  match s.train.tab, img.log with
  | none, _ => .next s
  | some t, some l => .next (s.drainLog t img l)
  | some t, none =>
    if s.train.js ≠ .pending ∨ !s.train.repl.drain ∨ img.kind ≠ 1 ∨ img.lnode ≠ s.train.repl.lnode then .next s
    else if img.spoiled then .next (s.updTrain fun y => { y with repl := { y.repl with drain := false, cdone := 0 } })
    else if !img.good then .next s.digestFail
    else .next (s.rebuildFrom t img)

/-- A GRAD record's shard and auxiliary block are put where the optimizer reads them, and its items are posted. -/
def State.replayRec (s : State) (t : StageTab) (b : List Byte) : State :=
  let pay := (b.drop 64).take (fieldLe b 24 8)
  let s := s.hubWrite t.shard (pay.take (256 * t.shardLen))
  let aux := (bytesWords (pay.drop (256 * t.shardLen))).take t.auxw
  let s := s.spWrites (aux.zipIdx.map fun w => ((t.aux + w.2) % 2 ^ 29, w.1, false))
  let s := s.updTrain fun y => { y with repl := { y.repl with rec_ := some (b.take 64) }, e := sval (fieldLe b 20 1) 8, clean := fieldLe b 22 2 }
  match s.postOpt t (BitVec.ofNat 64 (fieldLe b 8 8)) (sval (fieldLe b 20 1) 8) with
  | some x => (x.updTrain fun y => { y with rebuilding := true, repl := { y.repl with tries := 0 } }).giveStep
  | none => s.abandon

/-- REBUILD_RECORD_FETCHED: step 3. The end of the log is an empty record. Records other than committed GRAD records above the
image step are skipped; a gap in STEP abandons the rebuild. -/
def execRebuildRecordFetched (b : List Byte) (s : State) : Res :=
  match s.train.tab with
  | none => .next s
  | some t =>
    if s.train.js ≠ .rebuild ∨ (s.train.repl.st ≠ 1 ∧ s.train.repl.st ≠ 2) ∨ s.train.rebuilding then .next s
    else if b.isEmpty then .next s.rebuildReady
    else
      let s := s.updTrain fun y => { y with repl := { y.repl with st := 2 } }
      let step := fieldLe b 8 8
      if fieldLe b 0 4 ≠ 0x474F4C54 ∨ fieldLe b 4 1 ≠ 1 ∨ fieldLe b 5 1 ≠ 1 ∨ fieldLe b 6 2 ≠ s.train.repl.lnode ∨ step < s.train.step.toNat then .next s
      else if treeHash ((b.drop 64).take (fieldLe b 24 8)) ≠ (b.drop 32).take 32 then .next s.digestFail
      else if step ≠ s.train.step.toNat then .next s.abandon
      else .next (s.replayRec t b)

/-- REBUILD_RECORD_APPLIED: the record's outcome is applied under R289 actions 1 and 2. -/
def execRebuildRecordApplied (s : State) : Res :=
  if !s.train.rebuilding ∨ !s.optDone then .next s
  else if s.train.itemErr then .next s.abandon
  else
    .next ((s.updTrain fun t =>
      { (t.scale true false s.jc.nRaise) with
        slot := (t.slot + 1) % 2, step := t.step + 1, rebuilding := false, units := [], posts := []
        repl := { t.repl with rec_ := none, rleft := t.repl.rleft - 1 } }).giveStep)

/-- The job is launched again from the state that a replay's image gave it (R322). An image at or past T_stop holds it at once [148]. -/
def State.startReplay_ (s : State) : State :=
  let s := (s.updDet fun d => { d with replay := true, mismatch := false, diverge := false, morder := 0, dstep := 0#64, inPay := [] }).updTrain fun t =>
    { t with gather := true, launched := true, train := true, retry := 0, ovfrun := 0, hrun := 0, errSince := false }
  let s := s.launchAll.setJob .run 0
  if s.train.step.toNat ≥ s.det.tstop.toNat then s.stopReplay.setJob .held 5 else s

/-- ROLLBACK_IMAGE_LOADED (R303): also the start of a replay (R322). A bad image ends the command with MEM_ERROR. A device whose rebuild
was abandoned takes the image of the node that it replaces and is READY [198]. -/
def execRollbackImageLoaded (img : ImageRead) (s : State) : Res :=
  match s.train.tab with
  | none => .next s
  | some t =>
    let starts : Bool := s.det.rhnd != 0 && !s.det.replay
    if s.train.rollHnd.isNone ∧ !starts then .next s
    else
      let filled := s.train.repl.st == 4
      let ok := img.good && !img.spoiled && img.kind == 0 && img.lnode == (if filled then s.train.repl.lnode else s.fab.lnode)
      let s := if ok then (s.loadImage t img).updTrain fun y =>
          { y with gather := true, repl := if filled then { y.repl with st := 3 } else y.repl } else s
      match s.train.rollHnd with
      | some h =>
        let s := s.updTrain fun y => { y with rollHnd := none }
        .next (if ok then s.doneLong h else s.finishLong h 0x10E 0#32 0#32 0#32 0#32)
      | none =>
        if ok then .next s.startReplay_
        else .next ((s.updDet fun d => { d with rhnd := 0 }).finishLong s.det.rhnd 0x10E 0#32 0#32 0#32 0#32)

end Sys2Proof.Machine
end

