-- ==== Sys2Proof/Machine/Det.lean ====
section
/-! DEFINITION. Recorded inputs, their replay and export, and certified outputs (11 R317 to R326). -/

namespace Sys2Proof.Machine

/-- A range of `n` bytes that meets a region of the job, that is of its partition. -/
def State.meetsJob (s : State) (a n : Nat) : Bool :=
  s.hbm.rgns.any fun e => e.2.valid && e.2.part == s.fab.part && s.fab.part != 0 &&
    decide (a < (e.2.base + e.2.size) * 2 ^ 26 ∧ e.2.base * 2 ^ 26 < a + n)

/-- An input takes its ORDER as its completion is posted (R319). -/
def State.addInput (s : State) (srck obj off dst : Nat) (data : List Byte) : State :=
  s.updDet fun d => { d with inputs := d.inputs ++
    [{ order := d.inputs.length, srck := srck, len := data.length, obj := obj, off := off, dst := dst,
       dig := (treeHash data).take 24, data := data }] }

/-- The completion of an input, on the CEQ of the job's items: TAG is the object handle's low word, and the details give
ORDER and the address [34]. -/
def State.postInput (s : State) (obj order dst : Nat) : State :=
  s.postRec s.jc.seqCeq (rec0 (BitVec.ofNat 32 obj) 0x1FFF 2 0 (BitVec.ofNat 32 order) (BitVec.ofNat 32 dst) (BitVec.ofNat 32 (dst / 2 ^ 32))
    (BitVec.ofNat 32 (obj / 2 ^ 32)) false)

/-- INGEST_COMPLETE (R319): a shard placed by the ingest service; closed to the job in a replay (R322). -/
def execIngestComplete (obj off dst : Nat) (data : List Byte) (s : State) : Res :=
  if s.train.js = .idle ∨ s.det.replay ∨ data.isEmpty ∨ data.length > 2 ^ 31 then .next s
  else
    let a := dst % 2 ^ 40
    let r := s.memPut .service 0 a data
    .next ((r.1.addInput 1 obj off a data).postInput obj s.det.inputs.length a)

/-- EXPORT_ACK (R321). -/
def execExportAck (s : State) : Res := when (decide (s.det.expPend > 0)) s (s.updDet fun d => { d with expPend := d.expPend - 1 })

/-- REPLAY_INPUT_DELIVER (R322, R323): the next recorded input, from the record or from `data` fetched again. A digest that
fails posts nothing more in the attempt and is reported; MORDER keeps the first. -/
def execReplayInputDeliver (data : List Byte) (s : State) : Res :=
  match s.det.feed with
  | [] => .next s
  | x :: rest =>
    if !s.det.replay ∨ s.train.phase = 0 then .next s
    else
      let b := if s.jc.rec_ = 2 then x.data else data
      if (treeHash b).take 24 ≠ x.dig ∨ b.length ≠ x.len then
        .next ((s.updDet fun d => { d with mismatch := true, morder := if d.mismatch then d.morder else x.order, feed := [] }).report
          (rep 2 9 0 8 0x42 x.order))
      else
        let s := (s.memPut .service 0 x.dst b).1.updDet fun d => { d with feed := rest }
        let s := s.updDet fun d => { d with inputs := d.inputs ++ [{ x with data := b }] }
        .next (s.postInput x.obj x.order x.dst)

/-! ## Certified outputs (R325, R326) -/

/-- PLANDIG: the eight plan entries, then the valid pass sets. -/
def State.planBytes (s : State) : List Byte :=
  let sets := (List.range 8).filter fun n => s.light.valid.getLsbD n
  ((List.range 8).flatMap fun x => wordsBytes (s.tree (x / 2) (x % 2)).words) ++
    sets.flatMap fun n => (List.range 102).flatMap fun x => wordBytes (s.passEnt n (x / 17) (x % 17))

/-- The digest record (Table 11-5) of an output; whether a spoiled word was met. -/
def State.digestRecord (s : State) (t : StageTab) (at_ : CertAt) (addr len : Nat) (T : W64) : State × List Byte × Bool :=
  let o := s.hubRead addr len
  let r := o.1.regionsOf 0 t at_.slot
  let bad := o.2.2.any id || r.2.any fun x => x.2.any (·.2)
  let j := s.jc
  let ins := (s.det.inPay.filter fun x => x.1 == T.toNat).flatMap (·.2)
  let recd := j.rec_ != 0
  (r.1, [0x43#8, 0x45#8, 0x52#8, 0x54#8, 1#8, BitVec.ofNat 8 j.detmode, 2#8, BitVec.ofNat 8 (b2n recd + 2 * b2n bad + 4 * b2n at_.ff)] ++
    wordBytes s.mod.fwver ++ natLe s.train.n 4 ++ natLe s.fab.lnode 2 ++ natLe 0 2 ++ wordBytes at_.vseq ++ natLe T.toNat 8 ++
    natLe at_.step.toNat 8 ++ natLe len 8 ++ natLe addr 8 ++ natLe j.seed.toNat 8 ++ treeHash s.det.prog ++
    treeHash (r.2.flatMap fun x => x.2.map (·.1)) ++ (if recd then treeHash ins else List.replicate 32 0#8) ++ treeHash (o.2.1) ++
    treeHash s.planBytes ++ [BitVec.ofNat 8 (twos at_.e 8), 0#8] ++ natLe at_.clean 2 ++ List.replicate 28 0#8, bad)

/-- CERTIFY_HASH_COMPLETE (R326): the record is written and the command completes, with PROG_ERROR where a word was spoiled. -/
def execCertifyHashComplete (s : State) : Res :=
  match s.det.cert, s.det.certAt, s.train.tab with
  | some c, some k, some t =>
    let x := s.digestRecord t k c.2.1 c.2.2.1 c.2.2.2.1
    let s := (x.1.hubWrite c.2.2.2.2 x.2.1).updDet fun d => { d with cert := none, certAt := none }
    .next (if x.2.2 then s.finishLong c.1 0x10B 0#32 0#32 0#32 0#32 else s.doneLong c.1)
  | _, _, _ => .next s

end Sys2Proof.Machine
end

