-- ==== Sys2Proof/Machine/Qcp.lean ====
section
/-! DEFINITION. The frame of a QCP command (12 R333, R340, R341, R343 to R348, 14 R400): who sent it, what refuses it before its
own rule is reached, its records, its handle, and the structures that it names in device memory. -/

namespace Sys2Proof.Machine

/-- A command at the arbiter: its queue, its descriptor, and HEAD of the queue after its fetch. -/
structure Cmd where
  q  : Nat
  d  : Desc
  hd : Nat
  deriving DecidableEq, Repr

def Cmd.w (c : Cmd) (i : Nat) : W32 := Desc.word c.d i
def Cmd.n (c : Cmd) (i : Nat) : Nat := (Desc.word c.d i).toNat
def Cmd.dw (c : Cmd) (i : Nat) : Nat := (Desc.dword c.d i).toNat
def Cmd.opc (c : Cmd) : Nat := bitsOf (c.w 0) 15 0
def Cmd.fence (c : Cmd) : Bool := (c.w 0).getLsbD 20
def Cmd.noirq (c : Cmd) : Bool := (c.w 0).getLsbD 21

/-- Field [hi:lo] of word `i`. -/
def Cmd.f (c : Cmd) (i hi lo : Nat) : Nat := bitsOf (c.w i) hi lo

/-- Bit `b` of word `i`. -/
def Cmd.bit (c : Cmd) (i b : Nat) : Bool := (c.w i).getLsbD b

/-- Words from `k` up are 0 (R12). -/
def Cmd.zero (c : Cmd) (k : Nat) : Bool := zeroFrom c.d k

/-- Word `i` has only bits of `mask`. -/
def Cmd.only (c : Cmd) (i mask : Nat) : Bool := !extra c.d i mask

/-- The session that the command acts for. -/
def State.sidOf (s : State) (c : Cmd) : Nat := (s.que c.q).sid

/-- The master: 0 a host session, 1 the admin queue, 2 the tray manager (R339). -/
def Cmd.master (c : Cmd) : Nat := if c.q = 0 then 1 else if c.q = 8190 then 2 else 0

/-- Table 12-7: the masters of an opcode; nothing for an opcode outside the table or not for an HSQ. -/
def opcMasters (o : Nat) : Option (List Nat) :=
  match o with
  | 0x0000 => some [0, 1, 2]
  | 0x0001 => some [1]
  | 0x0002 => some [1]
  | 0x0003 => some [0, 1, 2]
  | 0x0010 => some [0, 1]
  | 0x0011 => some [0, 1]
  | 0x0012 => some [0, 1]
  | 0x0013 => some [0, 2]
  | 0x0014 => some [0, 2]
  | 0x0020 => some [0, 2]
  | 0x0021 => some [0, 2]
  | 0x0530 => some [0, 2]
  | 0x0540 => some [0, 2]
  | 0x0610 => some [2]
  | _ =>
    if [0x0100, 0x0101, 0x0102, 0x0110, 0x0111, 0x0112, 0x0113, 0x0120, 0x0121, 0x0200, 0x0210, 0x0211, 0x0212, 0x0213, 0x0214,
        0x0220, 0x0300, 0x0301, 0x0302, 0x0303, 0x0310, 0x0311, 0x0312, 0x0400, 0x0401, 0x0500, 0x0510, 0x0511, 0x0520, 0x0521,
        0x0522, 0x0531, 0x0532, 0x0541, 0x0900, 0x0901].contains o then some [0]
    else if [0x0600, 0x0601, 0x0602, 0x0603, 0x0700, 0x0701, 0x0702, 0x0703, 0x0710, 0x0720, 0x0800, 0x0801, 0x0810, 0x0820].contains o then
      some [0, 2]
    else if 0x7F00 ≤ o ∧ o ≤ 0x7FFF then some [0, 2]
    else none

/-- The session's row. -/
def State.sess (s : State) (sid : Nat) : Sess := tget { v13 := false, evq := 8191, unlocked := false } s.host.sess sid

/-- Opcodes that a QCP 1.3 session accepts (R340). -/
def opc13 (o : Nat) : Bool := decide (o < 0x0200) || o == 0x0600

/-- What refuses a command before its own rule (status and DETAIL0): FATAL (R400), DEV_NOT_READY (R333), reserved bits of word 0,
the opcode, the version, the master, the session's version. DEDUCED: the order of the last five, which the rules leave open. -/
def State.refusal (s : State) (c : Cmd) : Option (Nat × W32) :=
  let o := c.opc
  if s.flt.fatal ∧ o = 0x0014 ∧ c.master ≠ 2 then some (0x107, 0#32)
  else if s.flt.fatal ∧ !([0x0000, 0x0003, 0x0014, 0x0700, 0x0702].contains o) then some (0x104, 0#32)
  else if !s.flt.fatal ∧ !s.host.ready then some (0x100, BitVec.ofNat 32 s.host.phase)
  else if c.f 0 31 28 ≠ 0 ∨ c.f 0 27 22 ≠ 0 then some (0x103, 0#32)
  else
    match opcMasters o with
    | none => some (0x102, 0#32)
    | some ms =>
      if c.f 0 19 16 ≠ 0 then some (0x101, 0#32)
      else if !ms.contains c.master then some (0x107, 0#32)
      else if (s.sess (s.sidOf c)).v13 ∧ c.master = 0 ∧ !opc13 o then some (0x102, 0#32)
      else none

/-! ## Records -/

/-- The command's KIND 0 record, on the CEQ bound to its queue (R345). -/
def State.reply (s : State) (c : Cmd) (status : Nat) (d0 d1 d2 d3 : W32) : State :=
  s.postOn c.q (rec0 (c.w 1) c.q status c.hd d0 d1 d2 d3 c.noirq)

def State.ok (s : State) (c : Cmd) : State := s.reply c 0 0#32 0#32 0#32 0#32
def State.deny (s : State) (c : Cmd) (status : Nat) : State := s.reply c status 0#32 0#32 0#32 0#32
def State.badParam (s : State) (c : Cmd) : State := s.deny c 0x103
def State.badState (s : State) (c : Cmd) : State := s.deny c 0x104

/-- OK with DETAIL0. -/
def State.okWith (s : State) (c : Cmd) (d0 : Nat) : State := s.reply c 0 (BitVec.ofNat 32 d0) 0#32 0#32 0#32

/-- MEM_ERROR with the first failing address. -/
def State.memError (s : State) (c : Cmd) (a : Nat) : State :=
  s.reply c 0x10E (BitVec.ofNat 32 a) (BitVec.ofNat 32 (a / 2 ^ 32)) 0#32 0#32

/-- The lowest free handle index (R346). -/
def State.freeIdx (s : State) : Option Nat :=
  ((from_ 1 (s.host.longs.length + 1)).find? fun i => !s.host.longs.any fun l => l.idx == i).filter (· ≤ 16383)

/-- A long command passes its checks: ACCEPTED with a handle, then `f` with the handle's index. -/
def State.accepted (s : State) (c : Cmd) (f : Nat → State → State) : State :=
  match s.freeIdx with
  | none => s.deny c 0x105
  | some i =>
    let l : Long := { idx := i, gen := tget 0 s.host.hgen i, tag := c.w 1, q := c.q, sid := s.sidOf c, opc := c.opc, sqhead := c.hd,
                      noirq := c.noirq, d := c.d }
    let s := s.postOn c.q { (rec0 (c.w 1) c.q 1 c.hd 0#32 0#32 0#32 0#32 c.noirq) with hnd := l.handle }
    f i (s.updHost fun h => { h with longs := h.longs ++ [l] })

/-- The final record of long command `i` with MEM_ERROR. -/
def State.endMemError (s : State) (i a : Nat) : State :=
  s.finishLong i 0x10E (BitVec.ofNat 32 a) (BitVec.ofNat 32 (a / 2 ^ 32)) 0#32 0#32

/-! ## Structures in device memory (R348, R349) -/

/-- Words `i`, `i + 1` hold a device memory address. -/
def Cmd.addrOk (c : Cmd) (i : Nat) : Bool := decide (c.dw i < 2 ^ 40)

/-- The structure of words 2 to 4 is read once; `k` goes on with its bytes. A spoiled or unmapped word is MEM_ERROR. -/
def State.structure_ (s : State) (c : Cmd) (good : Bool) (k : State → List Byte → State) : State :=
  if !c.addrOk 2 ∨ !good then s.badParam c
  else
    let r := s.memRead .hub 0 (c.dw 2) (c.n 4)
    match r.2.2.2 with
    | some a => r.1.memError c a
    | none => k r.1 r.2.1

/-- Bytes `i` to `i + n − 1` are 0. -/
def zeroBytes (b : List Byte) (i n : Nat) : Bool := ((b.drop i).take n).all (· == 0#8)

/-! ## Rights and order -/

/-- A host session's command about the job is denied to other sessions than the job's (R339). -/
def State.ownsJob (s : State) (c : Cmd) : Bool := c.master != 0 || s.train.js == .idle || s.train.sid == s.sidOf c

/-- Queue `q` is an HSQ whose commands are fetched. -/
def State.hsqOpen (s : State) (q : Nat) : Bool := (s.que q).typ == 1 && (s.que q).st == 1

/-- Every earlier command of the queue has completed, its records written (FENCE, R343). -/
def State.clearOf (s : State) (q : Nat) : Bool :=
  !(s.host.longs.any fun l => l.q == q) && !(s.flt.readmits.any fun f => f.q == q) &&
    !(s.host.recs.any fun r => r.2.sq == q && r.2.kind != 2)

/-- Nothing fetched earlier from the queue waits (R345), and FENCE holds nothing back. -/
def State.inTurn (s : State) (c : Cmd) : Bool :=
  (if c.q = 8190 then s.host.tray.isEmpty else !(s.host.fetched.any fun f => f.q == c.q)) && (!c.fence || s.clearOf c.q)

/-- A command is admitted: refused by the frame, or carried out by `run`. -/
def State.admitWith (s : State) (c : Cmd) (run : Cmd → State → State) : State :=
  match s.refusal c with
  | some x => s.reply c x.1 x.2 0#32 0#32 0#32
  | none => run c s

/-- The row of one opcode: descriptor `d` of queue `q` reaches the arbiter and is admitted. -/
def qcpRow (opc q : Nat) (d : Desc) (s : State) (run : Cmd → State → State) : Res :=
  unit q 8192 <|
    let c : Cmd := { q := q, d := d, hd := (s.que q).head }
    when (c.opc == opc && s.hsqOpen q && s.inTurn c) s (s.admitWith c run)

end Sys2Proof.Machine
end

