-- ==== Sys2Proof/Machine/QcpHost.lean ====
section
/-! DEFINITION. Group 0x00: sessions, queues, resets, handles and the identity block (12 R335, R339 to R342, R346, R348, R354,
14 R401). DEV_RESET is with the module's start-up. -/

namespace Sys2Proof.Machine

/-! ## NOP and DEV_INFO -/

def runNop (c : Cmd) (s : State) : State := if c.zero 2 then s.ok c else s.badParam c

/-- NOP. -/
def execNop (q : Nat) (d : Desc) (s : State) : Res := qcpRow 0x0000 q d s runNop

/-- Data that a command copies out: to the device memory address of words 2 and 3, or in FATAL to the read buffer, where DETAIL2
carries the byte count (R401). -/
def State.copyData (s : State) (c : Cmd) (bs : List Byte) : State :=
  if s.flt.fatal then
    let b := bs.take 65536
    (s.updHost fun h => { h with fbuf := cellStore [] 0 b }).reply c 0 0#32 0#32 (BitVec.ofNat 32 b.length) 0#32
  else if !c.addrOk 2 then s.badParam c
  else
    let r := s.memPut .hub 0 (c.dw 2) bs
    match r.2 with
    | some a => r.1.memError c a
    | none => r.1.ok c

def runDevInfo (c : Cmd) (s : State) : State := if c.zero 4 then s.copyData c s.idnBytes else s.badParam c

/-- DEV_INFO: the 4 KiB of the IDN_ block. -/
def execDevInfo (q : Nat) (d : Desc) (s : State) : Res := qcpRow 0x0003 q d s runDevInfo

/-! ## Sessions (R339 to R342) -/

/-- The QCP version and GEN chosen for a range and a GENMASK: 2.0 with GEN 2, else 1.3 with GEN 1 (R340). -/
def chooseVersion (high low mask : Nat) : Option (Nat × Nat) :=
  if low ≤ 0x0200 ∧ 0x0200 ≤ high ∧ nbit mask 1 then some (0x0200, 2)
  else if low ≤ 0x0103 ∧ 0x0103 ≤ high ∧ nbit mask 0 then some (0x0103, 1)
  else none

/-- The lowest free host SID. -/
def State.freeSid (s : State) : Option Nat := (from_ 1 63).find? fun i => !(s.host.sess.any fun e => e.1 == i)

/-- The event CEQ that SES_OPEN names, or the status that refuses it. -/
def State.eventCeq (s : State) (n : Nat) : Nat ⊕ Nat :=
  if n = 0x1FFF ∨ n = 1 then .inl 1
  else if n = 8191 then .inr 0x107
  else if (s.que n).typ ≠ 2 then .inr 0x103
  else .inr 0x107

def runSesOpen (c : Cmd) (s : State) : State :=
  if !c.only 3 0xF ∨ !c.only 4 0x1FFF ∨ !c.zero 5 then s.badParam c
  else
    match chooseVersion (c.f 2 31 16) (c.f 2 15 0) (c.f 3 3 0) with
    | none => s.reply c 0x101 0#32 0x02000103#32 0#32 0#32
    | some v =>
      match s.eventCeq (c.f 4 12 0) with
      | .inr st => s.deny c st
      | .inl q =>
        match s.freeSid with
        | none => s.deny c 0x105
        | some i =>
          (s.updHost fun h => { h with sess := tput h.sess i { v13 := v.1 == 0x0103, evq := q, unlocked := false } }).reply c 0
            (BitVec.ofNat 32 (v.1 * 65536 + v.2 * 256 + i)) 0x02000103#32 0#32 0#32

/-- SES_OPEN (R340). -/
def execSesOpen (q : Nat) (d : Desc) (s : State) : Res := qcpRow 0x0001 q d s runSesOpen

/-- A host session is open. -/
def State.sesOpen (s : State) (sid : Nat) : Bool := sid != 0 && s.host.sess.any (·.1 == sid)

/-- A reset command is accepted: its queues enter RESETTING and those that are quiet pass on at once. -/
def State.startReset (s : State) (c : Cmd) : State :=
  s.accepted c fun _ t => (t.beginReset (t.resetTargets c.opc c.d)).settle

def runSesClose (c : Cmd) (s : State) : State :=
  let sid := c.f 2 5 0
  if !c.only 2 0x3F ∨ !c.zero 3 then s.badParam c
  else if sid = 0 then s.deny c 0x107
  else if !s.sesOpen sid then s.badState c
  else s.startReset c

/-- SES_CLOSE (R342) [25]. -/
def execSesClose (q : Nat) (d : Desc) (s : State) : Res := qcpRow 0x0002 q d s runSesClose

/-! ## Queues (R335) -/

/-- Type maxima (Table 12-4). -/
def typeMax (t : Nat) : Nat := if t ≤ 2 then 1024 else 2048

/-- Queues of a type. -/
def State.ofType (s : State) (t : Nat) : Nat := (s.host.qs.filter fun e => e.2.typ == t).length

/-- The lowest free queue number. -/
def State.freeQueueNo (s : State) : Option Nat :=
  ((from_ 2 (s.host.qs.length + 1)).find? fun i => (s.que i).typ == 0).filter (· < 8190)

/-- The new entry that words 3 to 8 describe. -/
def Cmd.queEnt (c : Cmd) (sid : Nat) : QEnt :=
  let t := c.f 3 31 29
  { QEnt.free with
    typ := t, st := 1, loc := c.f 3 25 24, log2n := c.f 3 23 19, sid := sid, bindq := c.f 3 12 0
    part := c.f 4 31 20, bnone := c.bit 4 19, dbc := c.bit 4 12, dbctr := c.f 4 11 0, base := c.dw 5
    vec := if t = 2 then c.f 8 31 21 else 0, phase := t == 2, cnt := if t = 2 then c.f 8 17 10 else 0
    tmr := if t = 2 then c.f 8 9 0 else 0, core := if t = 3 then c.f 8 31 23 else 0, slot := if t = 3 then c.f 8 22 21 else 0
    eng := if t = 6 then c.f 8 31 29 else 0, batch := if t = 5 then c.f 8 31 19 else 0 }

/-- TYPEDEP names only the fields of its type; the CEQ's state bits are ignored. -/
def Cmd.typeDepOk (c : Cmd) (t : Nat) : Bool :=
  match t with
  | 2 => true
  | 3 => c.only 8 0xFFE00000
  | 5 => c.only 8 0xFFF80000 && decide (c.f 8 31 19 ≤ 4096)
  | 6 => c.only 8 0xE0000000 && decide (c.f 8 31 29 ≤ 5)
  | _ => c.n 8 == 0

/-- The parts of the entry that Tables 12-4 and 12-5 bound. -/
def QEnt.shapeOk (e : QEnt) : Bool :=
  decide (1 ≤ e.typ ∧ e.typ ≤ 6 ∧ 4 ≤ e.log2n ∧ e.log2n ≤ 16)
    && (if e.typ = 1 then e.loc == 0 else if e.typ = 2 then decide (e.loc ≤ 1) else e.loc == 1 || e.loc == 2)
    && (if e.loc = 2 then e.base % 1024 == 0 && decide (e.base < 2 ^ 29)
        else e.base % 4096 == 0 && (e.loc == 0 || decide (e.base < 2 ^ 40)))
    && (if e.typ ≤ 2 then e.part == 0 && !e.dbc else true)
    && (e.typ != 2 || e.bnone)

/-- The CEQ that the entry is bound to: the status that refuses it (R339). -/
def State.bindBad (s : State) (e : QEnt) : Option Nat :=
  if e.bnone then none
  else if e.bindq = 0x1FFF ∨ e.bindq = 8191 then some 0x107
  else if (s.que e.bindq).typ ≠ 2 then some 0x103
  else if e.bindq ≠ 1 ∧ (s.que e.bindq).sid ≠ e.sid then some 0x107
  else none

/-- The queue's number and entry, or the status that refuses the command. -/
def State.createCheck (s : State) (c : Cmd) : (Nat × QEnt) ⊕ Nat :=
  let sid := c.f 3 18 13
  let e := c.queEnt sid
  let n := c.f 2 12 0
  if !c.only 2 0x11FFF ∨ !c.only 4 0xFFF81FFF ∨ !c.zero 9 ∨ !e.shapeOk ∨ !c.typeDepOk e.typ ∨ (c.bit 2 16 ∧ e.typ ≠ 2) then .inr 0x103
  else if c.master = 0 ∧ sid ≠ s.sidOf c then .inr 0x107
  else if !s.sesOpen sid then .inr 0x103
  else if n = 0 ∨ n = 1 ∨ n = 8190 then .inr 0x107
  else if n ≠ 0x1FFF ∧ (s.que n).typ ≠ 0 then .inr (if (s.que n).sid = sid then 0x104 else 0x107)
  else
    match s.bindBad e with
    | some st => .inr st
    | none =>
      if e.typ = 3 ∧ (s.cwqOf e.core e.slot).isSome then .inr 0x104
      else if s.ofType e.typ ≥ typeMax e.typ then .inr 0x105
      else if n ≠ 0x1FFF then .inl (n, e)
      else
        match s.freeQueueNo with
        | some m => .inl (m, e)
        | none => .inr 0x105

def runQueCreate (c : Cmd) (s : State) : State :=
  match s.createCheck c with
  | .inr st => s.deny c st
  | .inl x =>
    let e := { x.2 with tail := if x.2.dbc then (s.ctr x.2.dbctr).toNat % 2 ^ x.2.log2n else 0 }
    let s := s.updHost fun h => { h with qs := tput h.qs x.1 e }
    let s := if c.bit 2 16 then
        s.updHost fun h => { h with sess := h.sess.map fun y => if y.1 = e.sid then (y.1, { y.2 with evq := x.1 }) else y }
      else s
    s.okWith c x.1

/-- QUE_CREATE: an entry is made, ENABLED and empty; its number is DETAIL0. -/
def execQueCreate (q : Nat) (d : Desc) (s : State) : Res := qcpRow 0x0010 q d s runQueCreate

/-- The status that refuses a reset of queue `n` (R339, R354). -/
def State.resetBad (s : State) (c : Cmd) (n : Nat) : Option Nat :=
  if !c.only 2 0x1FFF ∨ !c.zero 3 then some 0x103
  else if n = c.q then some 0x103
  else if n = 0 ∨ n = 1 ∨ n ≥ 8190 then some 0x107
  else if (s.que n).typ = 0 then some 0x103
  else if c.master = 0 ∧ (s.que n).sid ≠ s.sidOf c then some 0x107
  else if (s.que n).st = 2 then some 0x104
  else none

def runQueReset (c : Cmd) (s : State) : State :=
  match s.resetBad c (c.f 2 12 0) with
  | some st => s.deny c st
  | none => s.startReset c

/-- QUE_RESET (R354) [25]. -/
def execQueReset (q : Nat) (d : Desc) (s : State) : Res := qcpRow 0x0012 q d s runQueReset

def runQueDelete (c : Cmd) (s : State) : State :=
  match s.resetBad c (c.f 2 12 0) with
  | some st => s.deny c st
  | none => s.startReset c

/-- QUE_DELETE: a queue reset, then the entry is freed [25]. -/
def execQueDelete (q : Nat) (d : Desc) (s : State) : Res := qcpRow 0x0011 q d s runQueDelete

def runDomainReset (c : Cmd) (s : State) : State :=
  let sid := c.f 2 5 0
  let host := c.master == 0
  if !c.only 2 0x1003F ∨ !c.zero 3 then s.badParam c
  else if c.bit 2 16 then
    if s.train.js = .idle then s.badState c
    else if host ∧ s.train.sid ≠ s.sidOf c then s.deny c 0x107
    else s.startReset c
  else if sid = 0 then s.badParam c
  else if host ∧ sid ≠ s.sidOf c then s.deny c 0x107
  else if !s.sesOpen sid then s.badState c
  else s.startReset c

/-- DOMAIN_RESET (R354): every queue of a session or of the job. -/
def execDomainReset (q : Nat) (d : Desc) (s : State) : Res := qcpRow 0x0013 q d s runDomainReset

/-! ## Handles (R346) -/

/-- 0 unknown, 1 running, 2 done: an index whose final record was the last of its generation. -/
def State.handleState (s : State) (hnd : Nat) : Nat :=
  let i := hnd % 2 ^ 24
  let g := hnd / 2 ^ 24
  match s.longAt i with
  | some l => if l.gen % 256 = g then 1 else if (g + 1) % 256 = l.gen % 256 ∧ s.host.hgen.any (·.1 == i) then 2 else 0
  | none => if s.host.hgen.any (·.1 == i) ∧ tget 0 s.host.hgen i = (g + 1) % 256 then 2 else 0

/-- The handle is a running command of another session. -/
def State.handleForeign (s : State) (c : Cmd) (hnd : Nat) : Bool :=
  match s.longAt (hnd % 2 ^ 24) with
  | some l => l.gen % 256 == hnd / 2 ^ 24 && c.master == 0 && l.sid != s.sidOf c
  | none => false

def runHandleQuery (c : Cmd) (s : State) : State :=
  if !c.zero 3 then s.badParam c
  else if s.handleForeign c (c.n 2) then s.deny c 0x107
  else s.okWith c (s.handleState (c.n 2))

/-- HANDLE_QUERY: the state of a handle in DETAIL0. -/
def execHandleQuery (q : Nat) (d : Desc) (s : State) : Res := qcpRow 0x0020 q d s runHandleQuery

/-- The long commands that a cancel stops. -/
def cancellable (o : Nat) : Bool := [0x0110, 0x0111, 0x0112, 0x0113, 0x0200, 0x0312, 0x0510, 0x0800, 0x0900, 0x0901].contains o

def runHandleCancel (c : Cmd) (s : State) : State :=
  let h := c.n 2
  if !c.zero 3 then s.badParam c
  else if s.handleForeign c h then s.deny c 0x107
  else
    match s.handleState h with
    | 0 => s.badParam c
    | 1 =>
      match s.longAt (h % 2 ^ 24) with
      | none => s.badState c
      | some l => if cancellable l.opc then ((s.haltLong l).finishLong l.idx 0x10A 0#32 0#32 0#32 0#32).ok c else s.badState c
    | _ => s.badState c

/-- HANDLE_CANCEL: a cancellable command stops and ends with CANCELLED. -/
def execHandleCancel (q : Nat) (d : Desc) (s : State) : Res := qcpRow 0x0021 q d s runHandleCancel

end Sys2Proof.Machine
end

