-- ==== Sys2Proof/Machine/QcpFault.lean ====
section
/-! DEFINITION. Group 0x07: fault registers, the health ledger, link counts, windows and readmission (07 R205, 14 R392, R398, R401,
R407). -/

namespace Sys2Proof.Machine

def runFltRead (c : Cmd) (s : State) : State := if c.zero 4 then s.copyData c s.fltBytes else s.badParam c

/-- FLT_READ: the FLT_ block. -/
def execFltRead (q : Nat) (d : Desc) (s : State) : Res := qcpRow 0x0700 q d s runFltRead

def runFltClear (c : Cmd) (s : State) : State :=
  if !c.only 2 3 ∨ !c.zero 3 then s.badParam c
  else
    (s.updFlt fun f =>
      let f : Flt := if c.bit 2 0 then { f with first := { f.first with valid := false, ovf := false }, covf := false } else f
      if c.bit 2 1 then { f with dies := f.dies.map fun e => (e.1, { e.2 with valid := false, ovf := false }) } else f).ok c

/-- FLT_CLEAR: VALID and OVERFLOW of FLT_FIRST with COVF, or of every FLT_DIE_i. -/
def execFltClear (q : Nat) (d : Desc) (s : State) : Res := qcpRow 0x0701 q d s runFltClear

/-! ## HEALTH_READ -/

/-- A ledger entry as its 32 bytes (R405). -/
def Ledg.bytes (e : Ledg) : List Byte :=
  natLe e.typ 1 ++ natLe e.die 1 ++ natLe e.sub 1 ++ [0#8] ++ natLe e.unit 2 ++ [0#8, 0#8] ++ natLe e.time 4 ++ natLe e.seq 4 ++ e.body

/-- Sequence number of the newest entry; a free value while the ledger is empty. -/
def State.newestSeq (s : State) : W32 :=
  match s.flt.ledger.getLast? with
  | some e => BitVec.ofNat 32 e.seq
  | none => (Config.freeWord s.free).setWidth 32

def runHealthRead (c : Cmd) (s : State) : State :=
  let es := (s.flt.ledger.filter fun e => decide (e.seq ≥ c.n 5)).take ((if s.flt.fatal then min (c.n 4) 65536 else c.n 4) / 32)
  let bs := es.flatMap Ledg.bytes
  let n := BitVec.ofNat 32 es.length
  if c.n 4 % 32 ≠ 0 ∨ !c.zero 6 then s.badParam c
  else if s.flt.fatal then
    ((s.updHost fun h => { h with fbuf := cellStore [] 0 bs }).reply c 0 n s.newestSeq (BitVec.ofNat 32 bs.length) 0#32).tick
  else if !c.addrOk 2 then s.badParam c
  else
    let r := s.memPut .hub 0 (c.dw 2) bs
    match r.2 with
    | some a => r.1.memError c a
    | none => (r.1.reply c 0 n s.newestSeq 0#32 0#32).tick

/-- HEALTH_READ: ledger entries from a sequence number on; their count and the newest number. -/
def execHealthRead (q : Nat) (d : Desc) (s : State) : Res := qcpRow 0x0702 q d s runHealthRead

/-! ## LINK_COUNT -/

def runLinkCount (c : Cmd) (s : State) : State :=
  let l := c.f 2 6 0
  let e := c.f 2 9 8
  if !c.only 2 0x37F ∨ !c.zero 3 ∨ l > 95 then s.badParam c
  else
    let a := tget 0 (s.lid l).acc e
    let t := tget 0 (s.lid l).txa e
    s.reply c 0 (half a false) (half a true) (half t false) (half t true)

/-- LINK_COUNT (R205): ACC and TXA of a LID in an epoch [45]. -/
def execLinkCount (q : Nat) (d : Desc) (s : State) : Res := qcpRow 0x0703 q d s runLinkCount

/-! ## UNIT_READMIT -/

def runUnitReadmit (c : Cmd) (s : State) : State :=
  let cs := readmitCores (c.w 2)
  let f : Fetched := { q := c.q, d := c.d, sqhead := c.hd }
  if !c.only 2 0x3FFFF000 ∨ !c.zero 3 ∨ cs.isEmpty ∨ !cs.all s.unitOut then s.badParam c
  else if s.train.js = .rebuild ∨ s.train.js = .pending then s.deny c 0x106
  else if s.train.js = .run ∧ s.train.train ∧ !(s.between && s.train.atRest) then
    s.updFlt fun x => { x with readmits := x.readmits ++ [f] }
  else s.actReadmit f

/-- UNIT_READMIT (R398): at once, or at the next attempt boundary of a job in RUN. -/
def execUnitReadmit (q : Nat) (d : Desc) (s : State) : Res := qcpRow 0x0710 q d s runUnitReadmit

/-! ## FLT_WINDOWS -/

def runFltWindows (c : Cmd) (s : State) : State :=
  let w := c.f 2 3 0
  let n := c.f 3 15 0
  let t := c.n 4
  if !c.only 2 0xF ∨ !c.only 3 0xFFFF ∨ !c.zero 5 ∨ w > 10 ∨ n = 0 ∨ t = 0 ∨ t > 2592000000 then s.badParam c
  else
    let s := s.updFlt fun f => { f with wins := tput f.wins w (n, t), cnts := f.cnts.filter fun e => e.1.1 != w }
    let s := if w = 5 then s.updHbm fun h => { h with stks := h.stks.map fun e => (e.1, { e.2 with rows := [] }) } else s
    s.ok c

/-- FLT_WINDOWS (R392): N and T of a window; its counts are cleared. -/
def execFltWindows (q : Nat) (d : Desc) (s : State) : Res := qcpRow 0x0720 q d s runFltWindows

end Sys2Proof.Machine
end

