-- ==== Sys2Proof/Machine/HbmOps.lean ====
section
/-! DEFINITION. Device memory's commands (06): the path of a unit from translation through its regulator group and its
pseudo-channel queue, maintenance of the stacks, and the replacement of region entries. -/

namespace Sys2Proof.Machine

/-! ## Region entries (R155, R156, R173) -/

/-- Bytes of one stack in 48 GiB, and of one channel. -/
def stackBytes : Nat := 48 * 2 ^ 30
def chanBytes : Nat := 3 * 2 ^ 29

/-- Stacks that an entry's map uses (Table 6-1). -/
def Region.stacks (e : Region) : List Nat :=
  match e.map with
  | 0 => List.range 12
  | 1 => from_ (3 * e.sel) 3
  | _ => [e.sel]

/-- First stack offset and length of an entry's backing on each of its stacks (Table 6-1). -/
def Region.backing (e : Region) : Nat × Nat :=
  (e.soff * 2 ^ 24, e.size * 2 ^ 26 / (match e.map with
    | 0 => 12
    | 1 => 3
    | _ => 1))

/-- Two ranges share an element. -/
def meets (a n b m : Nat) : Bool := decide (a < b + m ∧ b < a + n)

/-- SEL and CHAN in range for the map (Table 6-9). -/
def Region.selOk (e : Region) : Bool :=
  match e.map with
  | 0 => e.sel == 0 && e.chan == 0
  | 1 => decide (e.sel < 4) && e.chan == 0
  | 2 => decide (e.sel < 12) && e.chan == 0
  | _ => decide (e.sel < 12 ∧ e.chan < 32)

/-- The conditions of R155 and R173 on a new entry `n`. An entry that is not valid removes the region. -/
def State.regionOk (s : State) (n : Nat) (e : Region) : Bool :=
  let others := s.hbm.rgns.filter fun x => x.1 != n && x.2.valid
  !e.valid ||
  (decide (1 ≤ e.size ∧ e.base + e.size ≤ 16384) && e.selOk
    && (decide (e.map ≥ 2) || e.size % 3 == 0)
    && decide (e.backing.1 + e.backing.2 ≤ (if e.map = 3 then chanBytes else stackBytes))
    && e.stacks.all (fun t => (s.stack t).st != 3)
    && others.all (fun x => !meets e.base e.size x.2.base x.2.size)
    && (if e.map = 3 then !s.train.launched
        else others.all fun x => x.2.map == 3 || !(e.stacks.any fun t => x.2.stacks.contains t)
          || !meets e.backing.1 e.backing.2 x.2.backing.1 x.2.backing.2))

/-- Units in flight under entry `n`. -/
def State.unitsIn (s : State) (n : Nat) : List HUnit :=
  (s.hbm.waitq ++ s.hbm.offer ++ s.hbm.pcq.map (·.2)).filter fun u => u.rgn == n

/-- Generation of entry `n`. -/
def State.rgnGen (s : State) (n : Nat) : Nat := tget 0 s.hbm.rgnGen n

/-- Steps 1 and 2 of R156: entry `n` is replaced in one hub cycle. -/
def State.rgnInstall (s : State) (n : Nat) (e : Region) : State :=
  s.updHbm fun h => { h with rgns := tput h.rgns n e, rgnGen := tupd 0 h.rgnGen n (· + 1) }

/-- A REGION_SET of entry `n` whose old units are all complete ends, and the next one for the entry starts; one that
fails its checks ends with BAD_PARAM (R156). `k` bounds the commands that can end here. -/
def State.rgnSettle (s : State) (n : Nat) : Nat → State
  | 0 => s
  | k + 1 =>
    match s.hbm.sets.find? fun x => x.n == n with
    | none => s
    | some x =>
      let gone (t : State) : State := t.updHbm fun h => { h with sets := h.sets.erase x }
      if x.live then
        if (s.unitsIn n).all fun u => u.gen == s.rgnGen n then (((gone s).doneLong x.hnd)).rgnSettle n k else s
      else if s.regionOk n x.ent then
        let t := (s.rgnInstall n x.ent).updHbm fun h =>
          { h with sets := h.sets.map fun y => if y.hnd = x.hnd then { y with live := true } else y }
        t.rgnSettle n k
      else ((gone s).finishLong x.hnd 0x103 0#32 0#32 0#32 0#32).rgnSettle n k

/-- REGION_SET_DRAINED (R156): the last unit of the old entry is complete. -/
def execRegionSetDrained (n : Nat) (s : State) : Res :=
  unit n 64 (.next (s.rgnSettle n (2 * s.hbm.sets.length)))

/-! ## Requests and regulators (R156, R161 to R164) -/

/-- The request's group and input are its requester's (Table 6-2, R161): CORE_RG of the job for core traffic, the fixed groups of
collective engines, host, services and log, a free group named by a command of the host or hub, group 0 for link engines [176]; MAINT's
own requests come from the controller alone. -/
def State.groupFits (s : State) (r : UnitReq) : Bool :=
  decide (r.input < 4) &&
  match r.who with
  | .core _ => r.group == (s.host.job.map (·.coreRg)).getD 0
  | .coll _ => r.group == (if r.write then 1 else 2)
  | .host => r.group == 3 || decide (7 ≤ r.group)
  | .service => r.group == 4
  | .hub => r.group == 5 || decide (7 ≤ r.group)
  | .engine _ => r.group == 0
  | .maint => false

/-- The unit of an outstanding copy that a request of core `c` for address `addr` is for: the oldest copy with that unit still to be
requested, an HPUT's once its words have been read (R105, R162). -/
def Cor.copyUnit (k : Cor) (addr : Nat) : Option (TAcc × Nat) :=
  (k.hacc.findSome? fun a => (a.todo.find? fun n => (a.dev + 32 * n) % 2 ^ 40 == addr).map fun n => (a, n)).filter fun x =>
    x.1.top == 0x10 || (x.1.unitWords x.2).all fun w => x.1.got.any fun g => g.1 == w

/-- The request of unit `n` of copy `a`, with the words that an HPUT carries and their spoil bits (R120). -/
def copyReq (r : UnitReq) (a : TAcc) (n : Nat) : UnitReq :=
  let ws := (a.unitWords n).map (wordIn a.got)
  { r with id := 65536 * a.id + n, write := a.top == 0x11, data := wordsBytes (ws.map (·.1)), mask := BitVec.allOnes 32
           spoil := BitVec.ofNat 8 ((ws.map fun w => b2n w.2).foldr (fun b x => b + 2 * x) 0) }

/-- Unit `n` of a copy has been requested; `ends` is what it takes from the accesses still awaited. -/
def State.copyTaken (s : State) (c : Nat) (a : TAcc) (n ends : Nat) : State :=
  s.updCore c fun k => { k with hacc := k.hacc.map fun x => if x.id = a.id then { x with todo := x.todo.erase n, left := x.left - ends } else x }

/-- The accesses that end one unit of a copy: the lines an HGET writes, an HPUT's unit itself. -/
def TAcc.unitEnds (a : TAcc) (n : Nat) : Nat := if a.top = 0x10 then (((a.unitWords n).map (· / 4)).dedup).length else 1

/-- A unit that translation lets through waits at its regulator group. -/
def State.unitWait (s : State) (r : UnitReq) (p : Nat × Nat × Nat) : State :=
  s.updHbm fun h => { h with waitq := h.waitq ++ [{ req := r, st := p.2.1, so := p.2.2, rgn := p.1, gen := tget 0 h.rgnGen p.1 }] }

/-- A core's unit: one of its outstanding copies'. Unmapped, it takes exception 0x05 (R154); of another partition, it is discarded and
reported (R157). The copy goes on without it. -/
def State.coreUnit (s : State) (c : Nat) (r : UnitReq) : State :=
  match (s.core c).copyUnit r.addr with
  | none => s
  | some (a, n) =>
    match s.rgnAt r.addr with
    | none => (s.copyTaken c a n (a.unitEnds n)).coreException c 5 3
    | some e =>
      if e.2.part ≠ s.fab.part then (s.copyTaken c a n (a.unitEnds n)).report (reqRep (.core c) 0x16 r.addr)
      else (s.copyTaken c a n 0).unitWait (copyReq { r with part := s.fab.part } a n) (e.1, (e.2.place r.addr).1, (e.2.place r.addr).2)

/-- HBM_UNIT_REQUEST (R154, R156, R157): one unit is translated and checked and waits at its regulator group. -/
def execHbmUnitRequest (r : UnitReq) (s : State) : Res :=
  if r.addr % 32 ≠ 0 ∨ r.addr ≥ 2 ^ 40 ∨ r.group ≥ 16 ∨ !s.groupFits r then .next s
  else
    match r.who with
    | .core c => unit c 512 (.next (s.coreUnit c r))
    | _ =>
      match s.admitUnit r.who r.part r.addr with
      | (t, none) => .next t
      | (t, some p) => .next (t.unitWait r p)

/-- Numbers of requesters, for the rotating index of R164. -/
def reqNo : Requester → Nat
  | .core c => c
  | .engine e => 512 + e
  | .coll e => 518 + e
  | .host => 524
  | .service => 525
  | .hub => 526
  | .maint => 527
def reqCount : Nat := 528

/-- The unit of a list that goes first: the oldest, equal ages by the rotating index over numbers `f`; whether a tie was
settled. -/
def oldest (l : List HUnit) (rot n : Nat) (f : HUnit → Nat) : Option (HUnit × Bool) :=
  match l with
  | [] => none
  | h :: t =>
    let low := t.foldl (fun a u => min a u.req.cyc) h.req.cyc
    let tied := l.filter fun u => u.req.cyc == low
    (firstFrom rot n fun i => tied.any fun u => f u == i).bind fun i =>
      (tied.find? fun u => f u == i).map fun u => (u, decide (tied.length > 1))

/-- The pseudo-channel queue a unit goes to, 2 * channel + pc. -/
def HUnit.pc (u : HUnit) : Nat := 2 * chanOf u.so + pcOf u.so

/-- Entries of a pseudo-channel queue, in acceptance order. -/
def State.pcEntries (s : State) (st pc : Nat) : List (Nat × HUnit) := s.hbm.pcq.filter fun x => x.2.st == st && x.2.pc == pc

/-- The first case of BORROW (R164). -/
def State.mayBorrow (s : State) (u : HUnit) : Bool :=
  let es := s.pcEntries u.st u.pc
  decide (es.length < 32) && es.all (fun x => x.2.req.group == u.req.group)
    && s.hbm.offer.all (fun x => !(x.st == u.st && x.pc == u.pc) || x.req.group == u.req.group)

/-- Unit `u` of group `g` is admitted, with a token or without; it arrives at its controller in cycle `cyc`. -/
def State.regPass (s : State) (g cyc : Nat) (u : HUnit) (tie token : Bool) : State :=
  let s := s.updGrp g fun k => { k with rot := if tie then (reqNo u.req.who + 1) % reqCount else k.rot
                                        level := if token then k.level - 160 else k.level }
  s.updHbm fun h => { h with waitq := h.waitq.erase u, offer := h.offer ++ [{ u with req := { u.req with cyc := cyc } }] }

/-- REGULATOR_ADMIT (R163, R164). -/
def execRegulatorAdmit (g cyc : Nat) (s : State) : Res :=
  unit g 16 <|
    let s1 := s.regFill g cyc
    let k := s1.grp g
    match oldest (s1.waiting g) k.rot reqCount (fun u => reqNo u.req.who) with
    | none => .next s1
    | some (u, tie) =>
      if k.rate = 0 then .next (s1.regPass g cyc u tie false)
      else if k.level ≥ 160 then .next (s1.regPass g cyc u tie true)
      else if k.borrow && s1.mayBorrow u then .next (s1.regPass g cyc u tie false)
      else .next s1

/-- BORROW_AGE_EXPIRY (R164): 4,096 controller cycles of waiting. -/
def execBorrowAgeExpiry (g cyc : Nat) (s : State) : Res :=
  unit g 16 <|
    let s1 := s.regFill g cyc
    let k := s1.grp g
    match oldest (s1.waiting g) k.rot reqCount (fun u => reqNo u.req.who) with
    | none => .next s1
    | some (u, tie) => if k.borrow ∧ cyc ≥ u.req.cyc + 4096 then .next (s1.regPass g cyc u tie false) else .next s1

/-! ## Pseudo-channel queues (R161, R162) -/

/-- PC_QUEUE_ACCEPT (R161): one request a controller cycle that LM permits (R361), while the queue holds fewer than 64. -/
def execPcQueueAccept (st pc cyc : Nat) (s : State) : Res :=
  unit st 12 <| unit pc 64 <|
    let key := 64 * st + pc
    let cands := s.hbm.offer.filter fun u => u.st == st && u.pc == pc
    match oldest cands (tget 0 s.hbm.pcRot key) 5 (fun u => u.req.input) with
    | none => .next s
    | some (u, tie) =>
      if (s.pcEntries st pc).length ≥ 64 ∨ tget 0 s.hbm.accAt key > cyc ∨ !cyclePermitted (s.gate (16 + st)).eff cyc then .next s
      else .next (s.updHbm fun h =>
        { h with offer := h.offer.erase u, pcq := h.pcq ++ [(cyc, u)], accAt := tput h.accAt key (cyc + 1)
                 pcRot := if tie then tput h.pcRot key ((u.req.input + 1) % 5) else h.pcRot })

/-- The bank group that a slice holds in a pseudo-channel (R171). -/
def State.underTest (s : State) (st pc : Nat) : Option Nat := (s.hbm.test.find? fun x => x.1 == st && x.2.1 == pc).map (·.2.2.1)

/-- A request for a unit in a bank group under test waits (R171). -/
def State.unitHeld (s : State) (u : HUnit) : Bool := s.underTest u.st u.pc == some (rowBg (rowOfSo u.so))

/-- What a read unit does at the requester: the words of an HGET enter the floor at the edge stop of their terrace (R128), any other
requester's leave as they are. -/
def State.unitAnswer (s : State) (u : HUnit) (d : List Byte × List Bool) : State :=
  match u.req.who with
  | .core c =>
    (match (s.core c).hacc.find? fun a => a.id == u.req.id / 65536 with
     | some a =>
       let n := u.req.id % 65536
       let ws := (a.unitWords n).zipIdx.map fun w => (w.1, bytesWord ((d.1.drop (4 * w.2)).take 4), d.2.getD w.2 false)
       (wordWrites (.copyWr c a.id n) (edgeOf u.req.input) ws).foldl (fun t q => t.injectReq (edgeOf u.req.input) q) s
     | none => s)
  | .maint => s
  | _ => s.emit (.unitData u.req.id d.1 (BitVec.ofNat 8 ((d.2.map b2n).foldr (fun b a => b + 2 * a) 0)))

/-- A written unit at the requester: an HPUT has one unit less to write. -/
def State.unitWritten (s : State) (u : HUnit) : State :=
  match u.req.who with
  | .core c => s.accGot (.copyWr c (u.req.id / 65536) 0) []
  | _ => s

/-- A queued unit is performed: a partial write reads, merges and writes (R160); a read returns the unit; a write-back changes no data
(R167). -/
def State.unitServe (s : State) (x : Nat × HUnit) (e : Ecc) : State :=
  let u := x.2
  let s := s.updHbm fun h => { h with pcq := h.pcq.erase x, first := h.first.erase x }
  let mask := (List.range 32).map fun i => u.req.mask.getLsbD i
  if u.req.who = .maint ∧ u.req.write then s
  else if u.req.write then
    let s := if (s.stack u.st).st = 3 ∨ u.req.mask = BitVec.allOnes 32 then s else (s.unitRead u.st u.so u.req.addr e).1
    (s.unitWrite u.st u.so u.req.addr u.req.data mask ((List.range 8).map fun i => u.req.spoil.getLsbD i)).unitWritten u
  else
    let r := s.unitRead u.st u.so u.req.addr e
    r.1.unitAnswer u r.2

/-- Entry `i` of a queue may be served in controller cycle `cyc` (R162, R171): no earlier entry is for its unit or has waited 512
cycles, but for those that a slice holds; it is not held itself, and no other is due first after a slice. -/
def State.mayServe (s : State) (st pc i cyc : Nat) : Option (Nat × HUnit) :=
  let es := s.pcEntries st pc
  es[i]?.filter fun x =>
    !s.unitHeld x.2 &&
    ((es.take i).all fun y => y.2.so / 32 != x.2.so / 32 && (s.unitHeld y.2 || decide (cyc < y.1 + 512))) &&
    s.hbm.first.all fun y => y.2.st != st || y.2.pc != pc || y == x || s.unitHeld y.2

/-- HBM_REQUEST_SERVE: entry `i` of the queue. -/
def execHbmRequestServe (st pc i cyc : Nat) (e : Ecc) (s : State) : Res :=
  unit st 12 <| unit pc 64 <|
    match s.mayServe st pc i cyc with
    | none => .next s
    | some x => .next (s.unitServe x e)

/-- The entry that R162 puts before all others in cycle `cyc`: the earliest that no slice holds, once it has waited 512 cycles. -/
def State.aged (s : State) (st pc cyc : Nat) : Option (Nat × HUnit) :=
  ((s.pcEntries st pc).find? fun x => !s.unitHeld x.2).filter fun x => decide (x.1 + 512 ≤ cyc)

/-- HBM_AGE_LIMIT: the earliest entry has waited 512 cycles and is served before the others. -/
def execHbmAgeLimit (st pc cyc : Nat) (e : Ecc) (s : State) : Res :=
  unit st 12 <| unit pc 64 <|
    match s.aged st pc cyc with
    | none => .next s
    | some x => .next (s.unitServe x e)

/-! ## Maintenance (R153, R167 to R171) -/

/-- HBM_MAINT_WRITEBACK (R167): the queued write-back of a unit is performed in controller cycle `cyc` in its turn; the unit's data is
what the store already holds. -/
def execHbmMaintWriteback (st so cyc : Nat) (s : State) : Res :=
  unit st 12 <|
    let pc := 2 * chanOf so + pcOf so
    match (s.pcEntries st pc).findIdx? fun x => x.2.isBack st so with
    | none => .next s
    | some i =>
      match s.mayServe st pc i cyc with
      | none => .next s
      | some x => .next (s.unitServe x .clean)

/-- Controller cycles between two scrubs of a stack, so that a pass takes the scrub period (R168): units of 32 bytes at 1.25 GHz. -/
def scrubGap (hours : Nat) : Nat := hours * 3600 * 1250000000 / (stackBytes / 32)

/-- HBM_PATROL_SCRUB (R168): the read of the stack's next unit goes to MAINT in group 6 when it is due; a bank group under test is
skipped until its slice ends (R171). -/
def execHbmPatrolScrub (st cyc : Nat) (s : State) : Res :=
  unit st 12 <|
    let so := 32 * (s.stack st).scrubAt
    let u := maintUnit st so 0 cyc
    when (s.stackRuns st && (s.stack st).scrub && decide ((s.stack st).scrubDue ≤ cyc) && !s.unitHeld u) s
      ((s.updStack st fun k =>
        { k with scrubAt := (k.scrubAt + 1) % (stackBytes / 32), scrubDue := cyc + scrubGap s.hbm.scrubH }).updHbm fun h =>
          { h with waitq := h.waitq ++ [u] })

/-- HBM_REFRESH: one refresh of a bank. -/
def execHbmRefresh (st bank : Nat) (s : State) : Res :=
  unit st 12 <| when (s.stackRuns st) s (s.updStack st fun k => { k with refreshes := tupd 0 k.refreshes bank (· + 1) })

/-- STACK_HOT_CHANGE: the sensor's reading; refresh is doubled above 85 °C. -/
def execStackHotChange (st temp : Nat) (s : State) : Res := unit st 12 (.next (s.stackTemp st temp))

/-- A marked row meets its bank group's slice (R169): moved to a spare row, its ledger entry following where it is not yet written, or
left in service and the stack DEGRADED. -/
def State.repairRow (s : State) (st : Nat) (spare : Bool) (row : Nat) : State :=
  let so := rowBase row
  let s := s.updStack st fun k =>
    if spare then { k with marked := setDel k.marked row, ppr := satAdd 8 k.ppr 1 }
    else { k with marked := setDel k.marked row, st := if k.st = 1 then 2 else k.st }
  let s : State := if spare then s.updFlt (fun f => { f with ledgq := f.ledgq.map (fun e =>
      if e.typ == 4 && e.die == 16 + st && e.body.take 8 == natLe so 8 then { e with body := natLe so 8 ++ [1#8] ++ List.replicate 7 0#8 } else e) }) else s
  s.report (stackRep 1 st (chanOf so) 0x12 so)

/-- Step 1 of Table 6-3: the slice of a pseudo-channel holds its bank group in turn and tests `row`. -/
def State.sliceStart (s : State) (st pc row : Nat) : State :=
  (s.updHbm fun h => { h with test := h.test ++ [(st, pc, rowBg row, row)] }).updStack st fun k => { k with slice := true }

/-- Steps 5 and 6 of Table 6-3: the bank group's marked rows are repaired, the tested row's data is unchanged, a row with two faulty
cells in a unit or a fault that no spare covers is marked and reported as its stored units require, and the held requests are
released, the oldest to be served first (R171). -/
def State.sliceEnd (s : State) (st pc bg row faults : Nat) (spare : Bool) (e : Ecc) : State :=
  let key := 64 * st + pc
  let s := ((s.stack st).marked.filter fun r => rowPc r == pc && rowBg r == bg).foldl (fun a r => a.repairRow st spare r) s
  let held := (s.pcEntries st pc).find? fun x => rowBg (rowOfSo x.2.so) == bg
  let s := s.updHbm fun h => { h with
    sliceBg := tput h.sliceBg key ((bg + 1) % 4)
    test := h.test.filter fun x => !(x.1 == st && x.2.1 == pc)
    first := h.first ++ held.toList }
  let s := s.updStack st fun k => { k with slice := s.hbm.test.any fun x => x.1 == st }
  if faults ≥ 2 ∨ (faults ≥ 1 ∧ !spare) then
    let s := s.markRow st row
    match e with
    | .clean => s
    | .corrected => s.report (stackRep 1 st (pc / 2) 0x10 (rowBase row))
    | .uncorrectable => s.report (stackRep 2 st (pc / 2) 0x11 (rowBase row))
  else s

/-- HBM_SELFTEST_SLICE (R170, Table 6-3): `fin` false, a slice starts `ms` after the last one of its pseudo-channel, while no refresh
of the bank group is pending, on the row that holds the unit numbered by bits [35:14] `row` of its stack offset; `fin` true, it ends. -/
def execHbmSelftestSlice (st pc row ms faults : Nat) (fin refPend spare : Bool) (e : Ecc) (s : State) : Res :=
  unit st 12 <| unit pc 64 <|
    match s.hbm.test.find? fun x => x.1 == st && x.2.1 == pc with
    | none =>
      let r := Config.hbmRowFirst row * 64 + pc
      when (!fin && s.stackRuns st && !refPend && decide (s.hbm.sliceMs ≤ ms) && rowBg r == tget 0 s.hbm.sliceBg (64 * st + pc) % 4) s
        (s.sliceStart st pc r)
    | some x => when fin s (s.sliceEnd st pc x.2.2.1 x.2.2.2 faults spare e)

end Sys2Proof.Machine
end

