-- ==== Sys2Proof/Machine/QcpMem.lean ====
section
/-! DEFINITION. Group 0x01 and PROG_LOAD: regions, regulators, the aperture, copies, memory windows and program images (06 R155,
R156, R164, R168, 07 R181, 11 R317, R322, R325, 12 R331, R346, R349, R351). -/

namespace Sys2Proof.Machine

/-! ## REGION_SET, MEM_CONFIG, APERTURE_SET -/

/-- The region entry of words 3 to 5 (Table 6-9); a removal leaves an empty entry. -/
def Cmd.region (c : Cmd) : Region :=
  if c.bit 3 31 then
    { valid := true, map := c.f 3 30 29, sel := c.f 3 28 25, chan := c.f 3 24 20, part := c.f 3 11 0, size := c.f 4 30 16, base := c.f 4 13 0
      soff := c.f 5 11 0 }
  else Region.none

def runRegionSet (c : Cmd) (s : State) : State :=
  let n := c.f 2 5 0
  if !c.only 2 0x3F ∨ !c.only 3 0xFFF00FFF ∨ !c.only 4 0x7FFF3FFF ∨ !c.only 5 0xFFF ∨ !c.only 6 0xFFFF ∨ !c.zero 7 then s.badParam c
  else if !(s.hbm.sets.any fun x => x.n == n) ∧ !s.regionOk n c.region then s.badParam c
  else
    s.accepted c fun i t =>
      (t.updHbm fun h => { h with sets := h.sets ++ [{ n := n, hnd := i, ent := c.region, live := false }] }).rgnSettle n 3

/-- REGION_SET (R155, R156). -/
def execRegionSet (q : Nat) (d : Desc) (s : State) : Res := qcpRow 0x0100 q d s runRegionSet

/-- The controller cycle that the time since reset gives, at 1.25 GHz. -/
def State.hbmCycle (s : State) : Nat := s.now * 1250

def runMemConfig (c : Cmd) (s : State) : State :=
  let g := c.f 2 3 0
  let rg := c.bit 2 8
  let sc := c.bit 2 9
  let hours := c.f 5 7 0
  if !c.only 2 0x30F ∨ !c.zero 6 ∨ !c.only 4 1 ∨ !c.only 5 0xFF ∨ (rg && c.f 3 15 0 == 0) ∨ (sc && decide (hours > 168)) then s.badParam c
  else
    let s := if rg then
        (s.regFill g s.hbmCycle).updGrp g fun k =>
          { k with rate := c.f 3 31 16, depth := c.f 3 15 0, borrow := c.bit 4 0, level := min k.level (c.f 3 15 0 * 1024 * 5) }
      else s
    (if sc then s.updHbm fun h => { h with scrubH := if hours = 0 then 24 else hours } else s).ok c

/-- MEM_CONFIG (R164, R168). -/
def execMemConfig (q : Nat) (d : Desc) (s : State) : Res := qcpRow 0x0101 q d s runMemConfig

def runApertureSet (c : Cmd) (s : State) : State :=
  if !c.zero 4 ∨ !c.addrOk 2 ∨ c.dw 2 % 2 ^ s.host.b4log2 ≠ 0 then s.badParam c
  else (s.updHost fun h => { h with b4base := c.dw 2 }).ok c

/-- APERTURE_SET (R331) [28]. -/
def execApertureSet (q : Nat) (d : Desc) (s : State) : Res := qcpRow 0x0102 q d s runApertureSet

/-! ## Copies (0x0110 to 0x0113) -/

/-- Group 3 or 7 to 15 (Table 12-7), the other words 0. -/
def Cmd.dmaOk (c : Cmd) : Bool := c.only 8 0xF && (c.f 8 3 0 == 3 || decide (c.f 8 3 0 ≥ 7)) && c.zero 9

/-- A device memory range of `n` bytes from the address of words `i`, `i + 1`. -/
def Cmd.rangeOk (c : Cmd) (i : Nat) : Bool := decide (c.dw i + c.dw 6 ≤ 2 ^ 40)

/-- The parts of a range, one per unit: address and length. -/
def spans (a n : Nat) : List (Nat × Nat) :=
  (unitsOf a n).map fun u => (max a u, min (a + n) (u + 32) - max a u)

/-- Reads a range part by part and hands each part's bytes, with their offset, to `put`, which answers the first address it could not
write; stops at the first failing address. What was moved before stays moved. -/
def State.moveParts (s : State) (g a n : Nat) (put : State → Nat → List Byte → State × Option Nat) : State × Option Nat :=
  (spans a n).foldl (fun (acc : State × Option Nat) p =>
    if acc.2.isSome then acc
    else
      let r := acc.1.memReadG g .host 0 p.1 p.2
      match r.2.2.2 with
      | some f => ((put r.1 (p.1 - a) (r.2.1.take (f - p.1))).1, some f)
      | none => put r.1 (p.1 - a) r.2.1) (s, none)

/-- Writes bytes from `a`, part by part. -/
def State.putParts (s : State) (g a : Nat) (bs : List Byte) : State × Option Nat :=
  (spans a bs.length).foldl (fun (acc : State × Option Nat) p =>
    if acc.2.isSome then acc else acc.1.memWriteG g .host 0 p.1 ((bs.drop (p.1 - a)).take p.2) []) (s, none)

/-- A host command that writes a region of the job (R317), which a replay closes (R322). -/
def State.intoJob (s : State) (c : Cmd) : Bool := s.train.launched && s.meetsJob (c.dw 4) (c.dw 6)

/-- The end of a copy: MEM_ERROR with the first failing address, or DONE; a write to the job is an input (R319). -/
def State.endCopy (s : State) (i : Nat) (c : Cmd) (input : Option (List Byte)) (bad : Option Nat) : State :=
  match bad with
  | some a => s.endMemError i a
  | none =>
    let s := match input with
      | some b => if s.intoJob c ∧ !b.isEmpty then s.addInput 2 (c.n 1) 0 (c.dw 4) b else s
      | none => s
    s.doneLong i

def runDmaH2d (c : Cmd) (s : State) : State :=
  if !c.dmaOk ∨ !c.rangeOk 4 then s.badParam c
  else if s.det.replay ∧ s.intoJob c then s.badState c
  else
    s.accepted c fun i t =>
      if c.dw 6 = 0 then t.doneLong i
      else
        (t.updHost fun h => { h with
          reads := h.reads ++ [{ tag := h.nextTag, use := 1, q := i, addr := c.dw 2, len := c.dw 6, dst := c.dw 4 }]
          nextTag := h.nextTag + 1 }).emit (.hostRead t.host.nextTag (c.dw 2) (c.dw 6))

/-- DMA_H2D: host memory is read; HOST_READ_COMPLETION brings the bytes. -/
def execDmaH2d (q : Nat) (d : Desc) (s : State) : Res := qcpRow 0x0110 q d s runDmaH2d

def runDmaD2h (c : Cmd) (s : State) : State :=
  if !c.dmaOk ∨ !c.rangeOk 2 then s.badParam c
  else
    s.accepted c fun i t =>
      let r := t.moveParts (c.f 8 3 0) (c.dw 2) (c.dw 6) fun a o b => (if b.isEmpty then a else a.emit (.hostWrite (c.dw 4 + o) b), none)
      r.1.endCopy i c none r.2

/-- DMA_D2H: device memory to host memory. -/
def execDmaD2h (q : Nat) (d : Desc) (s : State) : Res := qcpRow 0x0111 q d s runDmaD2h

/-- Bytes of a copy whose source the copy itself overwrites are free values: the spec states no order for ranges that meet [29]. -/
def freeOverlap (src dst n base o : Nat) (bs : List Byte) : List Byte :=
  bs.zipIdx.map fun b =>
    let a := src + o + b.2
    if src ≠ dst ∧ dst ≤ a ∧ a < dst + n then (Config.freeWord (base + o + b.2)).setWidth 8 else b.1

def runDmaD2d (c : Cmd) (s : State) : State :=
  if !c.dmaOk ∨ !c.rangeOk 2 ∨ !c.rangeOk 4 then s.badParam c
  else if s.det.replay ∧ s.intoJob c then s.badState c
  else
    s.accepted c fun i t =>
      let r := t.moveParts (c.f 8 3 0) (c.dw 2) (c.dw 6) fun a o b =>
        a.putParts (c.f 8 3 0) (c.dw 4 + o) (freeOverlap (c.dw 2) (c.dw 4) (c.dw 6) t.free o b)
      let t := if meets (c.dw 2) (c.dw 6) (c.dw 4) (c.dw 6) then { r.1 with free := r.1.free + c.dw 6 } else r.1
      let x := t.memRead .hub 0 (c.dw 4) (if t.intoJob c ∧ r.2.isNone then c.dw 6 else 0)
      t.endCopy i c (some x.2.1) r.2

/-- DMA_D2D: within device memory. -/
def execDmaD2d (q : Nat) (d : Desc) (s : State) : Res := qcpRow 0x0112 q d s runDmaD2d

/-- `n` bytes of the 8-byte pattern of words 2 and 3 [30]. -/
def Cmd.pattern (c : Cmd) (n : Nat) : List Byte :=
  let p := natLe (c.dw 2) 8
  (List.range n).map fun i => p.getD (i % 8) 0#8

def runMemFill (c : Cmd) (s : State) : State :=
  if !c.dmaOk ∨ !c.rangeOk 4 then s.badParam c
  else if s.det.replay ∧ s.intoJob c then s.badState c
  else
    s.accepted c fun i t =>
      let b := c.pattern (c.dw 6)
      let r := t.putParts (c.f 8 3 0) (c.dw 4) b
      r.1.endCopy i c (some b) r.2

/-- MEM_FILL. -/
def execMemFill (q : Nat) (d : Desc) (s : State) : Res := qcpRow 0x0113 q d s runMemFill

/-! ## Memory windows (R181, R351) -/

/-- A window entry of Table 12-14, or nothing where it is refused. -/
def parseWindow (b : List Byte) : Option (Nat × Window) :=
  let f := fieldLe b
  let remote := nbit (f 2 1) 0
  if f 0 2 ≥ 1024 ∨ f 2 1 ≥ 4 ∨ f 3 1 ≠ 0 ∨ f 4 2 ≥ 4096 ∨ f 6 2 ≠ 0 ∨ f 28 4 ≠ 0 then none
  else if remote ∧ (f 8 8 ≠ 0 ∨ f 16 8 ≠ 0 ∨ f 24 2 ≥ 24576 ∨ f 26 2 ≥ 1024) then none
  else if !remote ∧ (f 8 8 ≥ 2 ^ 40 ∨ f 16 8 % 256 ≠ 0 ∨ f 16 8 = 0 ∨ f 16 8 > 2 ^ 40 ∨ f 24 4 ≠ 0) then none
  else some (f 0 2, { remote := remote, wrprot := nbit (f 2 1) 1, part := f 4 2, base := f 8 8, size := f 16 8, rnode := f 24 2, rwin := f 26 2 })

/-- A WRITE into window `n` of the current set has begun. -/
def State.windowBusy (s : State) (n : Nat) : Bool :=
  s.fab.inMsgs.any fun m => m.cell.typ == 2 && m.cell.qtag == n && m.cell.epoch == s.fab.curEp && decide (m.done > 0)

/-- The window that WINDOW_SET or WINDOW_CLEAR names. -/
def Cmd.windowNo (c : Cmd) : Nat := c.f 2 9 0

/-- A window command waits for requests being served under the old entry (R351). -/
def State.windowWaits (s : State) (c : Cmd) : Bool := (c.opc == 0x0120 || c.opc == 0x0121) && (s.refusal c).isNone && s.windowBusy c.windowNo

def runWindowSet (c : Cmd) (s : State) : State :=
  match parseWindow (wordsBytes ((from_ 2 8).map c.w)) with
  | none => s.badParam c
  | some x =>
    if !c.zero 10 then s.badParam c
    else (s.updFab fun f => { f with cur := { f.cur with wins := tput f.cur.wins x.1 x.2 } }).ok c

/-- WINDOW_SET. -/
def execWindowSet (q : Nat) (d : Desc) (s : State) : Res :=
  if s.windowWaits { q := q, d := d, hd := 0 } then unit q 8192 (.next s) else qcpRow 0x0120 q d s runWindowSet

def runWindowClear (c : Cmd) (s : State) : State :=
  if !c.only 2 0x3FF ∨ !c.zero 3 then s.badParam c
  else (s.updFab fun f => { f with cur := { f.cur with wins := tdel f.cur.wins c.windowNo } }).ok c

/-- WINDOW_CLEAR. -/
def execWindowClear (q : Nat) (d : Desc) (s : State) : Res :=
  if s.windowWaits { q := q, d := d, hd := 0 } then unit q 8192 (.next s) else qcpRow 0x0121 q d s runWindowClear

/-! ## PROG_LOAD (R95, R325) -/

/-- The bundles of an image, placed from index `i`. -/
def bundlesOf (i : Nat) (b : List Byte) : List (Nat × BitVec 256) :=
  (List.range (b.length / 32)).map fun k => (i + k, BitVec.ofNat 256 (leNat ((b.drop (32 * k)).take 32)))

/-- One core takes an image. -/
def Cor.load (k : Cor) (i entry : Nat) (b : List Byte) : Cor :=
  { k with imem := tputAll k.imem (bundlesOf i b), extent := max k.extent (i + b.length / 32), entry := entry }

/-- A new program: no core holds an image. -/
def State.newProgram (s : State) : State :=
  { s.updDet (fun d => { d with prog := [] }) with cores := s.cores.map fun c => (c.1, { c.2 with imem := [], extent := 0, entry := 0 }) }

def runProgLoad (c : Cmd) (s : State) : State :=
  let i := c.f 5 10 0
  let c0 := c.f 6 8 0
  let n := c.f 6 25 16
  let good := c.only 5 0x07FF07FF && c.only 6 0x03FF01FF && c.only 7 1 && c.zero 8 && c.n 4 % 32 == 0
    && decide (32 * i + c.n 4 ≤ 65536 ∧ 1 ≤ n ∧ c0 + n ≤ 512)
  s.structure_ c good fun s b =>
    s.accepted c fun h t =>
      let t := if c.bit 7 0 then t else t.newProgram
      let t := (from_ c0 n).foldl (fun (a : State) k => a.updCore k fun x => x.load i (c.f 5 26 16) b) t
      (t.updDet fun d => { d with prog := d.prog ++ b }).doneLong h

/-- PROG_LOAD: an image in the instruction stores of a run of cores. -/
def execProgLoad (q : Nat) (d : Desc) (s : State) : Res := qcpRow 0x0200 q d s runProgLoad

end Sys2Proof.Machine
end

