-- ==== Sys2Proof/Machine/QcpJob.lean ====
section
/-! DEFINITION. The job commands of group 0x02 and L2P_SET (01 R22, 04 R95, R114, R121, 07 R206, R207, 10 R288, R448, 12 R348 to R350). -/

namespace Sys2Proof.Machine

/-! ## JOB_ATTACH and JOB_CONFIG -/

def runJobAttach (c : Cmd) (s : State) : State :=
  if !c.only 2 0xFFF ∨ c.f 2 11 0 = 0 ∨ !c.only 3 0x7FFF ∨ c.f 3 14 0 ≥ 24576 ∨ !c.zero 4 then s.badParam c
  else if s.train.js ≠ .idle then s.badState c
  else
    let s := s.updTrain fun t => { Train.init with sid := s.sidOf c, aborts := t.aborts, pend := t.pend, replHnd := t.replHnd, repl := t.repl }
    let s := s.updFab fun f => { f with part := c.f 2 11 0, lnode := c.f 3 14 0 }
    ((s.updHost fun h => { h with job := none }).setJob .loaded 0).ok c

/-- JOB_ATTACH (R206, R207): the device's partition and logical node. -/
def execJobAttach (q : Nat) (d : Desc) (s : State) : Res := qcpRow 0x0210 q d s runJobAttach

/-- A storage target (Table 12-16), or nothing where a reserved bit is set. -/
def parseTarget (b : List Byte) : Option Target :=
  let f := fieldLe b
  if f 19 1 ≥ 2 then none
  else some { gid := f 0 16, dqpn := f 16 3, port := f 19 1, rkey := f 20 4, rbase := f 24 8 }

/-- A value of 0 stands for the default. -/
def orDef (v d : Nat) : Nat := if v = 0 then d else v

/-- The job configuration block (Table 12-13), or nothing where a field is out of range. -/
def parseJob (b : List Byte) : Option JobCfg :=
  let f := fieldLe b
  let targets := (List.range (f 3 1)).filterMap fun k => parseTarget (b.drop (256 + 32 * k))
  let bad := f 0 1 ≥ 3 ∨ f 1 1 ≥ 64 ∨ f 1 1 % 4 = 3 ∨ f 2 1 ≥ 16 ∨ (f 2 1 ≠ 0 ∧ f 2 1 < 7) ∨ f 3 1 > 16 ∨ b.length ≠ 256 + 32 * f 3 1
    ∨ (f 4 2 > 1000 ∧ f 4 2 ≠ 0xFFFF) ∨ f 6 2 + f 8 2 > 4032 ∨ f 10 2 ≥ 8192
  let bad2 := (f 28 2 ≠ 0 ∧ (f 28 2 < 50 ∨ f 28 2 > 1000)) ∨ (f 30 2 ≠ 0 ∧ (f 30 2 < 10 ∨ f 30 2 > 10000)) ∨ f 32 2 > 10000 ∨ f 34 2 > 1000
    ∨ f 36 2 > 1000 ∨ f 38 2 > 1000 ∨ f 40 2 > 10000 ∨ sval (f 46 1) 8 > 64 ∨ sval (f 46 1) 8 < -64 ∨ f 47 1 ≥ 64 ∨ f 48 1 ≥ 16
    ∨ !zeroBytes b 49 207 ∨ targets.length ≠ f 3 1 ∨ (nbit (f 1 1) 2 ∧ f 48 1 ≥ f 3 1)
  if bad ∨ bad2 then none
  else some
    { detmode := f 0 1, rec_ := f 1 1 % 4, exportOn := nbit (f 1 1) 2, dlb := nbit (f 1 1) 3, group := b2n (nbit (f 1 1) 4)
      stepOnly := nbit (f 1 1) 5, coreRg := f 2 1, age := if f 4 2 = 0xFFFF then 2 else f 4 2, ctrBase := f 6 2, ctrN := f 8 2
      seqCeq := f 10 2, waitLimit := f 12 4, seed := BitVec.ofNat 64 (f 16 8), testInt := orDef (f 24 4) 600, hbmSlice := orDef (f 28 2) 50
      nrqWait := orDef (f 30 2) 1000, collTmo := orDef (f 32 2) 100, voteTmo := orDef (f 34 2) 50, outGrace := orDef (f 36 2) 10
      mirrorWait := orDef (f 38 2) 20, waitTmo := orDef (f 40 2) 100, retryMax := f 42 1, ovfMax := orDef (f 43 1) 16
      nRaise := orDef (f 44 2) 2000, eInit := sval (f 46 1) 8, ovfMask := BitVec.ofNat 8 (f 47 1), expTgt := f 48 1, targets := targets }

/-- What a HELD job may not change (R350). -/
def JobCfg.fixed (a b : JobCfg) : Bool :=
  a.detmode == b.detmode && a.rec_ == b.rec_ && a.seed == b.seed && a.ctrBase == b.ctrBase && a.ctrN == b.ctrN

/-- The status that refuses a CEQ named by a job's command. -/
def State.ceqBad (s : State) (c : Cmd) (q : Nat) : Option Nat :=
  if q = 0x1FFF ∨ q = 8191 then some 0x107
  else if (s.que q).typ ≠ 2 then some 0x103
  else if q ≠ 1 ∧ (s.que q).sid ≠ s.sidOf c then some 0x107
  else none

/-- The configuration takes effect: WAIT_LIMIT of every core and the slice interval with it. -/
def State.install (s : State) (j : JobCfg) : State :=
  let s := (s.updHost fun h => { h with job := some j }).updHbm fun h => { h with sliceMs := j.hbmSlice }
  allCores.foldl (fun a k => a.updCore k fun x => { x with waitLimit := BitVec.ofNat 32 j.waitLimit }) s

def runJobConfig (c : Cmd) (s : State) : State :=
  if !s.ownsJob c then s.deny c 0x107
  else if s.train.js ≠ .loaded ∧ s.train.js ≠ .held then s.badState c
  else
    s.structure_ c (c.zero 5 && decide (256 ≤ c.n 4 ∧ c.n 4 ≤ 768)) fun s b =>
      match parseJob b with
      | none => s.badParam c
      | some j =>
        match s.ceqBad c j.seqCeq with
        | some st => s.deny c st
        | none =>
          if s.train.js = .held ∧ !((s.host.job.map fun o => o.fixed j).getD false) then s.badState c
          else (s.install j).ok c

/-- JOB_CONFIG (R350). -/
def execJobConfig (q : Nat) (d : Desc) (s : State) : Res := qcpRow 0x0211 q d s runJobConfig

/-! ## JOB_LAUNCH, JOB_DETACH, CORE_RELAUNCH -/

/-- The sequencer at a launch: STEP and VSEQ as given, E at E_INIT, a gather due (R288, R291, R296). -/
def Train.launch (t : Train) (n : Nat) (step : W64) (vseq : W32) (e : Int) (train : Bool) : Train :=
  { t with launched := true, train := train, n := n, step := step, vseq := vseq, fresh := true, e := e, gather := true, atRest := true
           slot := 0, clean := 0, retry := 0, ovfrun := 0, hrun := 0, ws := .none_, errSince := false, sealed_ := false, out := none, wantHold := false
           wantRun := false, due := 0 }

def runJobLaunch (c : Cmd) (s : State) : State :=
  if !s.ownsJob c then s.deny c 0x107
  else if !c.only 5 0x17FFF ∨ c.f 5 14 0 = 0 ∨ c.f 5 14 0 > 24576 ∨ !c.zero 6 then s.badParam c
  else if s.train.js ≠ .loaded ∨ s.host.job.isNone ∨ (c.bit 5 16 ∧ s.train.tab.isNone) then s.badState c
  else
    let s := s.updTrain fun t => t.launch (c.f 5 14 0) (Desc.dword c.d 2) (c.w 4) s.jc.eInit (c.bit 5 16)
    ((s.launchAll).setJob .run 0).ok c

/-- JOB_LAUNCH (R95, R288, R448). -/
def execJobLaunch (q : Nat) (d : Desc) (s : State) : Res := qcpRow 0x0212 q d s runJobLaunch

def runJobDetach (c : Cmd) (s : State) : State :=
  if !c.zero 2 then s.badParam c
  else if s.train.js = .idle then s.badState c
  else if !s.ownsJob c then s.deny c 0x107
  else s.startReset c

/-- JOB_DETACH: the job's queues are reset, then the job leaves the device. -/
def execJobDetach (q : Nat) (d : Desc) (s : State) : Res := qcpRow 0x0213 q d s runJobDetach

def runCoreRelaunch (c : Cmd) (s : State) : State :=
  if !s.ownsJob c then s.deny c 0x107
  else if !c.zero 2 then s.badParam c
  else if !s.train.launched then s.badState c
  else (allCores.foldl (fun (a : State) k => if (a.core k).st = .stopped then a.launchCore k else a) s).ok c

/-- CORE_RELAUNCH (R121): every STOPPED core starts again; a retired one does not (R95). It takes no parameter words [35]. -/
def execCoreRelaunch (q : Nat) (d : Desc) (s : State) : Res := qcpRow 0x0214 q d s runCoreRelaunch

/-! ## WORK_POST -/

def runWorkPost (c : Cmd) (s : State) : State :=
  let n := c.f 5 12 0
  s.structure_ c (c.n 4 == 64 && c.only 5 0x1FFF && c.zero 6 && (s.que n).typ == 3) fun s b =>
    let ws := bytesWords b
    if (s.que n).sid ≠ s.sidOf c then s.deny c 0x107
    else
      match entryCheck (Desc.word ws 0) with
      | some st => s.deny c st
      | none =>
        if (s.que n).st ≠ 1 ∨ (s.que n).dbc then s.badState c
        else
          match s.postEntry n ws with
          | some t => t.ok c
          | none => s.deny c 0x105

/-- WORK_POST (R114): one entry, checked before it reaches the queue [36]. -/
def execWorkPost (q : Nat) (d : Desc) (s : State) : Res := qcpRow 0x0220 q d s runWorkPost

/-! ## L2P_SET -/

/-- The entries in use of a LOG2PHYS table. -/
def l2pOf : Nat → List Byte → Tab Nat
  | i, a :: b :: r => if a = 0xFF#8 ∧ b = 0xFF#8 then l2pOf (i + 1) r else (i, a.toNat + 256 * b.toNat) :: l2pOf (i + 1) r
  | _, _ => []

def runL2pSet (c : Cmd) (s : State) : State :=
  if !s.ownsJob c then s.deny c 0x107
  else if s.train.js ≠ .idle ∧ s.train.js ≠ .loaded then s.badState c
  else s.structure_ c (c.n 4 == 49152 && c.zero 5) fun s b => (s.updFab fun f => { f with l2p := l2pOf 0 b }).ok c

/-- L2P_SET (R22): the whole table, before launch. -/
def execL2pSet (q : Nat) (d : Desc) (s : State) : Res := qcpRow 0x0300 q d s runL2pSet

end Sys2Proof.Machine
end

