-- ==== Sys2Proof/Machine/QcpFab.lean ====
section
/-! DEFINITION. Groups 0x03 and 0x04: table sets, fences, pass sets, readmission, tree plans and weights (07 R191, R197, R200, R204,
R208, 08 R218, R228, R229, R237, R243, 09 R254 to R256, 12 R351, R352, 14 R404). -/

namespace Sys2Proof.Machine

/-! ## FAB_TABLES -/

/-- Entries whose keys are distinct. -/
def distinct {α : Type} (l : List (Nat × α)) : Bool := decide ((l.map (·.1)).Nodup)

/-- The table set structure (Table 12-15), or nothing where a reserved bit is set or a count or field is out of range. -/
def parseTables (cur : TabSet) (b : List Byte) : Option TabSet :=
  let f := fieldLe b
  let nl := f 7 1
  let nw := f 8 2
  let copies := nw == 0xFFFF
  let n := if copies then 0 else nw
  let links := (List.range nl).map fun i =>
    let g := fieldLe (b.drop (256 + 16 * i))
    (g 0 1, ({ port := g 1 1, peer := g 2 2, part := g 4 2 } : LinkEnt))
  let linkBad := (List.range nl).any fun i =>
    let g := fieldLe (b.drop (256 + 16 * i))
    decide (g 0 1 > 95 ∨ g 1 1 > 5 ∨ g 4 2 ≥ 4096 ∨ g 6 10 ≠ 0)
  let wins := (List.range n).filterMap fun i => parseWindow ((b.drop (256 + 16 * nl + 32 * i)).take 32)
  let dir := (List.range 96).map fun i => (i, BitVec.ofNat 16 (f (16 + 2 * i) 2))
  if f 3 1 ≠ 0 ∨ !zeroBytes b 10 6 ∨ !zeroBytes b 208 48 ∨ nl > 96 ∨ n > 1024 ∨ b.length ≠ 256 + 16 * nl + 32 * n ∨ linkBad
      ∨ !distinct links ∨ wins.length ≠ n ∨ !distinct wins then none
  else some { org := [f 0 1, f 1 1, f 2 1], len := [f 4 1, f 5 1, f 6 1], links := tputAll [] links,
              dir := dir.filter fun e => e.2 != 0#16, wins := if copies then cur.wins else tputAll [] wins }

/-- Ring geometry in range, and this device inside it (R197). `own` is the position it takes. -/
def TabSet.ringsOk (t : TabSet) (own : Nat) : Bool :=
  (List.range 3).all fun a =>
    decide (1 ≤ t.len.getD a 0 ∧ t.len.getD a 0 ≤ ringSize a ∧ t.org.getD a 0 < ringSize a ∧ t.pos own a < t.len.getD a 0)

/-- The peer sits `adv` positions away in direction `dir` of axis `a`, on the same position of the others. -/
def TabSet.peerOk (t : TabSet) (own peer a dir adv : Nat) : Bool :=
  let n := t.len.getD a 1
  t.pos peer a == (t.pos own a + (if dir = 0 then adv else n - adv % n)) % n
    && (List.range 3).all fun b => b == a || t.pos peer b == t.pos own b

/-- The rules of R200 on one VALID entry at axis `a`, direction `dir`, distance `d`. -/
def State.dirOk (s : State) (t : TabSet) (own a dir d : Nat) (lid adv : Nat) : Bool :=
  match t.links.find? fun e => e.1 == lid with
  | none => false
  | some e =>
    decide (1 ≤ adv ∧ adv ≤ d ∧ adv ≤ 16) && e.2.part == s.fab.part &&
      (match s.placeOf e.2.peer with
        | none => false
        | some p => t.peerOk own p a dir adv)

/-- DIRTAB under R200: reserved bits 0, every distance that the ring produces VALID, every VALID entry right, no LID under two axes
or directions. -/
def State.dirtabOk (s : State) (t : TabSet) (own : Nat) : Bool :=
  let keys := (List.range 96).map fun i => (i / 32, i / 16 % 2, i % 16 + 1)
  let lids := keys.filterMap fun k => (t.dirEnt k.1 k.2.1 k.2.2).map fun e => (2 * k.1 + k.2.1, e.1)
  t.dir.all (fun e => e.2 &&& 0x0380#16 == 0#16) &&
  keys.all (fun k =>
    match t.dirEnt k.1 k.2.1 k.2.2 with
    | some e => s.dirOk t own k.1 k.2.1 k.2.2 e.1 e.2
    | none => decide (k.2.2 > t.len.getD k.1 0 / 2)) &&
  lids.all fun x => lids.all fun y => x.2 != y.2 || x.1 == y.1

/-- The set passes R197, R200 and R351. -/
def State.tablesOk (s : State) (t : TabSet) : Bool :=
  match s.placeOf s.fab.phys with
  | none => false
  | some own => t.ringsOk own && s.dirtabOk t own

/-- The barrier that FAB_TABLES starts on a tree pair (R204); its CID is the sequencer's [38]. -/
def barEntry (vseq tp : Nat) : Desc :=
  [0x442#32, 0#32, 0#32, 0#32, BitVec.ofNat 32 ((0xF000 + vseq % 4095) * 65536), BitVec.ofNat 32 (tp % 4 * 2 ^ 20), 0#32, 0#32, 0#32,
   0#32, 0#32, 0#32, 0#32, 0#32, 0#32, 0#32]

/-- No attempt is under way. -/
def State.outsideStep (s : State) : Bool := !s.attempts || (s.between && s.train.phase == 0)

/-- A watershed is being voted on or has no outcome: commands that name one come later. -/
def State.votingNow (s : State) : Bool := s.train.ws == .voting || s.train.ws == .unresolved

def runFabTables (c : Cmd) (s : State) : State :=
  let sw := c.bit 5 0
  let tp := c.f 5 5 4
  if !s.ownsJob c then s.deny c 0x107
  else
    s.structure_ c (c.only 5 0x31 && (sw || tp == 0) && (!sw || c.n 6 == 0) && c.zero 7 && decide (256 ≤ c.n 4 ∧ c.n 4 ≤ 34560)) fun s b =>
      match parseTables s.fab.cur b with
      | none => s.badParam c
      | some t =>
        if !s.tablesOk t then s.badParam c
        else if s.fab.old.isSome ∨ s.fab.shadow.isSome ∨ s.votingNow then s.deny c 0x106
        else if sw ∧ !s.outsideStep then s.badState c
        else
          s.accepted c fun i a =>
            let e := (a.fab.curEp + 1) % 4
            let a := a.updFab fun f => { f with
              shadow := some t, shadowEp := e, shadowSw := sw, shadowAt := if sw then tp else c.n 6, shadowHnd := i
              inj := tput f.inj e 0, dlv := tput f.dlv e 0, lids := f.lids.map fun k => (k.1, { k.2 with acc := tput k.2.acc e 0, txa := tput k.2.txa e 0 }) }
            if sw then a.updTrain fun x => { x with votes := x.votes ++ [barEntry x.vseq.toNat tp] } else a

/-- FAB_TABLES (R204, R352): a shadow set with its switch point. -/
def execFabTables (q : Nat) (d : Desc) (s : State) : Res := qcpRow 0x0301 q d s runFabTables

/-! ## Fences (R208, R404) [37] -/

/-- The LIDs that FAB_FENCE or FAB_UNFENCE names: one LID, or with SEL those of a partition. -/
def State.fenceLids (s : State) (c : Cmd) : List Nat :=
  if c.bit 2 8 then (s.fab.cur.links.filter fun e => e.2.part == c.f 3 11 0).map (·.1) else [c.f 2 6 0]

def Cmd.fenceOk (c : Cmd) (mask : Nat) : Bool :=
  c.only 2 mask && c.zero 4 && (if c.bit 2 8 then c.f 2 6 0 == 0 && c.only 3 0xFFF else decide (c.f 2 6 0 < 96) && c.n 3 == 0)

def runFabFence (c : Cmd) (s : State) : State :=
  if !c.fenceOk 0x37F then s.badParam c
  else
    s.accepted c fun i a =>
      let ls := a.fenceLids c
      let a := if c.bit 2 8 then a.updFab fun f => { f with fenced := setIns f.fenced (c.f 3 11 0) } else a
      if ls.isEmpty then a.doneLong i
      else
        let a := ls.foldl (fun (x : State) l => x.updLid l fun k => { k with fenceHnd := some i }) a
        ls.foldl (fun (x : State) l => if c.bit 2 9 then x.hardFence l else x.softFence l true) a

/-- FAB_FENCE: one LID or every LID of a partition, soft or hard. -/
def execFabFence (q : Nat) (d : Desc) (s : State) : Res := qcpRow 0x0302 q d s runFabFence

def runFabUnfence (c : Cmd) (s : State) : State :=
  let ls := s.fenceLids c
  if !c.fenceOk 0x17F then s.badParam c
  else if !c.bit 2 8 ∧ ls.any (fun l => (s.lid l).st != .fenced) then s.badState c
  else
    s.accepted c fun i a =>
      let a := if c.bit 2 8 then a.updFab fun f => { f with fenced := setDel f.fenced (c.f 3 11 0) } else a
      (ls.foldl (fun (x : State) l => if (x.lid l).st = .fenced then x.readmitLid l else x) a).doneLong i

/-- FAB_UNFENCE (R404): a fenced LID returns to DOWN, and its readmission starts (R243). -/
def execFabUnfence (q : Nat) (d : Desc) (s : State) : Res := qcpRow 0x0303 q d s runFabUnfence

/-! ## Pass sets (R228, R229) -/

/-- The 102 entries of each set of the mask, in ascending order: key 102 * set + 17 * port + line. -/
def passEntries (sets : List Nat) (b : List Byte) : Tab W32 :=
  sets.zipIdx.flatMap fun n => (List.range 102).map fun x => (102 * n.1 + x, bytesWord ((b.drop (512 * n.2 + 4 * x)).take 4))

/-- An entry of Table 8-7, reserved bits 0, the spare on line 16 and nowhere else. -/
def passEntOk (line : Nat) (e : W32) : Bool :=
  let m := (entIn e, entOut e)
  bitsOf e 26 23 == 0 &&
    (if line = 16 then m == (0, 0) && entLid e == 126
     else (m == (0, 0) && decide (entLid e < 96)) || ([(1, 1), (1, 2), (2, 1), (2, 2)].contains m && entLid e == 127))

/-- Entry of set `n` as the command leaves it. -/
def State.newPass (s : State) (t : Tab W32) (sets : List Nat) (n x : Nat) : W32 :=
  if sets.contains n then tget 0#32 t (102 * n + x) else s.passEnt n (x / 17) (x % 17)

/-- THROUGH lines meet on both ports of an axis. -/
def throughOk (e : Nat → W32) : Bool :=
  (List.range 102).all fun x => (entIn (e x) == 1) == (entOut (e (17 * pairPort (x / 17) + x % 17)) == 1)

/-- Entries of a LID lie on one port with one PEER, and agree with the link table. -/
def State.lidsOk (s : State) (e : Nat → W32) : Bool :=
  (List.range 102).all fun x => entLid (e x) > 95 ||
    ((List.range 102).all fun y => entLid (e y) != entLid (e x) || (y / 17 == x / 17 && entPeer (e y) == entPeer (e x))) &&
    (match s.fab.cur.links.find? fun k => k.1 == entLid (e x) with
      | some k => k.2.port == x / 17
      | none => true)

/-- LIDs that a VALID DIRTAB entry of a held set names. -/
def State.routedLids (s : State) : List Nat :=
  ([some s.fab.cur, s.fab.old, s.fab.shadow].filterMap id).flatMap fun t =>
    t.dir.filterMap fun e => if e.2.getLsbD 15 then some (e.2.toNat % 128) else none

/-- The conditions of R228 on the sets written. -/
def State.passOk (s : State) (t : Tab W32) (sets : List Nat) : Bool :=
  let valid := (List.range 8).filter fun n => s.light.valid.getLsbD n || sets.contains n
  let new := s.newPass t sets
  sets.all fun n =>
    (List.range 102).all (fun x => passEntOk (x % 17) (new n x)) && throughOk (new n) && s.lidsOk (new n) &&
    (List.range 102).all (fun x => valid.all fun m => new m x == new n x || !((new n x).getLsbD 27 || (new m x).getLsbD 27)) &&
    (List.range 102).all (fun x => (new n x).getLsbD 27 || !(s.routedLids.contains (entLid (new n x))))

/-- One set is written: the active one to its shadow, another at once with its VER (R229); a whole set written at once leaves no shadow of it. -/
def State.writeSet (s : State) (t : Tab W32) (n : Nat) : State :=
  let es := (List.range 102).map fun x => (x, tget 0#32 t (102 * n + x))
  s.updLight fun b =>
    if n = b.actSet then { b with shadow := tput b.shadow n es }
    else { b with shadow := tdel b.shadow n, sets := tputAll b.sets (es.map fun (e : Nat × W32) => (102 * n + e.1, e.2)), ver := tupd 0 b.ver n fun v => (v + 1) % 8
                  valid := b.valid ||| BitVec.ofNat 8 (2 ^ n) }

def runPassPlan (c : Cmd) (s : State) : State :=
  let sets := (List.range 8).filter fun n => c.bit 5 n
  s.structure_ c (c.only 5 0xFF && !sets.isEmpty && c.zero 6 && c.n 4 == 512 * sets.length) fun s b =>
    let t := passEntries sets b
    if !((List.range sets.length).all fun i => zeroBytes b (512 * i + 408) 104) ∨ !s.passOk t sets then s.badParam c
    else if s.light.swPend ∧ sets.contains s.light.pendSet then s.deny c 0x106
    else (sets.foldl (fun (a : State) n => a.writeSet t n) s).ok c

/-- PASS_PLAN (R228, R229). -/
def execPassPlan (q : Nat) (d : Desc) (s : State) : Res := qcpRow 0x0310 q d s runPassPlan

def runPassConfig (c : Cmd) (s : State) : State :=
  let sel := c.bit 2 0
  let i := c.f 2 1 1
  if !c.only 2 7 ∨ !c.only 3 0xFFFF ∨ (c.bit 2 2 ∧ c.f 3 15 0 > 3600) ∨ !c.zero 4 then s.badParam c
  else if sel && (!s.outsideStep || (decide (s.train.js = .run) && !s.train.train) || (if i = 0 then s.light.aSt else s.light.bSt) != 1) then s.badState c
  else
    let s := if sel ∧ s.light.sel ≠ i then s.combSwitch i else s
    (if c.bit 2 2 then s.updLight fun b => { b with rotInt := c.f 3 15 0 } else s).ok c

/-- PASS_CONFIG (R218, R237): a comb input by name, the rotation interval. -/
def execPassConfig (q : Nat) (d : Desc) (s : State) : Res := qcpRow 0x0311 q d s runPassConfig

/-! ## PORT_READMIT (R243) [39] -/

def runPortReadmit (c : Cmd) (s : State) : State :=
  let p := c.f 2 2 0
  let x := s.port p
  if !c.only 2 7 ∨ p > 5 ∨ !c.zero 3 then s.badParam c
  else if x.st = .soak ∨ x.st = .apr ∨ x.st = .search ∨ x.hnd.isSome ∨ x.broken ∨ (s.light.aSt ≠ 1 ∧ s.light.bSt ≠ 1) then s.badState c
  else s.accepted c fun i a => (a.readmitPort p).updPort p fun y => { y with hnd := some i }

/-- PORT_READMIT: soak, PASS_EP, training. -/
def execPortReadmit (q : Nat) (d : Desc) (s : State) : Res := qcpRow 0x0312 q d s runPortReadmit

/-! ## TREE_PLAN (R254 to R256) -/

/-- The four words of a plan entry (Table 9-6), or nothing where a reserved bit is set. -/
def parseTree (b : List Byte) : Option TreeEnt :=
  let w := fun i => bytesWord ((b.drop (4 * i)).take 4)
  if bitsOf (w 1) 1 0 ≠ 0 ∨ bitsOf (w 2) 5 0 ≠ 0 ∨ bitsOf (w 3) 31 29 ≠ 0 then none
  else some
    { valid := (w 0).getLsbD 31, parent := bitsOf (w 0) 30 24, child0 := bitsOf (w 0) 23 17, child1 := bitsOf (w 0) 16 10
      pset := bitsOf (w 0) 9 7, depth := bitsOf (w 0) 6 0, rank := bitsOf (w 1) 31 17, size := bitsOf (w 1) 16 2, c0size := bitsOf (w 2) 31 17
      slots := bitsOf (w 2) 16 6, base := bitsOf (w 3) 28 0 }

/-- Devices of the job: N of the launch, before it the entries in use of LOG2PHYS (DEDUCED from R22). -/
def State.jobN (s : State) : Nat := if s.train.launched then s.train.n else s.fab.l2p.length

/-- The conditions of R255 on one tree. -/
def State.treeOk (s : State) (e : TreeEnt) : Bool :=
  let n := s.jobN
  e.valid && decide (e.lids.Nodup) && (e.has0 || !e.has1) &&
  e.lids.all (fun l =>
    match s.fab.cur.links.find? fun k => k.1 == l with
    | some k => k.2.part == s.fab.part && !(s.linesOf e.pset k.2.port l).isEmpty
    | none => false) &&
  ((e.c0size == 0) == !e.has0) && decide (e.c0size < e.size) && ((e.size == 1) == (!e.has0 && !e.has1)) && decide (e.rank + e.size ≤ n) &&
  (!e.root || (e.rank == 0 && e.size == n && e.depth == 0)) &&
  decide (16 ≤ e.slots ∧ e.slots ≤ 1024 ∧ e.base % 64 = 0 ∧ e.base + e.words_ ≤ 2 ^ 29)

/-- The trees of a pair are direction-split. -/
def splitOk (a b : TreeEnt) : Bool :=
  (a.root || b.root || a.parent != b.parent) && !([a.child0, a.child1].any fun l => l != 0x7F && (l == b.child0 || l == b.child1))

/-- Rings of different pairs do not overlap. -/
def ringsApart (plan : Tab TreeEnt) : Bool :=
  plan.all fun x => plan.all fun y => x.1 / 2 == y.1 / 2 || !x.2.valid || !y.2.valid || !meets x.2.base x.2.words_ y.2.base y.2.words_

/-- The new slots of the plan under census are posted to the peers of LIDs that are UP (R190, R249). -/
def State.postSlots (s : State) (was : State) : State :=
  (s.fab.lids.filter fun k => k.2.st == .up).foldl (fun (a : State) k =>
    [6, 7, 8, 9].foldl (fun (x : State) v =>
      let n := s.slotsFree k.1 v - was.slotsFree k.1 v
      if n = 0 then x else x.updLid k.1 fun y => { y with crdOut := tupd 0#32 y.crdOut v (· + BitVec.ofNat 32 n), due := true }) a) s

def runTreePlan (c : Cmd) (s : State) : State :=
  let ps := (List.range 4).filter fun n => c.bit 5 n
  if !s.ownsJob c then s.deny c 0x107
  else
    s.structure_ c (c.only 5 0xF && !ps.isEmpty && c.zero 6 && c.n 4 == 32 * ps.length) fun s b =>
      let es := ps.zipIdx.flatMap fun p => [0, 1].map fun t => (2 * p.1 + t, parseTree (b.drop (32 * p.2 + 16 * t)))
      let new := es.filterMap fun e => e.2.map fun x => (e.1, x)
      let plan := tputAll s.coll.plan new
      let at_ := fun x => tget TreeEnt.none plan x
      if new.length ≠ es.length ∨ !(new.all fun e => s.treeOk e.2) ∨ !(ps.all fun p => splitOk (at_ (2 * p)) (at_ (2 * p + 1))) ∨ !ringsApart plan then
        s.badParam c
      else if s.coll.newPlan.isSome ∨ s.coll.runs.any (fun r => ps.contains r.tp) ∨ s.votingNow then s.deny c 0x106
      else
        s.accepted c fun i a =>
          let t := a.updColl fun x => { x with newPlan := some (plan, i), census := [], censusDn := [] }
          (ps.flatMap fun p => [2 * p, 2 * p + 1]).foldl (fun (y : State) x => y.censusUp x) (t.postSlots a)

/-- TREE_PLAN: entries checked, written and put under census. -/
def execTreePlan (q : Nat) (d : Desc) (s : State) : Res := qcpRow 0x0400 q d s runTreePlan

/-- Weights set by command take effect at a step or phase boundary: at once outside an attempt (R191) [194]. -/
def State.askWeights (s : State) (mask : Nat) (w : W64) : State :=
  if s.outsideStep then s.setWeights mask w
  else s.updFab fun f => { f with vcwNext := tputAll f.vcwNext (((List.range 6).filter (nbit mask ·)).map (·, w)) }

def runVcWeights (c : Cmd) (s : State) : State :=
  if !c.only 2 0x3F ∨ !c.zero 5 then s.badParam c else (s.askWeights (c.f 2 5 0) (Desc.dword c.d 3)).ok c

/-- VC_WEIGHTS (R191) [40]. -/
def execVcWeights (q : Nat) (d : Desc) (s : State) : Res := qcpRow 0x0401 q d s runVcWeights

end Sys2Proof.Machine
end

