-- ==== Sys2Proof/Machine/ModOps.lean ====
section
/-! DEFINITION. What takes the device down and up: journals and the ledger (14 R405, R406, 15 R420 to R423), cores, fences and rails in
a shutdown (15 R429), device reset and power cycle (15 R416, R425), the fatal sequence (14 R399), the coolant stop (13 R377) and the
power failure (15 R419). -/

namespace Sys2Proof.Machine

/-! ## Ledger and journals -/

/-- Entries that the ledger's flash region holds before it is full [51]. -/
def ledgerRoom : Nat := 131072

/-- DAILY and RINGS entries may be replaced. -/
def Ledg.soft (e : Ledg) : Bool := e.typ == 10 || e.typ == 11

/-- An entry is written with the next sequence number; a full ledger gives up its oldest DAILY or RINGS entry, or the new entry is lost
(R406). -/
def State.writeEntry (s : State) (e : Ledg) : State :=
  let add (old : List Ledg) : State := s.updFlt fun f => { f with ledger := old ++ [{ e with seq := f.ledgSeq }], ledgSeq := f.ledgSeq + 1 }
  if s.flt.ledger.length < ledgerRoom then add s.flt.ledger
  else
    match s.flt.ledger.find? Ledg.soft with
    | some o => add (s.flt.ledger.erase o)
    | none =>
      let t := s.updFlt fun f => { f with ledgFull := true }
      if e.soft then t
      else t.report (rep 2 9 0 9 0x6B (e.typ % 256 + e.die % 256 * 256 + e.sub % 4 * 65536 + e.unit % 1024 * 2 ^ 18))

/-- Journal of a record KIND: 0 the ledger journal, 1 the capture journal (Table 15-5). -/
def journalOf (kind : Nat) : Nat := if kind = 1 then 0 else 1

/-- Pages written to a journal. -/
def Module.pages (m : Module) (j : Nat) : Nat := ((m.jrecs.filter fun r => journalOf r.kind == j).map fun r => r.n + 1).sum

/-- A journal record of `n` data pages is written (R422); a sector of 256 pages that it begins is no longer erased ahead. -/
def State.writeJrec (s : State) (kind n a b : Nat) : State :=
  s.updMod fun m =>
    let j := journalOf kind
    let used := (m.pages j + n + 1) / 256 - m.pages j / 256
    { m with jrecs := m.jrecs ++ [{ kind := kind, n := n, seq := m.jrecs.length, time := m.onSec + s.now / 1000000, a := a, b := b }]
             erased := m.erased.mapIdx fun i x => if i = j then x - used else x }

/-- Data pages of `k` ledger entries. -/
def ledgerPages (k : Nat) : Nat := (32 * k + 255) / 256

/-- A flush unit of ledger entries: at most 128 of them, 16 pages. -/
def State.writeLedgerUnit (s : State) : State :=
  let es := s.flt.ledgq.take 128
  let s := s.updFlt fun f => { f with ledgq := f.ledgq.drop 128 }
  es.foldl State.writeEntry (s.writeJrec 1 (ledgerPages es.length) 0 0)

/-- Every entry not yet written is written. -/
def State.flushLedger (s : State) : State :=
  (List.range ((s.flt.ledgq.length + 127) / 128)).foldl (fun (a : State) _ => a.writeLedgerUnit) s

/-- The lifetime counters are written (a COUNTERS record). -/
def State.flushCounters (s : State) : State :=
  (s.updFlt fun f => { f with lifeSv := (List.range 31).map fun i => (i, tget 0 f.lifeCe i, tget 0 f.lifeCont i) }).writeJrec 4 1 0 0

/-! ## Cores, fences, rails -/

/-- Every core that runs or tests stops where it stands. -/
def State.stopCores (s : State) : State :=
  { s with cores := s.cores.map fun (c : Nat × Cor) =>
      if c.2.st = .run ∨ c.2.st = .test then (c.1, { c.2 with st := .stopped, waiting := false, idleq := false, tpend := false, testing := false })
      else c }

/-- A fence of every LID (R208). -/
def State.fenceAll (s : State) (soft : Bool) : State :=
  (List.range 96).foldl (fun (a : State) l => if soft then a.softFence l true else a.hardFence l) s

/-- Every ring parks: the dark pass on every port (R246). -/
def State.parkAll (s : State) : State := (List.range 6).foldl (fun (a : State) p => a.parkPort p) s

/-- The main rails go off: the scratchpad's contents are lost, device memory accepts nothing, and keeps its contents only in
self-refresh. -/
def State.railsOff (s : State) (keep : Bool) : State :=
  let s := s.updFloor fun f => { f with ram := Ram.empty }
  let s := s.updHbm fun h => { h with rgns := [], waitq := [], offer := [], pcq := [], ram := if keep then h.ram else Ram.empty
                                      stks := h.stks.map fun (e : Nat × Stack) => (e.1, { e.2 with selfref := keep }) }
  s.updMod fun m => { m with rails := false }

/-- A pending mode change is abandoned (Table 13-6). -/
def State.dropMode (s : State) : State := s.updPower fun p => { p with next := none }

/-! ## Device reset (R425) -/

/-- What a device reset keeps of the fault state: what lies in flash or waits for it. -/
def Flt.kept (f : Flt) : Flt :=
  { Flt.init with ledgFull := f.ledgFull, ledger := f.ledger, ledgq := f.ledgq, ledgSeq := f.ledgSeq, lifeCe := f.lifeCe
                  lifeCont := f.lifeCont, lifeSv := f.lifeSv, dayDroop := f.dayDroop, dayTj := f.dayTj }

/-- What it keeps of the host interface: the PCIe endpoint, the I3C target and the tray's unread records. -/
def HostIf.kept (h : HostIf) : HostIf :=
  { HostIf.init with speed := h.speed, width := h.width, b4log2 := h.b4log2, i3cAddr := h.i3cAddr, cfg := h.cfg, cfgOn := h.cfgOn
                     nextTag := h.nextTag, trayRecs := h.trayRecs, recs := h.recs.filter fun r => r.1 == 8191
                     qs := h.qs.foldl (fun (a : Tab QEnt) (e : Nat × QEnt) => if e.1 = 8191 then tput a 8191 e.2 else a) HostIf.init.qs }

/-- What it keeps of the power state: levels of signals and sensor readings, and a coolant stop until the reset proceeds (R378). -/
def Power.kept (p : Power) : Power :=
  { Power.init with coolStop := p.coolStop, alert := p.alert, coolOk := p.coolOk, exitOk := p.exitOk, tj := p.tj, warm := p.warm
                    vtrim := p.vtrim, dfmax := p.dfmax }

/-- What it keeps of the module; `step` is the start-up step to go on from. -/
def Module.afterReset (m : Module) (step sec : Nat) : Module :=
  { m with step := step, rails := false, safe := false, shut := false, locate := false, btn := 0, sdCause := 0, sdStep := 0
           resetAfter := false, resetBy := none, stHnd := none, onSec := m.onSec + sec }

/-- A device reset: steps 3 and 4 of Table 15-9 outside an orderly shutdown, then start-up from step 6, from step 5 after one, and from
step 1 where FW_ACTIVATE is pending. -/
def State.resetRun (s : State) : State :=
  let done := s.mod.sdStep == 5
  let s : State := if done then s else s.flushLedger.flushCounters
  let step := if s.mod.pend then 0 else if done then 4 else 5
  { s with
    now := 0, cores := [], floor := Floor.init, hbm := Hbm.init, fab := { Fab.init with phys := s.fab.phys }, light := Light.init
    coll := Coll.init, train := Train.init, det := Det.init
    host := { s.host.kept with phase := if s.mod.pend then 0 else if done then 1 else 2 }
    power := s.power.kept, flt := s.flt.kept
    mod := { s.mod.afterReset step (s.now / 1000000) with coolWait := s.mod.coolWait || s.power.coolStop } }

/-- A reset is asked for: it waits for an orderly shutdown that runs (R432), and FATAL is left only by a power cycle. -/
def State.deviceReset (s : State) : State :=
  if s.flt.fatal then s
  else if 1 ≤ s.mod.sdStep ∧ s.mod.sdStep < 5 then s.updMod fun m => { m with resetAfter := true }
  else s.resetRun

/-! ## Power cycle (R402, R416) -/

/-- What the module keeps without power: flash, fuses, and the levels of its pins. A start-up that had not reached step 11 counts as
failed (R426). -/
def Module.cold (m : Module) (sec : Nat) : Module :=
  { Module.init with
    quiesce := m.quiesce, latch := m.latch, svnFuse := m.svnFuse, cap := m.cap, sel := m.sel, selSeq := m.selSeq, staged := m.staged
    pend := m.pend, imgs := m.imgs, okBoots := m.okBoots, lastFl := m.lastFl, flDone := m.flDone, flPlan := m.flPlan, jrecs := m.jrecs
    erased := m.erased, coolWait := m.coolWait, perst := m.perst, onSec := m.onSec + sec
    failBoot := if 3 ≤ m.step ∧ m.step < 11 then min 3 (m.failBoot + 1) else m.failBoot
    bank := m.bank }

/-- Every internal rail goes off; the supervisor holds the standby converter off for cause `hold` (0 none, 1 after a flush, 2 a power
cycle). -/
def State.powerOff (s : State) (hold : Nat) : State :=
  let f := s.flt
  { State.reset with
    pending := s.pending, free := s.free, outs := s.outs
    power := { Power.init with coolOk := s.power.coolOk }
    flt := { Flt.init with
      ledger := f.ledger, ledgSeq := f.ledgSeq, ledgFull := f.ledgFull, lifeSv := f.lifeSv
      lifeCe := f.lifeSv.map fun (e : Nat × Nat × Nat) => (e.1, e.2.1)
      lifeCont := f.lifeSv.map fun (e : Nat × Nat × Nat) => (e.1, e.2.2) }
    mod := { s.mod.cold (s.now / 1000000) with hold := hold, coolWait := s.mod.coolWait || s.power.coolStop || s.power.trip } }

/-- A DEV_RESET whose record has been written starts its reset, or in FATAL the power cycle (R348, R402). -/
def State.resetIfDone (s : State) : State :=
  match s.mod.resetBy with
  | none => s
  | some q =>
    if s.host.recs.any fun r => r.2.sq == q && r.2.kind == 0 then s
    else if s.flt.fatal then s.powerOff 2
    else (s.updMod fun m => { m with resetBy := none }).deviceReset

/-! ## Shutdown (Table 15-9) -/

/-- Step 3: gates 0, cores stopped, every LID soft-fenced; a LID that drains does so on its lines, so the rings park with the last of them. -/
def State.shutStep3 (s : State) : State :=
  (((s.updMod fun m => { m with sdStep := 3 }).settleGates).stopCores).fenceAll true

/-- Step 5: main rails off, SAFE_TO_REMOVE high. A DEV_RESET that waited runs now. -/
def State.shutStep5 (s : State) : State :=
  let t := (s.railsOff false).updMod fun m => { m with sdStep := 5, safe := true, shut := true }
  if t.mod.resetAfter then t.resetRun else t

/-- Rings parked, and steps 4 and 5, once no LID drains. -/
def State.shutEnd (s : State) : State := s.parkAll.flushLedger.flushCounters.shutStep5

/-! ## Fatal (Table 14-6) -/

/-- Steps 1 to 3: the report pre-empts what was ACTIVE. -/
def State.fatalBegin (s : State) (r : Report) : State :=
  let s := s.updFlt fun f => { f with fatal := true, faultN := true, pwrCyc := true, pendFatal := [], active := some r
                                      stopped := f.active.toList ++ f.stopped }
  ((s.dropMode.settleGates.postFault r).fenceAll false).parkAll

/-! ## Coolant stop (Table 13-5) -/

def State.coolantStop (s : State) : State :=
  let s := (s.updPower fun p => { p with coolStop := true, alert := true }).dropMode
  let s := (s.postDev 0x0006 0#32 0#32 0#32).settleGates.stopCores
  let s := ((s.fenceAll false).parkAll).report (rep 2 9 0 3 0x50 0)
  s.railsOff true

/-! ## Power failure (R419, R420) -/

/-- The flush units in order, as KIND and data pages; before the main rails rise there is only POWERFAIL (R432). -/
def State.flushPlan (s : State) : List (Nat × Nat) :=
  let n := s.flt.ledgq.length
  let ledger := (List.range ((n + 127) / 128)).map fun i => (1, ledgerPages (min 128 (n - 128 * i)))
  let rest := ledger ++ (if s.mod.sdStep = 5 then [] else [(4, 1)]) ++ (if s.flt.fatal ∧ s.mod.sdStep < 5 then [(2, 16)] else [])
  ((3, 1) :: (if s.mod.rails ∨ s.mod.step ≥ 7 then rest else [])).take 48

/-- Steps 1 to 3 of Table 15-4, and the plan of step 4. -/
def State.inputFail (s : State) : State :=
  let s := s.report (rep 2 9 0 9 0x60 s.mod.vin)
  let us := s.flushPlan
  let s := (s.updMod fun m => { m with pf := 3, ss := 2, units := us, flPlan := us.length, flDone := 0 }).settleGates
  (s.stopCores.parkAll).railsOff false

end Sys2Proof.Machine
end

