-- ==== Sys2Proof/Machine/QcpFw.lean ====
section
/-! DEFINITION. Group 0x08, the vendor group and DEV_RESET: firmware, attestation, unlock (12 R348, 15 R425 to R428). -/

namespace Sys2Proof.Machine

/-! ## DEV_RESET -/

def runDevReset (c : Cmd) (s : State) : State :=
  if !c.zero 2 then s.badParam c
  else if s.mod.sdStep = 5 ∧ !s.flt.fatal ∧ c.master = 0 then s.badState c
  else (s.ok c).updMod fun m => { m with resetBy := some c.q }

/-- DEV_RESET: OK, and the reset starts once its record is written; after an orderly shutdown only the tray's (R429). -/
def execDevReset (q : Nat) (d : Desc) (s : State) : Res := qcpRow 0x0014 q d s runDevReset

/-! ## Firmware (R426, R427) -/

/-- The header of Table 15-8 on an image of `bs.length` bytes, with SVN at or above the fused counter; the key and signature checks are
the input `good`. -/
def imageOk (bs : List Byte) (fuse : Nat) (good : Bool) : Bool :=
  good && bs.take 6 == [0x46#8, 0x57#8, 0x49#8, 0x4D#8, 1#8, 2#8] && decide (fuse ≤ fieldLe bs 6 1 ∧ fieldLe bs 6 1 ≤ 63 ∧ fieldLe bs 7 1 ≤ 1)
    && decide (fieldLe bs 8 4 + 512 = bs.length)

/-- An authentication failure of opcode `o` (cause 0x70). -/
def State.authReport (s : State) (o : Nat) : State := s.report (rep 2 9 0 7 0x70 o)

def runFwStage (c : Cmd) (s : State) : State :=
  s.structure_ c (decide (512 ≤ c.n 4 ∧ c.n 4 ≤ 2 ^ 26) && c.zero 5) fun s b =>
    if s.mod.stHnd.isSome then s.badState c
    else s.accepted c fun i a => a.updMod fun m => { m with stHnd := some i, staged := 2, imgs := tput m.imgs (1 - m.bank) b }

/-- FW_STAGE: the image goes to the bank that is not running; FW_STAGE_COMPLETE ends it. -/
def execFwStage (q : Nat) (d : Desc) (s : State) : Res := qcpRow 0x0800 q d s runFwStage

/-- FW_STAGE_COMPLETE: the staged bank is verified; a failed check leaves it invalid and completes with AUTH_FAIL. -/
def execFwStageComplete (good : Bool) (s : State) : Res :=
  match s.mod.stHnd with
  | none => .next s
  | some i =>
    let ok := imageOk (tget [] s.mod.imgs (1 - s.mod.bank)) s.mod.svnFuse good
    let s := s.updMod fun m => { m with stHnd := none, staged := if ok then 1 else 2 }
    .next (if ok then s.doneLong i else (s.authReport 0x0800).finishLong i 0x10F 0#32 0#32 0#32 0#32)

def runFwActivate (c : Cmd) (s : State) : State :=
  if !c.zero 2 then s.badParam c
  else if s.mod.staged ≠ 1 then s.badState c
  else (s.updMod fun m => { m with sel := 1 - m.bank, selSeq := m.selSeq + 1, pend := true }).ok c

/-- FW_ACTIVATE: the boot selector names the staged bank. -/
def execFwActivate (q : Nat) (d : Desc) (s : State) : Res := qcpRow 0x0801 q d s runFwActivate

/-! ## Attestation and unlock (R428) -/

/-- Exactly `n` bytes. -/
def sized (n : Nat) (bs : List Byte) : List Byte := (bs ++ List.replicate n 0#8).take n

/-- SHA-384 of the running image: of the bytes after the header where the bank was staged here. -/
def State.imageDigest (s : State) : List Byte :=
  match s.mod.imgs.find? fun e => e.1 == s.mod.bank with
  | some e => sha384 (e.2.drop 512)
  | none => sized 48 (Config.imageDigest s.mod.bank)

def runAttest (c : Cmd) (s : State) : State :=
  if !c.addrOk 2 ∨ !c.zero 12 then s.badParam c
  else
    let nonce := wordsBytes ((from_ 4 8).map c.w)
    let m := s.imageDigest ++ natLe s.mod.svn 1 ++ natLe s.mod.svnFuse 1 ++ nonce
    let r := s.memPut .hub 0 (c.dw 2) (m ++ sized 96 (Config.sign m))
    match r.2 with
    | some a => r.1.memError c a
    | none => (r.1.updHost fun h => { h with nonce := some nonce }).ok c

/-- ATTEST: digest, SVN, fused counter and nonce with their signature [46]. -/
def execAttest (q : Nat) (d : Desc) (s : State) : Res := qcpRow 0x0810 q d s runAttest

/-- The serial number's bytes (R440). -/
def serialBytes : List Byte := wordBytes (Config.serial 0) ++ wordBytes (Config.serial 1)

def runDbgUnlock (c : Cmd) (s : State) : State :=
  s.structure_ c (c.n 4 != 0 && c.zero 5) fun s b =>
    let good := match s.host.nonce with
      | some n => Config.tokenGood b (serialBytes ++ n)
      | none => false
    if good then (s.updHost fun h => { h with sess := tput h.sess (s.sidOf c) { s.sess (s.sidOf c) with unlocked := true } }).ok c
    else (s.authReport 0x0820).deny c 0x10F

/-- DBG_UNLOCK: a token bound to the serial number and to an attested nonce opens the vendor opcodes to the session. -/
def execDbgUnlock (q : Nat) (d : Desc) (s : State) : Res := qcpRow 0x0820 q d s runDbgUnlock

/-! ## Vendor opcodes (R348) -/

def vendorOpc (o : Nat) : Bool := decide (0x7F00 ≤ o ∧ o ≤ 0x7FFF)

/-- A vendor opcode that passed the frame: DENIED in a session that has not unlocked; no rule gives its effect in one that has. -/
def State.vendor (s : State) (c : Cmd) : Res :=
  match s.refusal c with
  | some x => .next (s.reply c x.1 x.2 0#32 0#32 0#32)
  | none => if (s.sess (s.sidOf c)).unlocked then .refused .vendorEffect else .next (s.deny c 0x107)

/-- VENDOR_OPCODE. -/
def execVendorOpcode (q : Nat) (d : Desc) (s : State) : Res :=
  unit q 8192 <|
    let c : Cmd := { q := q, d := d, hd := (s.que q).head }
    if vendorOpc c.opc && s.hsqOpen q && s.inTurn c then s.vendor c else .next s

end Sys2Proof.Machine
end

