-- ==== Sys2Proof/Machine/QcpPower.lean ====
section
/-! DEFINITION. Group 0x06: power limits, clock modes, balancing and thermal offsets (12 R349, 13 R359, R363, R365 to R367, R371,
R374). -/

namespace Sys2Proof.Machine

/-- The master is the tray manager. -/
def Cmd.tray (c : Cmd) : Bool := c.master == 2

/-! ## PWR_LIMIT -/

def runPwrLimit (c : Cmd) (s : State) : State :=
  let w := c.f 2 15 0
  if !c.only 2 0xFFFF ∨ !c.zero 3 ∨ w < 900 ∨ w > 1600 then s.badParam c
  else if !c.tray ∧ s.power.mode = 0 ∧ w < 1505 then s.badState c
  else
    let t := (s.updPower fun p => if c.tray then { p with trayCeil := w } else { p with hostLim := w }).limitChanged s.power.effLim
    t.okWith c t.power.effLim

/-- PWR_LIMIT (R359, R366): the master's limit; EFF_LIM in DETAIL0. -/
def execPwrLimit (q : Nat) (d : Desc) (s : State) : Res := qcpRow 0x0601 q d s runPwrLimit

/-! ## PWR_MODE and SET_PSTATE -/

/-- FSET of word 3: 0 selects 2.10 GHz, capped at FMAX. -/
def Cmd.fset (c : Cmd) (p : Power) : Nat := if c.f 3 7 0 = 0 then min 210 p.fmax else c.f 3 7 0

def runPwrMode (c : Cmd) (s : State) : State :=
  let m := c.f 2 1 0
  let f := c.fset s.power
  if !c.only 2 3 ∨ !c.only 3 0xFF ∨ !c.zero 4 ∨ m > 1 then s.badParam c
  else if m = 1 ∧ c.f 3 7 0 ≠ 0 ∧ (f < 120 ∨ f > s.power.fmax) then s.badParam c
  else if m = 0 ∧ (!s.power.ffcap ∨ s.power.effLim < 1505) then s.badState c
  else (s.askMode (m, f, 0)).ok c

/-- PWR_MODE (R365, R366): FIXED or CAPPED, at the next attempt boundary. -/
def execPwrMode (q : Nat) (d : Desc) (s : State) : Res := qcpRow 0x0602 q d s runPwrMode

def runSetPstate (c : Cmd) (s : State) : State :=
  let n := c.f 2 2 0
  if !c.only 2 7 ∨ !c.zero 3 then s.badParam c
  else (s.askMode (2, s.power.fset, n)).okWith c (10 * min (pstateClk n) s.power.fmax)

/-- SET_PSTATE (R367): COMPAT; the core clock in MHz in DETAIL0. -/
def execSetPstate (q : Nat) (d : Desc) (s : State) : Res := qcpRow 0x0600 q d s runSetPstate

/-! ## PWR_SHARE -/

/-- Members of the group: the rack's devices in the job. -/
def State.shareMembers (s : State) : Nat := max 1 s.rackSlots.length

/-- Sum of the members' TRAY_CEIL: this device's own, another's as its last report gave it, else 1,600 W [43]. -/
def State.ceilSum (s : State) : Nat :=
  let own := s.fab.phys % 128
  let others := s.rackSlots.filter fun i => i != own
  s.power.trayCeil + (others.map fun i => ((s.power.reps.find? fun r => r.slot == i).map (·.ceil_)).getD 1600).sum

/-- BAL_STEP and BAL_MIN of word 4, 0 for their defaults. -/
def Cmd.balWords (c : Cmd) : Nat × Nat :=
  (if c.f 4 15 0 = 0 then 10 else c.f 4 15 0, if c.f 4 31 16 = 0 then 1100 else c.f 4 31 16)

/-- PRIO names each domain once. -/
def prioOk (x : Nat) : Bool :=
  let a := x / 16 % 4
  let b := x / 4 % 4
  let c := x % 4
  decide (a ≤ 2 ∧ b ≤ 2 ∧ c ≤ 2 ∧ a ≠ b ∧ b ≠ c ∧ a ≠ c)

/-- The group's share on joining: R371 states none, so it is a free value from 900 W to an equal part of G [43]. -/
def State.joinShare (s : State) (g n : Nat) : Nat := 900 + (Config.freeWord s.free).toNat % (g / n - 900 + 1)

def runPwrShare (c : Cmd) (s : State) : State :=
  let en := c.bit 2 0
  let n := s.shareMembers
  let g := c.n 3
  let b := c.balWords
  if !c.only 2 7 ∨ !c.only 5 0x3F3F ∨ !c.zero 6 then s.badParam c
  else if en ∧ (g < 900 * n ∨ g > s.ceilSum ∨ b.1 > 100 ∨ b.2 < 900 ∨ b.2 > 1600) then s.badParam c
  else if c.bit 2 2 ∧ !prioOk (c.f 5 5 0) then s.badParam c
  else
    let old := s.power.effLim
    let keep : Bool := s.power.balEn && decide (s.power.balShare * n ≤ g)
    let share := if keep then s.power.balShare else s.joinShare g n
    let t : State := if en ∧ !keep then s.tick else s
    let t := t.updPower fun p =>
      let p : Power := if en then { p with balEn := true, g := g, balStep := b.1, balMin := b.2, balShare := share, members := n, leader := s.leaderSlot == s.fab.phys % 128 }
        else { p with balEn := false, balShare := 0, leader := false, members := 0, g := 0, slack := 0, reps := [], ranked := false, decs := [], incs := [], freed := 0 }
      let p : Power := if c.bit 2 1 then { p with demand := [] } else p
      if c.bit 2 2 then { p with prio := c.f 5 5 0, minl := c.f 5 13 8 } else p
    (t.limitChanged old).ok c

/-- PWR_SHARE (R364, R371): the balance group, learned demands, PRIO and MINL. -/
def execPwrShare (q : Nat) (d : Desc) (s : State) : Res := qcpRow 0x0603 q d s runPwrShare

/-! ## THERM_LIMIT -/

def runThermLimit (c : Cmd) (s : State) : State :=
  let sil := c.f 2 7 0
  let mem := c.f 2 15 8
  let opt := c.f 2 23 16
  if !c.only 2 0xFFFFFF ∨ !c.zero 3 ∨ sil > 20 ∨ mem > 20 ∨ opt > 20 then s.badParam c
  else (s.updPower fun p => { p with silOfs := sil, memOfs := mem, optOfs := opt }).ok c

/-- THERM_LIMIT (R374): the offsets, in the layout of PWR_TOFS [44]. -/
def execThermLimit (q : Nat) (d : Desc) (s : State) : Res := qcpRow 0x0610 q d s runThermLimit

end Sys2Proof.Machine
end

