-- ==== Sys2Proof/Machine/QcpTrain.lean ====
section
/-! DEFINITION. Groups 0x05 and 0x09: the stage table, checkpoints, replacement, watersheds, holds, replay and certificates (10 R279,
R282, R294 to R296, R300, R302 to R304, 11 R321, R322, R326). -/

namespace Sys2Proof.Machine

/-! ## STAGE_TABLE (R279, R282) -/

/-- Word `i` of a structure. -/
def wordAt (b : List Byte) (i : Nat) : W32 := bytesWord ((b.drop (4 * i)).take 4)

/-- A device memory address in two words, a multiple of `m`. -/
def addrAt (b : List Byte) (i m : Nat) : Option Nat :=
  let a := fieldLe b (4 * i) 8
  if a < 2 ^ 40 ∧ a % m = 0 then some a else none

/-- A counter of the job, or none of them. -/
def jobCtr (c : Nat) (none_ : Bool) : Bool := decide (c < 4032) || (none_ && c == 0xFFF)

/-- A stage entry (Table 10-3). -/
def parseStage (b : List Byte) : Option Stage :=
  let w := wordAt b
  let st : W64 := BitVec.ofNat 64 (fieldLe b 16 8)
  let x : Stage :=
    { fopc := bitsOf (w 0) 15 0, bopc := bitsOf (w 0) 31 16, mov := (w 1).getLsbD 21, cwq := bitsOf (w 1) 20 19, ncm1 := bitsOf (w 1) 18 9
      cbase := bitsOf (w 1) 8 0, abCtr := bitsOf (w 2) 23 12, afCtr := bitsOf (w 2) 11 0, quota := bitsOf (w 3) 15 0, stash := st
      ssize := (w 6).toNat }
  if bitsOf (w 1) 31 22 ≠ 0 ∨ bitsOf (w 2) 31 24 ≠ 0 ∨ bitsOf (w 3) 31 16 ≠ 0 ∨ w 7 ≠ 0#32 ∨ x.cbase + x.ncm1 > 511 ∨ x.quota = 0 ∨ x.quota > 1024
      ∨ !placeOk st ∨ !jobCtr x.abCtr true ∨ !jobCtr x.afCtr true then none
  else some x

/-- A state entry (Table 10-4): SLOT0, SLOT1, LEN. -/
def parseState (b : List Byte) : Option (Nat × Nat × Nat) :=
  let len := fieldLe b 16 8
  match addrAt b 0 1, addrAt b 2 1 with
  | some a0, some a1 => if len ≥ 2 ^ 40 ∨ len % 256 ≠ 0 ∨ !zeroBytes b 24 8 then none else some (a0, a1, len)
  | _, _ => none

/-- Byte offsets of a table's parts: stages, states, template queues, templates, end. -/
def tableParts (v nst ntpl : Nat) : Nat × Nat × Nat × Nat :=
  let a := 128 + 32 * v
  let b := a + 32 * nst
  let c := b + (2 * ntpl + 63) / 64 * 64
  (a, b, c, c + 64 * ntpl)

/-- The header, with the parts that follow (Table 10-2); nothing where a field is out of range. -/
def parseTable (b : List Byte) : Option StageTab :=
  let w := wordAt b
  let v := bitsOf (w 0) 4 0
  let nst := bitsOf (w 15) 4 0
  let ntpl := bitsOf (w 15) 15 8
  let at_ := tableParts v nst ntpl
  let stages := (List.range v).filterMap fun i => parseStage ((b.drop (128 + 32 * i)).take 32)
  let states := (List.range nst).filterMap fun i => parseState ((b.drop (at_.1 + 32 * i)).take 32)
  let tq := (List.range ntpl).map fun i => fieldLe b (at_.2.1 + 2 * i) 2
  let tpl := (List.range ntpl).map fun i => bytesWords ((b.drop (at_.2.2.1 + 64 * i)).take 64)
  let rsv := bitsOf (w 0) 31 24 ≠ 0 ∨ bitsOf (w 0) 7 5 ≠ 0 ∨ bitsOf (w 1) 31 30 ≠ 0 ∨ bitsOf (w 1) 15 11 ≠ 0 ∨ (w 2).getLsbD 31 ∨ (w 2).getLsbD 15
    ∨ bitsOf (w 3) 31 24 ≠ 0 ∨ bitsOf (w 13) 31 29 ≠ 0 ∨ bitsOf (w 14) 31 10 ≠ 0 ∨ bitsOf (w 15) 31 16 ≠ 0 ∨ bitsOf (w 15) 7 5 ≠ 0
    ∨ bitsOf (w 16) 31 24 ≠ 0 ∨ !zeroBytes b 68 60 ∨ !zeroBytes b (at_.2.1 + 2 * ntpl) (at_.2.2.1 - at_.2.1 - 2 * ntpl)
  match addrAt b 8 256, addrAt b 10 256 with
  | some shard, some log =>
    let t : StageTab :=
      { pidx := bitsOf (w 0) 23 16, pm1 := bitsOf (w 0) 15 8, v := v, voteTp := bitsOf (w 1) 29 28, optSlot := bitsOf (w 1) 27 26
        optNm1 := bitsOf (w 1) 25 16, m := bitsOf (w 1) 10 0, mentee := bitsOf (w 2) 30 16, buddy := bitsOf (w 2) 14 0
        rctr := bitsOf (w 3) 23 12, gctr := bitsOf (w 3) 11 0, gthr := (w 4).toNat, rthr := (w 5).toNat, logwin := bitsOf (w 6) 31 16
        optOpc := bitsOf (w 6) 15 0, shardLen := (w 7).toNat, shard := shard, logBase := log, logSize := (w 12).toNat
        aux := bitsOf (w 13) 28 0, auxw := bitsOf (w 14) 9 0, crstN := bitsOf (w 16) 23 12, crstB := bitsOf (w 16) 11 0
        stages := stages, states := states, tq := tq, tpl := tpl }
    if rsv ∨ v = 0 ∨ v > 16 ∨ nst > 16 ∨ t.pidx > t.pm1 ∨ t.m = 0 ∨ t.m > 1024 ∨ t.logwin > 1023 ∨ !jobCtr t.rctr false ∨ !jobCtr t.gctr false
        ∨ t.crstB + t.crstN > 4032 ∨ stages.length ≠ v ∨ states.length ≠ nst ∨ b.length ≠ at_.2.2.2 then none
    else some t
  | _, _ => none

/-- The address ranges of a table's state copies and its log region. -/
def StageTab.ranges (t : StageTab) : List (Nat × Nat) :=
  t.states.flatMap (fun r => [(r.1, r.2.2), (r.2.1, r.2.2)]) ++ [(t.logBase, 256 * t.logSize)]

/-- No two ranges of a list share a byte. -/
def apart : List (Nat × Nat) → Bool
  | [] => true
  | r :: rs => rs.all (fun x => !meets r.1 r.2 x.1 x.2) && apart rs

/-- A table that the command takes; else the status and detail word 0 that refuse it: the failing stage in [31:16], its peak in
[15:0] [41]. -/
def State.checkTable (s : State) (b : List Byte) : StageTab ⊕ (Nat × Nat) :=
  match parseTable b with
  | none => .inr (0x103, 0)
  | some t =>
    if (t.v > 1 ∧ t.m % (t.pm1 + 1) ≠ 0) ∨ !apart t.ranges ∨ t.tq.any (fun q => (s.que q).typ != 6 || (s.que q).part != s.fab.part) then
      .inr (0x103, 0)
    else
      match (List.range t.v).find? fun v => decide ((t.stage v).quota < peakOf t.order v) with
      | some v => .inr (0x105, v * 65536 + peakOf t.order v)
      | none => .inl t

def runStageTable (c : Cmd) (s : State) : State :=
  if !s.ownsJob c then s.deny c 0x107
  else if s.train.js ≠ .loaded ∧ s.train.js ≠ .held then s.badState c
  else if s.votingNow then s.deny c 0x106
  else
    s.structure_ c (c.zero 5 && decide (128 ≤ c.n 4 ∧ c.n 4 ≤ 32768)) fun s b =>
      match s.checkTable b with
      | .inr x => s.reply c x.1 (BitVec.ofNat 32 x.2) 0#32 0#32 0#32
      | .inl t => (s.updTrain fun y => { y with tab := some t }).ok c

/-- STAGE_TABLE. -/
def execStageTable (q : Nat) (d : Desc) (s : State) : Res := qcpRow 0x0500 q d s runStageTable

/-! ## Checkpoints (R300, R321) -/

/-- The target and offset of a storage object handle (R350), or nothing beyond NST. -/
def State.target (s : State) (h : Nat) : Option (Nat × Nat) :=
  if h / 2 ^ 60 < s.jc.targets.length then some (h / 2 ^ 60, h % 2 ^ 60) else none

/-- The job has been launched with its sequencer's table. -/
def State.stepped (s : State) : Option StageTab := if s.train.launched then s.train.tab else none

def runCkpt (c : Cmd) (s : State) : State :=
  let g := c.f 4 3 0
  if !s.ownsJob c then s.deny c 0x107
  else if !c.only 4 0xF ∨ (g ≠ 0 ∧ g ≠ 4 ∧ g < 7) ∨ !c.zero 5 then s.badParam c
  else
    match s.stepped, s.target (c.dw 2) with
    | none, _ => s.badState c
    | some _, none => s.badParam c
    | some t, some x =>
      if s.train.step = 0#64 then s.badState c
      else if s.train.ckpt.isSome then s.deny c 0x106
      else
        s.accepted c fun i a =>
          (a.streamImage (if g = 0 then 4 else g) t x.1 x.2).updTrain fun y => { y with ckpt := some (y.step.toNat - 1, i), cstate := 1 }

/-- CKPT (R300): the image of the last commit goes to storage. -/
def execCkpt (q : Nat) (d : Desc) (s : State) : Res := qcpRow 0x0510 q d s runCkpt

/-- The TAIL move of a seal of step `n` would pass an exported record that storage has not acknowledged (R321). -/
def State.sealPasses (s : State) (n : Nat) : Bool :=
  let ins := s.train.recs.filter fun r => r.2.2.2.2 == 2
  s.jc.exportOn && (ins.drop (ins.length - s.det.expPend)).any fun r => decide (r.2.2.1 ≤ n)

def runCkptSeal (c : Cmd) (s : State) : State :=
  if !s.ownsJob c then s.deny c 0x107
  else if !c.zero 5 then s.badParam c
  else if s.stepped.isNone then s.badState c
  else if s.votingNow ∨ s.sealPasses (c.dw 2) then s.deny c 0x106
  else
    (s.updTrain fun t => { t with pend := t.pend ++ [{ kind := 0, vseq := c.n 4, n := 0, y := 0, s := c.dw 2, stby := 0, hnd := 0 }] }).ok c

/-- CKPT_SEAL (R300): named for a watershed. -/
def execCkptSeal (q : Nat) (d : Desc) (s : State) : Res := qcpRow 0x0511 q d s runCkptSeal

/-! ## REPLACE and DRAIN (R302, R304) -/

/-- Words 2 to 5: the node, a physical node that exists, and the STBYPOS entry of a standby (R197). -/
def Cmd.moveOk (c : Cmd) : Bool :=
  c.only 2 0x7FFF && decide (c.f 2 14 0 < 24576) && c.only 3 0xFFFF && nodeExists (c.n 3) && c.only 5 0xFF &&
    (if c.n 3 % 128 < 64 then c.n 5 == 0 else c.bit 5 7 && !c.bit 5 6)

/-- The STBYPOS entry is written as the command is accepted (R197). -/
def State.putStby (s : State) (c : Cmd) : State :=
  if c.n 3 % 128 < 64 then s else s.updFab fun f => { f with stby := tput f.stby (stbyIdx (c.n 3)) (BitVec.ofNat 8 (c.n 5)) }

/-- The change that the command names for its watershed. -/
def Cmd.moves (c : Cmd) (kind hnd : Nat) : Pending :=
  { kind := kind, vseq := c.n 4, n := c.f 2 14 0, y := c.n 3, s := 0, stby := c.n 5, hnd := hnd }

/-- Step 1 of Tables 10-14 and 10-15 on Y: PENDING with the table, the cores started, VSEQ as named. -/
def State.beginFill (s : State) (c : Cmd) (t : StageTab) (i : Nat) (drain : Bool) : State :=
  let s := s.putStby c
  let s := s.updTrain fun y =>
    { (y.launch s.jobN 0#64 (c.w 4) s.jc.eInit true) with
      tab := some t, replHnd := some i, repl := { Repl.init with lnode := c.f 2 14 0, drain := drain }
      pend := y.pend ++ [c.moves (if drain then 2 else 1) 0] }
  s.launchAll.setJob .pending 0

/-- A device that keeps its node: the change waits for its watershed; the source of a drain takes its role. -/
def State.beginMove (s : State) (c : Cmd) (i : Nat) (drain : Bool) : State :=
  let s := (s.putStby c).updTrain fun y => { y with pend := y.pend ++ [c.moves (if drain then 2 else 1) i] }
  if drain ∧ s.fab.lnode = c.f 2 14 0 then
    s.updTrain fun y => { y with repl := { Repl.init with st := 1, source := true, lnode := c.f 2 14 0, drain := true, grp := orDef (c.f 6 3 0) 7 } }
  else s

def runReplace (c : Cmd) (s : State) : State :=
  if !s.ownsJob c then s.deny c 0x107
  else if !c.moveOk then s.badParam c
  else if s.votingNow then s.deny c 0x106
  else if c.n 3 = s.fab.phys then
    if s.train.js ≠ .loaded ∨ s.host.job.isNone then s.badState c
    else if !c.zero 11 ∨ !c.addrOk 8 ∨ (s.target (c.dw 6)).isNone ∨ c.n 10 < 128 ∨ c.n 10 > 32768 then s.badParam c
    else
      let r := s.memRead .hub 0 (c.dw 8) (c.n 10)
      match r.2.2.2 with
      | some a => r.1.memError c a
      | none =>
        match r.1.checkTable r.2.1 with
        | .inr x => r.1.reply c x.1 (BitVec.ofNat 32 x.2) 0#32 0#32 0#32
        | .inl t => r.1.accepted c fun i a => a.beginFill c t i false
  else if !c.zero 6 then s.badParam c
  else if s.stepped.isNone then s.badState c
  else s.accepted c fun i a => a.beginMove c i false

/-- REPLACE (R302). -/
def execReplace (q : Nat) (d : Desc) (s : State) : Res := qcpRow 0x0520 q d s runReplace

def runDrain (c : Cmd) (s : State) : State :=
  if !s.ownsJob c then s.deny c 0x107
  else if !c.moveOk ∨ !c.only 6 0xF ∨ (c.f 6 3 0 ≠ 0 ∧ c.f 6 3 0 < 7) ∨ !c.zero 7 then s.badParam c
  else if s.votingNow then s.deny c 0x106
  else if c.n 3 = s.fab.phys then
    match s.train.tab with
    | some t => if s.train.js ≠ .loaded ∨ s.host.job.isNone then s.badState c else s.accepted c fun i a => a.beginFill c t i true
    | none => s.badState c
  else if s.stepped.isNone then s.badState c
  else s.accepted c fun i a => a.beginMove c i true

/-- DRAIN (R304). -/
def execDrain (q : Nat) (d : Desc) (s : State) : Res := qcpRow 0x0521 q d s runDrain

/-! ## ROLLBACK and REPLAY (R303, R322) -/

/-- The job stands still with its configuration and table. -/
def State.standing (s : State) : Bool := (s.train.js == .loaded || s.train.js == .held) && s.host.job.isSome && s.train.tab.isSome

def runRollback (c : Cmd) (s : State) : State :=
  if !s.ownsJob c then s.deny c 0x107
  else if !c.zero 4 then s.badParam c
  else if !s.standing then s.badState c
  else if (s.target (c.dw 2)).isNone then s.badParam c
  else if s.train.rollHnd.isSome ∨ s.det.rhnd ≠ 0 then s.deny c 0x106
  else s.accepted c fun i a => a.updTrain fun y => { y with rollHnd := some i }

/-- ROLLBACK: the image is loaded by ROLLBACK_IMAGE_LOADED. -/
def execRollback (q : Nat) (d : Desc) (s : State) : Res := qcpRow 0x0522 q d s runRollback

def runReplay (c : Cmd) (s : State) : State :=
  let src := c.f 6 0 0
  if !s.ownsJob c then s.deny c 0x107
  else if !c.only 6 1 ∨ !c.zero 9 ∨ (src = 0 ∧ c.dw 7 ≠ 0) then s.badParam c
  else if !s.standing then s.badState c
  else if (s.target (c.dw 2)).isNone ∨ (src = 1 ∧ (s.target (c.dw 7)).isNone) then s.badParam c
  else if s.train.rollHnd.isSome ∨ s.det.rhnd ≠ 0 then s.deny c 0x106
  else
    s.accepted c fun i a =>
      let a := a.updTrain fun y => if y.launched then y else { y with n := a.jobN, fresh := true }
      a.updDet fun y => { y with tstop := Desc.dword c.d 4, source := src, rhnd := i }

/-- REPLAY: the job is launched again from the image that ROLLBACK_IMAGE_LOADED brings. -/
def execReplay (q : Nat) (d : Desc) (s : State) : Res := qcpRow 0x0900 q d s runReplay

/-! ## Watersheds (R294, R295) [42] -/

/-- WSTATE in [2:0]; [8] an outcome is held, [9] COMMIT, [10] OVF. -/
def State.wsDetail (s : State) : Nat :=
  wcode s.train.ws + (match s.train.out with
    | some o => 256 + 512 * b2n o.1 + 1024 * b2n o.2
    | none => 0)

def runWsQuery (c : Cmd) (s : State) : State :=
  if !s.ownsJob c then s.deny c 0x107
  else if !c.zero 3 then s.badParam c
  else if s.train.js = .idle ∨ c.w 2 ≠ s.train.vseq then s.badState c
  else (s.updTrain fun t => { t with sealed_ := true }).okWith c s.wsDetail

/-- WS_QUERY: the VSEQ is sealed. -/
def execWsQuery (q : Nat) (d : Desc) (s : State) : Res := qcpRow 0x0530 q d s runWsQuery

/-- The sequencer's VOTE leaves the trees. -/
def State.dropVote (s : State) : State :=
  let s := (s.coll.runs.filter fun r => r.q == seqTol && r.opc == 0x443).foldl (fun (a : State) r => a.dropRun r) s
  s.updTrain fun t => { t with votes := t.votes.filter fun d => tolOpc d != 0x443 }

def runWsResolve (c : Cmd) (s : State) : State :=
  let commit := c.bit 3 0
  let ovf := c.bit 3 1
  if !s.ownsJob c then s.deny c 0x107
  else if !c.only 3 3 ∨ (commit ∧ ovf) ∨ !c.zero 4 then s.badParam c
  else if s.train.js = .idle ∨ c.w 2 ≠ s.train.vseq ∨ !s.train.sealed_ then s.badState c
  else
    match s.train.out with
    | some o => if o = (commit, ovf) then s.ok c else s.badState c
    | none => if s.train.fresh then s.badState c else (s.dropVote.takeOutcome commit ovf ovf false).ok c

/-- WS_RESOLVE: the outcome of a sealed device that holds none, whatever its watershed's state (Table 10-9). -/
def execWsResolve (q : Nat) (d : Desc) (s : State) : Res := qcpRow 0x0531 q d s runWsResolve

def runCfgWatershed (c : Cmd) (s : State) : State :=
  let tp := c.f 2 1 0
  if !s.ownsJob c then s.deny c 0x107
  else if !c.only 2 3 ∨ !c.zero 3 then s.badParam c
  else if s.stepped.isNone ∨ !((s.tree tp 0).valid && (s.tree tp 1).valid) then s.badState c
  else if s.train.cfgHnd.isSome then s.deny c 0x106
  else s.accepted c fun i a => (a.updTrain fun t => { t with cfgHnd := some i }).startCfg

/-- CFG_WATERSHED (R295). -/
def execCfgWatershed (q : Nat) (d : Desc) (s : State) : Res := qcpRow 0x0532 q d s runCfgWatershed

/-! ## JOB_HOLD and JOB_RESUME (R296) -/

def runJobHold (c : Cmd) (s : State) : State :=
  if !s.ownsJob c then s.deny c 0x107
  else if !c.zero 2 then s.badParam c
  else if s.train.js ≠ .run then s.badState c
  else if s.outsideStep ∧ s.train.atRest then (s.setJob .held 5).ok c
  else (s.updTrain fun t => { t with wantHold := true, wantRun := false }).ok c

/-- JOB_HOLD: now, or at the outcome of the attempt. -/
def execJobHold (q : Nat) (d : Desc) (s : State) : Res := qcpRow 0x0540 q d s runJobHold

def runJobResume (c : Cmd) (s : State) : State :=
  if !s.ownsJob c then s.deny c 0x107
  else if !c.zero 2 then s.badParam c
  else if s.train.js = .run ∧ s.train.wantHold then (s.updTrain fun t => { t with wantHold := false }).ok c
  else if s.train.js ≠ .held then s.badState c
  else if s.between ∧ s.train.atRest then (s.setJob .run 0).ok c
  else (s.updTrain fun t => { t with wantRun := true }).ok c

/-- JOB_RESUME. -/
def execJobResume (q : Nat) (d : Desc) (s : State) : Res := qcpRow 0x0541 q d s runJobResume

/-! ## CERTIFY (R326) -/

def runCertify (c : Cmd) (s : State) : State :=
  if !s.ownsJob c then s.deny c 0x107
  else if !c.addrOk 2 ∨ c.dw 2 + c.dw 4 > 2 ^ 40 ∨ !c.addrOk 8 ∨ c.dw 8 % 256 ≠ 0 ∨ !c.zero 10 then s.badParam c
  else if s.stepped.isNone then s.badState c
  else if s.train.ws = .unresolved ∨ s.det.cert.isSome then s.deny c 0x106
  else s.accepted c fun i a => (a.updDet fun y => { y with cert := some (i, c.dw 2, c.dw 4, Desc.dword c.d 6, c.dw 8) }).startCert

/-- CERTIFY: begun between attempts, hashed by CERTIFY_HASH_COMPLETE. -/
def execCertify (q : Nat) (d : Desc) (s : State) : Res := qcpRow 0x0901 q d s runCertify

end Sys2Proof.Machine
end

