-- ==== Sys2Proof/Machine/Admit.lean ====
section
/-! DEFINITION. The command arbiter (12 R355): one fetched command a hub cycle, host against tray, carried out by the same rule as the
command's own row. -/

namespace Sys2Proof.Machine

/-! ## The rule of each opcode -/

def group00 (o : Nat) : Option (Cmd → State → State) :=
  match o with
  | 0x0000 => some runNop
  | 0x0001 => some runSesOpen
  | 0x0002 => some runSesClose
  | 0x0003 => some runDevInfo
  | 0x0010 => some runQueCreate
  | 0x0011 => some runQueDelete
  | 0x0012 => some runQueReset
  | 0x0013 => some runDomainReset
  | 0x0014 => some runDevReset
  | 0x0020 => some runHandleQuery
  | 0x0021 => some runHandleCancel
  | _ => none

def group01 (o : Nat) : Option (Cmd → State → State) :=
  match o with
  | 0x0100 => some runRegionSet
  | 0x0101 => some runMemConfig
  | 0x0102 => some runApertureSet
  | 0x0110 => some runDmaH2d
  | 0x0111 => some runDmaD2h
  | 0x0112 => some runDmaD2d
  | 0x0113 => some runMemFill
  | 0x0120 => some runWindowSet
  | 0x0121 => some runWindowClear
  | _ => none

def group02 (o : Nat) : Option (Cmd → State → State) :=
  match o with
  | 0x0200 => some runProgLoad
  | 0x0210 => some runJobAttach
  | 0x0211 => some runJobConfig
  | 0x0212 => some runJobLaunch
  | 0x0213 => some runJobDetach
  | 0x0214 => some runCoreRelaunch
  | 0x0220 => some runWorkPost
  | _ => none

def group03 (o : Nat) : Option (Cmd → State → State) :=
  match o with
  | 0x0300 => some runL2pSet
  | 0x0301 => some runFabTables
  | 0x0302 => some runFabFence
  | 0x0303 => some runFabUnfence
  | 0x0310 => some runPassPlan
  | 0x0311 => some runPassConfig
  | 0x0312 => some runPortReadmit
  | _ => none

def group04 (o : Nat) : Option (Cmd → State → State) :=
  match o with
  | 0x0400 => some runTreePlan
  | 0x0401 => some runVcWeights
  | _ => none

def group05 (o : Nat) : Option (Cmd → State → State) :=
  match o with
  | 0x0500 => some runStageTable
  | 0x0510 => some runCkpt
  | 0x0511 => some runCkptSeal
  | 0x0520 => some runReplace
  | 0x0521 => some runDrain
  | 0x0522 => some runRollback
  | 0x0530 => some runWsQuery
  | 0x0531 => some runWsResolve
  | 0x0532 => some runCfgWatershed
  | 0x0540 => some runJobHold
  | 0x0541 => some runJobResume
  | _ => none

def group06 (o : Nat) : Option (Cmd → State → State) :=
  match o with
  | 0x0600 => some runSetPstate
  | 0x0601 => some runPwrLimit
  | 0x0602 => some runPwrMode
  | 0x0603 => some runPwrShare
  | 0x0610 => some runThermLimit
  | _ => none

def group07 (o : Nat) : Option (Cmd → State → State) :=
  match o with
  | 0x0700 => some runFltRead
  | 0x0701 => some runFltClear
  | 0x0702 => some runHealthRead
  | 0x0703 => some runLinkCount
  | 0x0710 => some runUnitReadmit
  | 0x0720 => some runFltWindows
  | _ => none

def group08 (o : Nat) : Option (Cmd → State → State) :=
  match o with
  | 0x0800 => some runFwStage
  | 0x0801 => some runFwActivate
  | 0x0810 => some runAttest
  | 0x0820 => some runDbgUnlock
  | _ => none

def group09 (o : Nat) : Option (Cmd → State → State) :=
  match o with
  | 0x0900 => some runReplay
  | 0x0901 => some runCertify
  | _ => none

/-- The rule of opcode `o` (Table 12-7). -/
def ruleOf (o : Nat) : Option (Cmd → State → State) :=
  match o / 256 with
  | 0 => group00 o
  | 1 => group01 o
  | 2 => group02 o
  | 3 => group03 o
  | 4 => group04 o
  | 5 => group05 o
  | 6 => group06 o
  | 7 => group07 o
  | 8 => group08 o
  | 9 => group09 o
  | _ => none

/-! ## Candidates -/

/-- A command may start: FENCE holds nothing back, and a window change waits for what uses the window. -/
def State.mayAdmit (s : State) (c : Cmd) : Bool := (!c.fence || s.clearOf c.q) && !s.windowWaits c

/-- The head of the commands fetched from queue `q`. -/
def State.fetchedHead (s : State) (q : Nat) : Option Cmd :=
  (s.host.fetched.find? fun f => f.q == q).map fun f => { q := q, d := f.d, hd := f.sqhead }

/-- The host's command: of the first HSQ at or after the fetch engine's index whose head may start. -/
def State.hostCand (s : State) : Option Cmd :=
  let able := (s.host.fetched.map (·.q)).filter fun q => match s.fetchedHead q with
    | some c => s.mayAdmit c
    | none => false
  (firstFrom s.host.rot 8192 fun q => able.contains q).bind s.fetchedHead

/-- The tray's command: the oldest on queue 8190. -/
def State.trayCand (s : State) : Option Cmd :=
  match s.host.tray with
  | [] => none
  | d :: _ =>
    let c : Cmd := { q := 8190, d := d, hd := ((s.que 8190).head + 1) % 16 }
    if s.mayAdmit c then some c else none

/-! ## Admission -/

/-- The command leaves its queue's fetched commands; a grant moves the engine's index past its queue. -/
def State.takeCmd (s : State) (c : Cmd) : State :=
  if c.q = 8190 then (s.updHost fun h => { h with tray := h.tray.tail, tieNext := 0 }).updQue 8190 fun e => { e with head := c.hd }
  else s.updHost fun h =>
    { h with fetched := h.fetched.eraseP fun f => f.q == c.q
             rot := (c.q + 1) % 8192, tieNext := 0 }

/-- The command is carried out or refused. -/
def State.admitCmd (s : State) (c : Cmd) : Res :=
  let s := s.takeCmd c
  if vendorOpc c.opc then s.vendor c
  else
    match ruleOf c.opc with
    | some run => .next (s.admitWith c run)
    | none => .next (s.admitWith c fun c s => s.deny c 0x102)

/-- A tie (R355): the losing command is admitted now and the winner next. The tray wins with group 0x06, DEV_RESET and DOMAIN_RESET. -/
def trayWins (o : Nat) : Bool := o / 256 == 6 || o == 0x0014 || o == 0x0013

/-- COMMAND_ADMIT. -/
def execCommandAdmit (s : State) : Res :=
  match s.hostCand, s.trayCand with
  | none, none => .next s
  | some h, none => s.admitCmd h
  | none, some t => s.admitCmd t
  | some h, some t =>
    if s.host.tieNext = 1 then s.admitCmd h
    else if s.host.tieNext = 2 then s.admitCmd t
    else
      let s := s.updHost fun x => { x with ties := satAdd 16 x.ties 1 }
      let win := if trayWins t.opc then t else h
      let lose := if trayWins t.opc then h else t
      match s.admitCmd lose with
      | .next a => .next (a.updHost fun x => { x with tieNext := if win.q = 8190 then 2 else 1 })
      | r => r

end Sys2Proof.Machine
end

