-- ==== Sys2Proof/Machine/CtrOps.lean ====
section
/-! DEFINITION. The counter unit's command (09 R250, R251, 04 R113). -/

namespace Sys2Proof.Machine

/-- CINC and CSET wait until every earlier T-slot store and AADD of the core is performed (R113). -/
def State.ctrReady (s : State) (r : CtrReq) : Bool :=
  match r.src, r.op with
  | .core _ _ _, .read => true
  | .core c _ after, _ => !((s.core c).tacc.any fun a => tStores a.top && decide (a.id < after))
  | _, _ => true

/-- The request a bank grants in hub cycle `cyc`: the oldest, equal ages by the first port at or after the bank's
index; whether a tie was settled (R250). -/
def State.ctrGrant (s : State) (b cyc : Nat) : Option (CtrReq × Bool) :=
  match s.coll.reqs.filter fun r => r.ctr % 16 == b && decide (r.age ≤ cyc) && s.ctrReady r with
  | [] => none
  | h :: t =>
    let low := t.foldl (fun a r => min a r.age) h.age
    let tied := (h :: t).filter fun r => r.age == low
    (firstFrom (tget 0 s.coll.rot b) 16 fun i => tied.any fun r => ctrPort r.src == i).bind fun i =>
      (tied.find? fun r => ctrPort r.src == i).map fun r => (r, tied.any fun x => ctrPort x.src != i)

/-- One operation: the sequencer's and the arbiter's own, and a job's under R251. -/
def State.ctrDo (s : State) (r : CtrReq) : State :=
  match r.src, r.op with
  | .sequencer, .add v => s.addCtr r.ctr v
  | .sequencer, .set v => s.setCtr r.ctr v
  | .arbiter, .add v => s.addCtr r.ctr v
  | .arbiter, .set v => s.setCtr r.ctr v
  | src, .add v => s.ctrAdd src r.ctr v
  | src, .set v => s.ctrSet src r.ctr v
  | .core c dst a, .read =>
    let x := s.ctrRead (.core c dst a) r.ctr
    x.1.updCore c fun k => { (k.setS dst (x.2.setWidth 64) false) with async := true }
  | src, .read => (s.ctrRead src r.ctr).1

/-- COUNTER_REQUEST (R250): bank `b` performs one operation in hub cycle `cyc`. -/
def execCounterRequest (b cyc : Nat) (s : State) : Res :=
  unit b 16 <|
    match s.ctrGrant b cyc with
    | none => .next s
    | some (r, tie) =>
      .next (((s.updColl fun c =>
        { c with reqs := c.reqs.erase r, rot := if tie then tput c.rot b ((ctrPort r.src + 1) % 16) else c.rot }).hubAt cyc).ctrDo r)

end Sys2Proof.Machine
end

