-- ==== Sys2Proof/Machine/PowerRows.lean ====
section
/-! DEFINITION. What the power controller measures and does in time (13): samples, the share, clock changes, droop, trims, temperatures,
the coolant signal and rack balancing. -/

namespace Sys2Proof.Machine

/-! ## Input power (R358, R366) and the share (R363, R364) -/

/-- In FIXED mode a 1 s average above 1,600 W ends the mode at once (R366). -/
def State.fixedExceeded (s : State) (avg1s : Nat) : State :=
  if s.power.mode = 0 ∧ avg1s > 1600 then
    let s := s.updPower fun p => { (p.setMode (1, 180, 0)) with ffcap := false }
    ((s.report (rep 1 9 0 3 0x52 avg1s)).postDev 0x0006 0#32 0#32 0#32).shareBudget
  else s

/-- INPUT_POWER_SAMPLE: a 10 µs sample, with the 100 µs and 1 s averages and the input's voltage and current. -/
def execInputPowerSample (w avg100 avg1s vin iin : Nat) (s : State) : Res :=
  let s := s.updPower fun p =>
    { p with peak := min 65535 (max p.peak w), avg1s := min 65535 avg1s, fast := decide (w > 1850)
             excur := if avg100 > p.effLim then satAdd 8 p.excur 1 else p.excur }
  let s := s.updMod fun m => { m with vin := min 65535 vin, iin := min 65535 iin }
  .next (s.shareBudget.fixedExceeded avg1s)

/-- The power level of a domain's gates. -/
def Power.domLevel (p : Power) (d : Nat) : Nat :=
  let k := if d = 0 then 0 else if d = 1 then 16 else 32
  p.ceilOf k (p.gate k).pwr

/-- A domain's measured power scaled to level 64 joins the present occurrence of the phase (R364), in 1/8 W. -/
def Power.measure (p : Power) (d : Nat) (r : DomRead) : Power :=
  let l := p.domLevel d
  let p := { p with coef := tput p.coef d (r.stat, r.dyn) }
  if l = 0 then p else { p with occ := tupd (0, 0) p.occ d fun o => (o.1 + 8 * r.meas * 64 / l, o.2 + 1) }

/-- BUDGET_SHARE: the measured powers and the estimator's coefficients, then the share. -/
def execBudgetShare (pbase : Nat) (link mem comp : DomRead) (s : State) : Res :=
  let s := s.updPower fun p =>
    { (((p.measure 2 link).measure 1 mem).measure 0 comp) with
      pbase := pbase, cpw := min 1023 comp.meas, memw := min 1023 mem.meas, lnkw := min 1023 link.meas }
  .next s.shareBudget

/-! ## Clocks (R365) and droop (R368) -/

/-- An attempt boundary, or no attempts. -/
def State.boundary (s : State) : Bool := !s.attempts || (s.between && s.train.atRest)

/-- CLOCK_MODE_CHANGE: the pending change is applied at a boundary. -/
def execClockModeChange (s : State) : Res := when (s.power.next.isSome && s.boundary) s s.applyMode

/-- The source of compute die or terrace `i`, 0–11 (Table 14-2). -/
def islandSite (i : Nat) : Nat × Nat × Nat := if i < 8 then (i, 0, 64) else (8, i - 8, 130)

/-- DROOP_DETECT: the island's clock stretches; window 10 counts the event. -/
def execDroopDetect (i : Nat) (s : State) : Res :=
  unit i 12 <|
    when (!s.power.stretched.contains i) s <|
      let s := s.updPower fun p => { p with stretched := setIns p.stretched i, droop := satAdd 16 p.droop 1, ddroop := tupd 0 p.ddroop i (satAdd 8 · 1) }
      let s := s.updFlt fun f => { f with dayDroop := tupd 0 f.dayDroop i (satAdd 32 · 1) }
      let x := islandSite i
      s.winEvent 10 i fun (t : State) => t.report (rep 1 x.1 x.2.1 x.2.2 0x23 ((t.win 10).1 + 1))

/-- DROOP_RECOVER: 64 cycles within 2 % of the setpoint. -/
def execDroopRecover (i cycles : Nat) (s : State) : Res :=
  unit i 12 (when (s.power.stretched.contains i && decide (cycles ≥ 64)) s (s.updPower fun p => { p with stretched := setDel p.stretched i }))

/-! ## Trims (R369, R370) -/

/-- A TRIM ledger entry for die or terrace `i`. -/
def State.trimEntry (s : State) (i : Nat) : State :=
  let x := islandSite i
  s.ledg 6 x.1 x.2.1 x.2.2
    [BitVec.ofInt 8 (tget 0 s.power.vtrim i), BitVec.ofNat 8 (tget 0 s.power.dfmax i), BitVec.ofNat 8 (tget 0 s.power.margin i)]

/-- The device's FMAX: the lowest of the dies and terraces. -/
def Power.minFmax (p : Power) : Nat := ((List.range 12).map (tget 0 p.dfmax)).foldl min 255

/-- A die's FMAX has fallen from `old`: cause 0x22 where it passes 1.80 GHz and where it passes 1.20 GHz, fatal for the floor [48]. -/
def State.fmaxReport (s : State) (i old : Nat) : State :=
  let f := tget 0 s.power.dfmax i
  let x := islandSite i
  let s := if old ≥ 180 ∧ f < 180 then s.report (rep 2 x.1 x.2.1 x.2.2 0x22 f) else s
  if old ≥ 120 ∧ f < 120 then s.report (rep (if i < 8 then 2 else 3) x.1 x.2.1 x.2.2 0x22 f) else s

/-- The device's FMAX follows its dies'; the clock in effect stays at or below it from the next boundary [53]. -/
def State.fmaxSettle (s : State) : State :=
  let f := s.power.minFmax
  let s := s.updPower fun p => { p with fmax := f, ffcap := p.ffcap && decide (f ≥ 180) }
  let p := s.power
  if p.mode = 0 ∧ f < 180 then s.askMode (1, f, 0)
  else if p.mode = 1 ∧ p.fset > f then s.askMode (1, f, 0)
  else if p.mode = 2 ∧ p.fcur > f then s.askMode (2, p.fset, p.pstate)
  else s

/-- One die's daily check with the worst slack of each of its measurements: the trim one step up, or at +75 mV FMAX 10 MHz down and the
check again with the next measurement (R370). -/
def State.trimStep (s : State) (i : Nat) : List Nat → State
  | [] => s
  | m :: ms =>
    let s := s.updPower fun p => { p with margin := tput p.margin i (min 255 m) }
    if m ≥ 8 then s
    else if tget 0 s.power.vtrim i < 30 then (s.updPower fun p => { p with vtrim := tupd 0 p.vtrim i (· + 1) }).trimEntry i
    else
      let old := tget 0 s.power.dfmax i
      (((s.updPower fun p => { p with dfmax := tupd 0 p.dfmax i (· - 1) }).trimEntry i).fmaxReport i old).trimStep i ms

/-- TRIM_DAILY: the worst slacks of each die and terrace in percent, checked at a boundary. -/
def execTrimDaily (slack : List (List Nat)) (s : State) : Res :=
  when (s.mod.rails && s.boundary && slack.length == 12) s
    ((slack.zipIdx.foldl (fun (a : State) x => a.trimStep x.2 x.1) s).fmaxSettle)

/-! ## Temperatures (R374 to R376) -/

/-- The source of die index `i`, 0–30 (Table 14-2). -/
def thermSite (i : Nat) : Nat × Nat × Nat :=
  if i < 12 then islandSite i else if i = 12 then (9, 0, 3) else if i < 19 then (i - 3, 0, 20) else (i - 3, 0, 32)

/-- A report against the die of index `i` with its temperature. -/
def thermRep (cls i cause temp : Nat) : Report := rep cls (thermSite i).1 (thermSite i).2.1 (thermSite i).2.2 cause temp

/-- The lists of dies above throttle and above alert, with the 3 °C of hysteresis. -/
def Power.warmth (p : Power) (i temp now : Nat) : Power :=
  let t := p.thrOf i
  let was := !p.warm.isEmpty
  let p := { p with
    hot := if temp ≥ t.2.1 then setIns p.hot i else if temp + 3 ≤ t.2.1 then setDel p.hot i else p.hot
    warm := if temp ≥ t.1 then setIns p.warm i else if temp + 3 ≤ t.1 then setDel p.warm i else p.warm }
  { p with coolAt := if was && p.warm.isEmpty then now else p.coolAt, alert := p.alert || decide (temp ≥ t.1) }

/-- THERM_ALERT_N is released once every die has stayed 3 °C below alert for 1 s and no stop or trip holds. -/
def Power.alertEnd (p : Power) (now : Nat) : Power :=
  if p.warm.isEmpty ∧ now ≥ p.coolAt + 1000000 ∧ !p.coolStop ∧ !p.trip then { p with alert := false } else p

/-- A junction trip: every gate level 0, a pending change abandoned, the fatal report (R376, R379). -/
def State.junctionTrip (s : State) (i temp : Nat) : State :=
  (((s.updPower fun p => { p with trip := true, alert := true }).dropMode).settleGates).report (thermRep 3 i 0x51 temp)

/-- THERMAL_SAMPLE: the highest reading of die index `i`; a stack's is its TEMP too, with HOT (R153) [164]. A trip is
reported before the throttle threshold of the same reading [166]. -/
def execThermalSample (i temp : Nat) (s : State) : Res :=
  unit i 31 <|
    let old := tget 0 s.power.tj i
    let wasHot := s.power.hot.contains i
    let x := s.power.thrOf i
    let s := s.updPower fun p =>
      { ((p.warmth i temp s.now).alertEnd s.now) with
        tj := tput p.tj i (min 255 temp), tjmax := tupd 0 p.tjmax i (max (min 255 temp)), exitOk := p.exitOk && decide (temp < 60) }
    let s := s.updFlt fun f => { f with dayTj := tupd 0 f.dayTj i (max (min 255 temp)) }
    let s := if i < 19 then s else s.stackTemp (i - 19) (min 255 temp)
    let s := if temp ≥ x.2.2 ∧ old < x.2.2 then s.junctionTrip i temp else s
    .next (if s.power.mode = 0 ∧ temp ≥ x.2.1 ∧ !wasHot then s.report (thermRep 1 i 0x52 temp) else s)

/-- THROTTLE_STEP_DOWN: a die at or above its throttle threshold; its level falls by 8, down to MINL. -/
def execThrottleStepDown (i : Nat) (s : State) : Res :=
  unit i 31 <|
    when (decide (tget 0 s.power.tj i ≥ (s.power.thrOf i).2.1)) s
      ((s.updPower fun p => { p with thm := tupd 64 p.thm i fun t => if t > p.minl then max p.minl (t - 8) else t }).settleGates)

/-- THROTTLE_STEP_UP: a die 3 °C below its threshold; its level rises by 1, up to 64. -/
def execThrottleStepUp (i : Nat) (s : State) : Res :=
  unit i 31 <|
    when (decide (tget 0 s.power.tj i + 3 ≤ (s.power.thrOf i).2.1)) s
      ((s.updPower fun p => { p with thm := tupd 64 p.thm i fun t => min 64 (t + 1) }).settleGates)

/-! ## Coolant (R377, R378) -/

/-- COOLANT_OK_FALL. A device whose main rails are not up waits before raising them. -/
def execCoolantOkFall (s : State) : Res :=
  when s.power.coolOk s <|
    let s := s.updPower fun p => { p with coolOk := false, exitOk := false }
    if s.mod.rails then s else s.updMod fun m => { m with coolWait := true }

/-- COOLANT_OK_RISE: a low pulse that ran no stop is a glitch. -/
def execCoolantOkRise (s : State) : Res :=
  when (!s.power.coolOk) s
    (s.updPower fun p => { p with coolOk := true, glitch := if s.mod.rails && !p.coolStop then satAdd 8 p.glitch 1 else p.glitch })

/-- COOLANT_STOP: low for 100 µs. A trip governs (R379). -/
def execCoolantStop (us : Nat) (s : State) : Res :=
  when (!s.power.coolOk && decide (us ≥ 100) && s.mod.rails && !s.power.coolStop && !s.power.trip) s s.coolantStop

/-- COOLANT_EXIT_READY: high for 5 s and every die below 60 °C. -/
def execCoolantExitReady (sec : Nat) (s : State) : Res :=
  when (s.power.coolOk && decide (sec ≥ 5) && (List.range 31).all fun i => decide (tget 0 s.power.tj i < 60)) s
    (s.updPower fun p => { p with exitOk := true })

/-! ## Rack balancing (R372, R373) -/

/-- BALANCE_REPORT_RECEIVE: the leader takes a member's report. -/
def execBalanceReportReceive (slot vseq slack avg share ceil : Nat) (s : State) : Res :=
  when (s.power.balEn && s.power.leader && s.rackSlots.contains slot && !(s.power.ranked && s.power.repVseq == vseq)) s
    (s.updPower fun p => p.addReport vseq { slot := slot, slack := slack, avg := avg, share := share, ceil_ := ceil })

/-- A report ranks before another: larger SLACK, ties by lower slot. -/
def BalRep.before (a b : BalRep) : Bool := a.slack > b.slack || (a.slack == b.slack && a.slot < b.slot)

/-- `r` put into its place. -/
def rankIns (r : BalRep) : List BalRep → List BalRep
  | [] => [r]
  | x :: l => if r.before x then r :: x :: l else x :: rankIns r l

def rankAll (l : List BalRep) : List BalRep := l.foldl (fun a r => rankIns r a) []

/-- Watts left over returned to the givers, from the first of the list on. -/
def giveBack : Nat → List (BalRep × Nat) → List (BalRep × Nat)
  | _, [] => []
  | n, (r, w) :: l => (r, w - min n w) :: giveBack (n - min n w) l

/-- The new shares: what each giver gives, and each taker's new share with what it takes. `turn` says from which giver on the
watts left over are returned, which R373 leaves open. -/
def newShares (reps : List BalRep) (step least turn : Nat) : List (BalRep × Nat) × List (BalRep × Nat) :=
  let ranked := rankAll reps
  let k := ranked.length / 4
  let gives := (ranked.take k).map fun r => (r, min step (r.share - least))
  let each := (gives.map (·.2)).sum / max 1 k
  let takes := (ranked.drop (ranked.length - k)).map fun r => (r, min each (r.ceil_ - r.share))
  let left := (gives.map (·.2)).sum - (takes.map (·.2)).sum
  let n := turn % max 1 k
  (giveBack left (gives.drop n ++ gives.take n), takes)

/-- This device's own share changes. -/
def State.takeShare (s : State) (share : Nat) : State := (s.updPower fun p => { p with balShare := share }).limitChanged s.power.effLim

/-- A DEC (2) or INC (3) to a member; the leader's own acts at once. -/
def State.sendShare (s : State) (kind slot share : Nat) : State :=
  if slot = s.fab.phys % 128 then s.takeShare share else s.sendBalance slot kind s.power.repVseq 0 0 share

/-- The INCs whose watts have been acknowledged are sent. -/
def State.sendIncs (s : State) : State :=
  s.power.incs.foldl (fun (a : State) i =>
    if i.2.2 ≤ a.power.freed then
      (a.updPower fun p => { p with freed := p.freed - i.2.2, incs := p.incs.erase i }).sendShare 3 i.1 i.2.1
    else a) s

/-- Every DEC has been acknowledged. -/
def State.sendIncsIfFree (s : State) : State := if s.power.decs.isEmpty then s.sendIncs else s

/-- The ranking, and every DEC. -/
def State.rank (s : State) : State :=
  let p := s.power
  let own := s.fab.phys % 128
  let x := newShares p.reps p.balStep p.balMin (Config.freeChoice s.free)
  let gives := x.1.filter fun g => g.2 > 0
  let s := s.tick.updPower fun p =>
    { p with ranked := true
             decs := (gives.filter fun g => g.1.slot != own).map fun g => (g.1.slot, g.2)
             freed := ((gives.filter fun g => g.1.slot == own).map (·.2)).sum
             incs := (x.2.filter fun t => t.2 > 0).map fun t => (t.1.slot, t.1.share + t.2, t.2) }
  (gives.foldl (fun (a : State) g => a.sendShare 2 g.1.slot (g.1.share - g.2)) s).sendIncsIfFree

/-- BALANCE_WAIT_EXPIRY: 5 ms, or every member has reported. -/
def execBalanceWaitExpiry (us : Nat) (s : State) : Res :=
  let p := s.power
  when (p.balEn && p.leader && !p.ranked && !p.reps.isEmpty && (decide (us ≥ 5000) || p.reps.length == p.members)) s s.rank

/-- ACK: the applied share (Table 13-3). -/
def State.ackShare (s : State) (vseq : Nat) : State := s.sendBalance s.leaderSlot 4 vseq 0 0 s.power.balShare

/-- BALANCE_DEC. -/
def execBalanceDec (vseq share : Nat) (s : State) : Res :=
  when (s.power.balEn && decide (share ≤ s.power.balShare)) s ((s.takeShare share).ackShare vseq)

/-- BALANCE_INC. -/
def execBalanceInc (vseq share : Nat) (s : State) : Res :=
  when (s.power.balEn && decide (share ≥ s.power.balShare)) s ((s.takeShare share).ackShare vseq)

/-- BALANCE_ACK: a DEC's watts are free; after the last the INCs go. An ACK of an INC asks for nothing. -/
def execBalanceAck (slot vseq share : Nat) (s : State) : Res :=
  match s.power.decs.find? fun d => d.1 == slot with
  | none => .next s
  | some d =>
    when (s.power.balEn && s.power.leader && s.power.repVseq == vseq && (s.power.reps.any fun r => r.slot == slot && share + d.2 ≤ r.share)) s
      ((s.updPower fun p => { p with decs := p.decs.erase d, freed := p.freed + d.2 }).sendIncsIfFree)

/-- BALANCE_ACK_TIMEOUT: 10 ms; the INCs that acknowledged DECs pay for go, the others stay held back. -/
def execBalanceAckTimeout (us : Nat) (s : State) : Res :=
  when (s.power.balEn && s.power.leader && decide (us ≥ 10000)) s s.sendIncs

end Sys2Proof.Machine
end

