-- ==== Sys2Proof/Machine/FaultRows.lean ====
section
/-! DEFINITION. The collector, the fatal sequence, the ledger's writes and the hub's watchdogs (14 R387 to R390, R399, R405, 15 R425). -/

namespace Sys2Proof.Machine

/-! ## Reactions of CONTAINED reports (Table 14-5) -/

/-- Cores that a report's reaction retires; for an exception, the core that window 7 has chosen. -/
def State.reactCores (s : State) (r : Report) : List Nat :=
  match r.cause with
  | 0x06 => if r.die = 8 ∧ r.unit < 128 then [128 * r.sub + r.unit] else []
  | 0x08 => [128 * r.sub + r.unit]
  | 0x20 => if (s.core (64 * r.die + r.unit)).retiring then [64 * r.die + r.unit] else []
  | 0x22 => if r.die < 8 ∧ r.info < 120 then from_ (64 * r.die) 64 else []
  | _ => []

/-- The reaction starts: cores stop issuing, an engine whose edge group cannot be repaired loses its port. -/
def State.react (s : State) (r : Report) : State :=
  let s := (s.reactCores r).foldl (fun (a : State) c => a.retireCore c) s
  if r.cause = 0x06 ∧ 10 ≤ r.die ∧ r.die < 16 then s.breakPort (r.die - 10)
  else if r.cause = 0x22 ∧ r.die < 8 ∧ r.info < 120 then s.ledg 1 r.die 0 64 [0x22#8]
  else s

/-- The posted key of a CORRECTED report is held for 1 s (R389). -/
def Flt.hold (f : Flt) (k : Nat × Nat × Nat) : Flt :=
  { f with heldCe := f.heldCe.filter (fun h => (h.1, h.2.1, h.2.2.1) != k) ++ [(k.1, k.2.1, k.2.2, none)] }

/-- COLLECTOR_TAKE: the next report, FATAL first; a CORRECTED one is finished, a CONTAINED one becomes ACTIVE and its reaction starts. -/
def execCollectorTake (s : State) : Res :=
  if s.flt.fatal then .next s
  else
    match s.flt.pendFatal, s.flt.active, s.flt.pendCont, s.flt.pendCe with
    | r :: _, _, _, _ => .next (s.fatalBegin r)
    | [], some _, _, _ => .next s
    | [], none, r :: l, _ => .next ((s.updFlt fun f => { f with active := some r, pendCont := l }).react r)
    | [], none, [], r :: l => .next ((s.updFlt fun f => ({ f with pendCe := l } : Flt).hold r.key).postFault r)
    | [], none, [], [] => .next s

/-- A core that is being retired has nothing more to wait for. -/
def State.coreDone (s : State) (c : Nat) : Bool := (s.core c).retired || s.coreQuiet c

/-- CONTAINED_REACTION_DONE: the cores' outstanding operations have completed; they are retired and the event is posted. -/
def execContainedReactionDone (s : State) : Res :=
  match s.flt.active with
  | none => .next s
  | some r =>
    let cs := s.reactCores r
    when (!s.flt.fatal && cs.all s.coreDone) s
      (((cs.foldl (fun (a : State) c => a.finishRetire c r.cause) s).updFlt fun f => { f with active := none }).postFault r)

/-- COALESCE_HOLD_EXPIRY: what a key held for 1 s has gathered is posted, and the key is held again; an empty hold ends. -/
def execCoalesceHoldExpiry (die sub cause ms : Nat) (s : State) : Res :=
  match s.flt.heldCe.find? fun h => (h.1, h.2.1, h.2.2.1) == (die, sub, cause) with
  | none => .next s
  | some h =>
    when (decide (ms ≥ 1000) && !s.flt.fatal) s <|
      match h.2.2.2 with
      | some r => (s.updFlt fun f => f.hold (die, sub, cause)).postFault r
      | none => s.updFlt fun f => { f with heldCe := f.heldCe.erase h }

/-! ## Fatal (Table 14-6) -/

/-- FATAL_CAPTURE_WRITTEN: step 4, then steps 3 to 5 of the shutdown. -/
def execFatalCaptureWritten (written : Bool) (s : State) : Res :=
  match s.flt.active with
  | none => .next s
  | some r =>
    when (s.flt.fatal && decide (s.mod.sdStep < 5) && s.mod.pf == 0) s <|
      let s : State := if written then s.writeJrec 2 16 0 0 else s
      let s := s.writeEntry { typ := 9, die := r.die, sub := r.sub, unit := r.unit, time := s.mod.onSec + s.now / 1000000, seq := 0
                              body := natLe r.word.toNat 4 ++ natLe r.info 6 ++ natLe (b2n written) 1 ++ List.replicate 5 0#8 }
      (s.updMod fun m => { m with resetAfter := false }).shutStep3.shutEnd

/-! ## The ledger (R405) -/

/-- LEDGER_ENTRY_WRITE: the oldest entry that waits reaches flash. -/
def execLedgerEntryWrite (s : State) : Res :=
  match s.flt.ledgq with
  | [] => .next s
  | e :: l =>
    when (s.mod.standby && s.mod.pf == 0) s (((s.updFlt fun f => { f with ledgq := l }).writeJrec 1 1 0 0).writeEntry e)

/-- DAILY_LEDGER: an entry for every die index, and a new day. -/
def execDailyLedger (s : State) : Res :=
  let one (a : State) (i : Nat) : State :=
    let x := thermSite i
    a.ledg 10 x.1 x.2.1 x.2.2 (natLe (tget 0 a.flt.lifeCe i) 4 ++ natLe (tget 0 a.flt.lifeCont i) 2 ++ natLe (tget 0 a.flt.dayTj i) 1
      ++ natLe (tget 0 a.flt.dayDroop i) 4)
  when s.mod.standby s (((List.range 31).foldl one s).updFlt fun f => { f with dayTj := [], dayDroop := [] })

/-! ## Watchdogs (R425, cause 0x59) -/

/-- HUB_WATCHDOG: the control complex's is fatal; another hub watchdog resets the device. -/
def execHubWatchdog (control : Bool) (s : State) : Res :=
  when (s.mod.standby && !s.flt.fatal) s (if control then s.report (rep 3 9 0 3 0x59 0) else s.deviceReset)

end Sys2Proof.Machine
end

