-- ==== Sys2Proof/Machine/HostRows.lean ====
section
/-! DEFINITION. What reaches the device over PCIe and I3C and what it writes there: configuration requests, PERST_N, FLR, BAR4, doorbells,
records, MSI-X, the admin queue registers, BAR0 and the management target (01 R25, 12 R329 to R338, R356, R357, 16 R435 to R437). -/

namespace Sys2Proof.Machine

/-! ## Configuration space (R25, R329) [49] -/

/-- D3hot: BAR decoding stops. -/
def State.d3hot (s : State) : Bool := bitsOf (tget 0#32 s.host.cfg 0x44) 1 0 == 3

/-- The device answers in its BARs. -/
def State.barOpen (s : State) : Bool := s.mod.standby && !s.mod.perst && s.host.cfgOn && !s.d3hot

/-- A BAR register of a BAR of 2^`n` bytes: the address bits written above its size, and the type bits. -/
def State.barWord (s : State) (off n typ : Nat) : W32 :=
  let v := (tget 0#32 s.host.cfg off).toNat + 2 ^ 32 * (tget 0#32 s.host.cfg (off + 4)).toNat
  BitVec.ofNat 32 (v / 2 ^ n * 2 ^ n + typ)

/-- The upper half of a 64-bit BAR. -/
def State.barHigh (s : State) (off n : Nat) : W32 :=
  let v := (tget 0#32 s.host.cfg off).toNat + 2 ^ 32 * (tget 0#32 s.host.cfg (off + 4)).toNat
  BitVec.ofNat 32 (v / 2 ^ n * 2 ^ n / 2 ^ 32)

/-- The word that a configuration read returns; words that neither the spec nor [49] lays out are free values. -/
def State.cfgWord (s : State) (off : Nat) : W32 :=
  let free := (Config.freeWord s.free).setWidth 32
  match off with
  | 0x00 => 0x0F02#16 ++ Config.vendorId
  | 0x08 => 0x120000#24 ++ free.setWidth 8
  | 0x10 => s.barWord 0x10 25 4
  | 0x14 => s.barHigh 0x10 25
  | 0x18 => s.barWord 0x18 16 4
  | 0x1C => s.barHigh 0x18 16
  | 0x20 => s.barWord 0x20 s.host.b4log2 12
  | 0x24 => s.barHigh 0x20 s.host.b4log2
  | 0x44 => BitVec.ofNat 32 (bitsOf (tget 0#32 s.host.cfg 0x44) 1 0)
  | 0x108 => BitVec.ofNat 32 ((s.host.b4log2 - 20) * 256 + 4)
  | _ => free

/-- A configuration write; the resizable BAR control takes sizes from 1 GiB to 1 TiB. -/
def State.cfgPut (s : State) (off : Nat) (v : W32) : State :=
  if off = 0 ∨ off = 8 then s
  else if off = 0x108 then
    if 10 ≤ bitsOf v 13 8 ∧ bitsOf v 13 8 ≤ 20 then s.updHost fun h => { h with b4log2 := 20 + bitsOf v 13 8 } else s
  else s.updHost fun h => { h with cfg := tput h.cfg off v }

/-- CONFIG_REQUEST. -/
def execConfigRequest (off : Nat) (write : Option W32) (s : State) : Res :=
  when (s.mod.standby && s.host.cfgOn && decide (off < 4096) && off % 4 == 0) s <|
    match write with
    | some v => s.cfgPut off v
    | none => (s.emit (.cfgData (s.cfgWord off))).tick

/-! ## PERST_N (R333) and FLR (R334) -/

/-- The PCIe endpoint's own state after its reset. -/
def HostIf.endpoint (h : HostIf) : HostIf := { h with speed := 0, width := 0, b4log2 := 36, cfg := [], cfgOn := false, msix := [] }

/-- Link training: rate and width as the PCIe rules give, a free choice. -/
def State.linkTrain (s : State) : State :=
  (s.updHost fun h => { h with cfgOn := s.mod.standby, speed := 1 + Config.freeChoice s.free % 6
                               width := [1, 2, 4, 8, 16].getD (Config.freeChoice (s.free + 1) % 5) 16 }).tick.tick

/-- PERST_ASSERT: the endpoint resets, and a device reset starts outside FATAL and not after an orderly shutdown (R402, R425, R429). -/
def execPerstAssert (s : State) : Res :=
  when (!s.mod.perst) s <|
    let s := (s.updMod fun m => { m with perst := true }).updHost HostIf.endpoint
    if !s.mod.standby ∨ s.mod.sdStep = 5 then s else s.deviceReset

/-- PERST_RELEASE: link training; configuration is answered in the standby domain. -/
def execPerstRelease (s : State) : Res := when s.mod.perst s ((s.updMod fun m => { m with perst := false }).linkTrain)

/-- A host session ends in a function-level reset: its queues are reset, then it closes; the device partition stays. -/
def State.flrSession (s : State) (sid : Nat) : State :=
  let qs := s.resetTargets 0x0002 [0#32, 0#32, BitVec.ofNat 32 sid]
  let s := qs.foldl (fun (a : State) q => a.resetQueue q) s
  let part := s.fab.part
  (s.endSession sid 0).updFab fun f => { f with part := part }

/-- FLR. -/
def execFlr (s : State) : Res :=
  when s.barOpen s <|
    let s := ((s.host.sess.map (·.1)).filter (· != 0)).foldl State.flrSession s
    s.updHost fun h => { h with recs := h.recs.filter fun r => (tget QEnt.free h.qs r.1).typ == 2 }

/-! ## BAR4 (R331) -/

/-- Reads one unit through the aperture: its bytes and whether any word asked for is spoiled; an unmapped unit reads all ones. -/
def State.apertureUnit (s : State) (u : Nat) (e : EccFind) : State × List Byte × List Bool :=
  match s.admitUnit .host 0 u with
  | (t, none) => (t, List.replicate 32 0xFF#8, List.replicate 32 false)
  | (t, some p) =>
    let x := (t.updGrp 3 (·.take (t.now * 1250))).unitRead p.2.1 p.2.2 u (if e.bad.contains u then .uncorrectable else if e.fixed.contains u then .corrected else .clean)
    (x.1, x.2.1, x.2.2.flatMap (List.replicate 4 ·))

/-- The access lies in the aperture. -/
def State.aperture (s : State) (off n : Nat) : Bool := s.barOpen && decide (0 < n ∧ off + n ≤ 2 ^ s.host.b4log2)

/-- BAR4_READ. -/
def execBar4Read (off len : Nat) (e : EccFind) (s : State) : Res :=
  when (s.aperture off len) s <|
    let a := (s.host.b4base + off) % 2 ^ 40
    let r := (unitsOf a len).foldl (fun (acc : State × List Byte × List Bool) u =>
      let x := acc.1.apertureUnit u e
      (x.1, acc.2.1 ++ x.2.1, acc.2.2 ++ x.2.2)) (s, [], [])
    r.1.emit (.readData ((r.2.1.drop (a % 32)).take len) (((r.2.2.drop (a % 32)).take len).any id))

/-- BAR4_WRITE: every word of a poisoned TLP is stored with its spoil bit set. -/
def execBar4Write (off : Nat) (data : List Byte) (poisoned : Bool) (s : State) : Res :=
  when (s.aperture off data.length) s
    (s.memWrite .host 0 ((s.host.b4base + off) % 2 ^ 40) data (List.replicate data.length poisoned)).1

/-! ## Doorbells and fetches (R336, R337) -/

/-- The next descriptor of an HSQ is asked of host memory, one at a time for each queue. -/
def State.startFetch (s : State) (q : Nat) : State :=
  let e := s.que q
  if e.typ = 1 ∧ e.st = 1 ∧ e.head ≠ e.tail ∧ !(s.host.reads.any fun r => r.use == 0 && r.q == q) then
    let a := e.slotAddr e.head
    (s.updHost fun h => { h with reads := h.reads ++ [{ tag := h.nextTag, use := 0, q := q, addr := a, len := 64, dst := 0 }]
                                 nextTag := h.nextTag + 1 }).emit (.hostRead s.host.nextTag a 64)
  else s

/-- The doorbells that are ignored and counted. -/
def QEnt.deaf (e : QEnt) (q : Nat) : Bool := e.st == 0 || e.st == 2 || e.dbc || q ≥ 8190

/-- A doorbell that is ignored counts in DBERR. -/
def State.dbErr (s : State) (q : Nat) : State := s.updQue q fun e => { e with dberr := satAdd 16 e.dberr 1 }

/-- The low word of a doorbell write reaches the doorbell: 8 bytes, or 4 at the lower offset. -/
def dbTaken (hi size : Nat) : Bool := hi == 0 && (size == 8 || size == 4)

/-- A producer's TAIL. -/
def State.setTail (s : State) (q i : Nat) : State :=
  let e := s.que q
  let n := 2 ^ e.log2n
  if i ≥ n ∨ (i + n - e.tail) % n > n - 1 - e.count then s.queueError q
  else (s.updQue q fun e => { e with tail := i }).startFetch q

/-- DOORBELL_WRITE: of a queue that is no CEQ. -/
def execDoorbellWrite (q hi size : Nat) (v : W64) (s : State) : Res :=
  unit q 8192 <|
    when (s.barOpen && (s.que q).typ != 2 && dbTaken hi size) s
      (if (s.que q).deaf q then s.dbErr q else s.setTail q (v.toNat % 65536))

/-- MSI-X vector `v` is sent, or kept pending while its table entry masks it. -/
def State.sendMsix (s : State) (v : Nat) : State :=
  if (tget 0#32 s.host.msix (0x20000 + 16 * v + 12)).getLsbD 0 then
    s.updHost fun h => { h with msix := tupd 0#32 h.msix (0x28000 + 4 * (v / 32)) fun w => w ||| BitVec.ofNat 32 (2 ^ (v % 32)) }
  else s.emit (.msix v)

/-- The vector of a CEQ is sent and ARM clears. -/
def State.fire (s : State) (q : Nat) : State :=
  (s.sendMsix (s.que q).vec).updQue q fun e => { e with arm := false, unsig := 0 }

/-- An armed CEQ with CNT unsignalled records signals. -/
def State.signal (s : State) (q : Nat) : State :=
  let e := s.que q
  if e.arm ∧ e.unsig > 0 ∧ e.unsig ≥ e.cnt then s.fire q else s

/-- A CEQ's HEAD and ARM. -/
def State.setHead (s : State) (q i : Nat) (arm : Bool) : State :=
  let e := s.que q
  let n := 2 ^ e.log2n
  let moved := (i + n - e.head) % n
  if i ≥ n ∨ moved > e.count then (s.dbErr q).queueEvent q
  else (s.updQue q fun e => { e with head := i, arm := e.arm || arm, unsig := min e.unsig (e.count - moved) }).signal q

/-- CEQ_DOORBELL. -/
def execCeqDoorbell (q hi size : Nat) (v : W64) (s : State) : Res :=
  unit q 8192 <|
    when (s.barOpen && (s.que q).typ == 2 && dbTaken hi size) s
      (if (s.que q).deaf q then s.dbErr q else s.setHead q (v.toNat % 65536) (size == 8 && v.getLsbD 32))

/-- HOST_READ_COMPLETION: a descriptor becomes a fetched command and HEAD moves on; DMA_H2D bytes are written and the command ends. -/
def execHostReadCompletion (tag : Nat) (data : List Byte) (s : State) : Res :=
  match s.host.reads.find? fun r => r.tag == tag with
  | none => .next s
  | some r =>
    when (data.length == r.len) s <|
      let s := s.updHost fun h => { h with reads := h.reads.filter fun x => x.tag != tag }
      if r.use = 0 then
        let s := s.updQue r.q fun e => { e with head := e.next e.head }
        (s.updHost fun h => { h with fetched := h.fetched ++ [{ q := r.q, d := bytesWords data, sqhead := (s.que r.q).head }] }).startFetch r.q
      else
        match s.longAt r.q with
        | none => s
        | some l =>
          let x := s.putParts (bitsOf (Desc.word l.d 8) 3 0) r.dst data
          x.1.endCopy r.q { q := l.q, d := l.d, hd := l.sqhead } (some data) x.2

/-! ## Records and interrupts (R338) -/

/-- A record's bytes (Table 12-6). -/
def Rec.bytes (r : Rec) (phase : Bool) : List Byte :=
  wordsBytes [r.tag, r.hnd, wordOf [fldAt 31 1 (b2n phase), fldAt 29 2 r.kind, fldAt 16 13 r.sq, fldAt 0 16 r.status], wordOf [fldAt 0 16 r.sqhead],
    r.d0, r.d1, r.d2, r.d3]

/-- The CEQ that a record for CEQ `q` is written to: in FATAL queue 1 in place of one in device memory (R401). -/
def State.effCeq (s : State) (q : Nat) : Nat := if s.flt.fatal && (s.que q).loc == 1 then 1 else q

/-- A CEQ has room for a record. -/
def QEnt.room (e : QEnt) : Bool := e.typ == 2 && e.st == 1 && decide (e.count + 1 < 2 ^ e.log2n)

/-- EN is 0 and the last fetched admin command has posted its records: the admin CEQ closes (R357). -/
def State.aqSettle (s : State) : State := if s.host.aqEn ∨ s.aqAct then s else s.updQue 1 fun e => { e with st := 0 }

/-- The record's bytes go to the ring. -/
def State.putRec (s : State) (q : Nat) (r : Rec) : State :=
  let e := s.que q
  let a := e.base + 32 * e.tail
  match e.loc with
  | 0 => s.emit (.hostWrite a (r.bytes e.phase))
  | 1 => (s.memPut .hub 0 a (r.bytes e.phase)).1
  | _ =>
    let t := s.updHost fun h => { h with trayRecs := h.trayRecs ++ [r] }
    if s.host.i3cAddr.isSome then t.emit (.ibi 0xC1#8) else t

/-- A record is written at TAIL: PHASE inverts on the wrap, and the interrupt rule is applied. -/
def State.writeRec (s : State) (q : Nat) (r : Rec) : State :=
  let s := (s.updHost fun h => { h with recs := h.recs.eraseP fun x => s.effCeq x.1 == q }).putRec q r
  let s := s.updQue q fun e => { e with tail := e.next e.tail, phase := if e.next e.tail = 0 then !e.phase else e.phase
                                        unsig := if r.noirq then e.unsig else e.unsig + 1 }
  (s.signal q).aqSettle.resetIfDone

/-- COMPLETION_RECORD_WRITE. -/
def execCompletionRecordWrite (q : Nat) (s : State) : Res :=
  unit q 8192 <|
    match s.host.recs.find? fun x => s.effCeq x.1 == q with
    | none => .next s
    | some x => when (s.que q).room s (s.writeRec q x.2)

/-- MSIX_TIMER. -/
def execMsixTimer (q us : Nat) (s : State) : Res :=
  unit q 8192 <|
    let e := s.que q
    when (e.typ == 2 && e.arm && decide (e.unsig > 0 ∧ us ≥ e.tmr)) s (s.fire q)

/-! ## Admin queues (R357) -/

/-- The fields of SES_AQ_CFG other than EN, taken only while ACT is 0. -/
def State.aqFields (s : State) (v : W32) : State :=
  if s.aqAct then s
  else s.updHost fun h => { h with sqlog2 := bitsOf v 29 25, cqlog2 := bitsOf v 24 20, aqVec := bitsOf v 10 0 }

/-- Reads of descriptors of queue 0 are dropped. -/
def State.dropAdmin (s : State) : State :=
  s.updHost fun h => { h with reads := h.reads.filter fun r => !(r.use == 0 && r.q == 0) }

/-- EN = 1: both queues empty, PHASE 1, the CEQ armed [50]. Each RW field takes what is written (R11); sizes are the driver's to keep
within 4 to 12. -/
def State.aqOn (s : State) (v : W32) : State :=
  let t := ((s.aqFields v).updHost fun h => { h with aqEn := true }).dropAdmin
  let t := t.updQue 0 fun e => { e with st := 1, log2n := t.host.sqlog2, base := t.host.sqb.toNat, head := 0, tail := 0 }
  t.updQue 1 fun e => { e with st := 1, log2n := t.host.cqlog2, base := t.host.cqb.toNat, head := 0, tail := 0, phase := true, arm := true
                               cnt := 0, tmr := 0, unsig := 0, vec := t.host.aqVec }

/-- EN = 0: entries not fetched are discarded; fetched commands go on. -/
def State.aqOff (s : State) (v : W32) : State :=
  let t := ((s.aqFields v).updHost fun h => { h with aqEn := false }).dropAdmin
  (t.updQue 0 fun e => { e with st := 0, tail := e.head }).aqSettle

/-- AQ_ENABLE: a write of SES_AQ_CFG with EN = 1. -/
def execAqEnable (v : W32) (s : State) : Res := when (s.barOpen && v.getLsbD 31) s (s.aqOn v)

/-- AQ_DISABLE: a write of SES_AQ_CFG with EN = 0. -/
def execAqDisable (v : W32) (s : State) : Res := when (s.barOpen && !v.getLsbD 31) s (s.aqOff v)

/-! ## BAR0 (R11, R13, R435 to R437) -/

/-- Half `hi` of a 64-bit quantity replaced. -/
def setHalf (x : W64) (hi : Bool) (v : W32) : W64 := if hi then v ++ x.setWidth 32 else (x >>> 32).setWidth 32 ++ v

/-- A word of the MSI-X table: unmasking a pending vector sends it. -/
def State.msixPut (s : State) (o : Nat) (v : W32) : State :=
  let s := s.updHost fun h => { h with msix := tput h.msix o v }
  let n := (o - 0x20000) / 16
  let w := 0x28000 + 4 * (n / 32)
  if o % 16 = 12 ∧ !v.getLsbD 0 ∧ (tget 0#32 s.host.msix w).getLsbD (n % 32) then
    (s.updHost fun h => { h with msix := tupd 0#32 h.msix w fun x => x &&& ~~~(BitVec.ofNat 32 (2 ^ (n % 32))) }).emit (.msix n)
  else s

/-- The W1C flags of an array. -/
def clearFlag (f : Byte) (v : W32) (i : Nat) : Byte := f &&& ~~~(BitVec.ofNat 8 (bitsOf v (8 * i + 7) (8 * i)))

/-- The effect of a write of word `v` at BAR0 offset `o`, by the access codes of its register; none for any other (R11, R13). -/
def State.writeWord (s : State) (o : Nat) (v : W32) : State :=
  match o with
  | 0x10110 => s.updHost fun h => { h with sqb := setHalf h.sqb false v }
  | 0x10114 => s.updHost fun h => { h with sqb := setHalf h.sqb true v }
  | 0x10118 => s.updHost fun h => { h with cqb := setHalf h.cqb false v }
  | 0x1011C => s.updHost fun h => { h with cqb := setHalf h.cqb true v }
  | 0x10120 => if v.getLsbD 31 then s.aqOn v else s.aqOff v
  | _ =>
    if 0x20000 ≤ o ∧ o < 0x28000 then s.msixPut o v
    else if 0x600000 ≤ o ∧ o < 0x800000 then
      let c := (o - 0x600000) / 4096
      match o % 4096 with
      | 0x028 => s.updCore c fun k => { k with vflags := clearFlag k.vflags v 0 }
      | 0x02C => s.updCore c fun k => { k with waitLimit := v }
      | 0x104 => s.updCore c fun k =>
          { k with arr0 := { k.arr0 with flags := clearFlag k.arr0.flags v 0 }, arr1 := { k.arr1 with flags := clearFlag k.arr1.flags v 1 }
                   arr2 := { k.arr2 with flags := clearFlag k.arr2.flags v 2 }, arr3 := { k.arr3 with flags := clearFlag k.arr3.flags v 3 } }
      | _ => s
    else if 0xC00100 ≤ o ∧ o < 0xC00160 ∧ o % 16 = 0 then s.updEng ((o - 0xC00100) / 16) fun e => { e with flags := clearFlag e.flags v 0 }
    else s

/-- A BAR0 write: 4 bytes aligned to 4 or 8 aligned to 8; any other is ignored (R436). -/
def State.bar0Write (s : State) (off size : Nat) (v : W64) : State :=
  if size = 4 ∧ off % 4 = 0 then s.writeWord off (v.setWidth 32)
  else if size = 8 ∧ off % 8 = 0 then (s.writeWord off (v.setWidth 32)).writeWord (off + 4) ((v >>> 32).setWidth 32)
  else s

/-- The access lies in BAR0. -/
def State.inBar0 (s : State) (off size : Nat) : Bool := s.barOpen && decide (0 < size ∧ off + size ≤ 2 ^ 25)

/-- REGISTER_WRITE. -/
def execRegisterWrite (off size : Nat) (v : W64) (s : State) : Res := when (s.inBar0 off size) s (s.bar0Write off size v)

/-- W1C_WRITE. -/
def execW1cWrite (off size : Nat) (v : W64) (s : State) : Res := when (s.inBar0 off size) s (s.bar0Write off size v)

/-- Byte `a` of BAR0. -/
def State.bar0Byte (s : State) (a : Nat) : Byte := (wordBytes (s.regWord (a / 4 * 4))).getD (a % 4) 0#8

/-- RC_FIELD_READ: the bytes are returned; a read of 4 or 8 aligned bytes clears the RC fields that it covers. -/
def execRcFieldRead (off size : Nat) (s : State) : Res :=
  when (s.inBar0 off size) s <|
    let t := s.emit (.readData ((List.range size).map fun i => s.bar0Byte (off + i)) false)
    if size = 4 ∧ off % 4 = 0 then t.rcClear off
    else if size = 8 ∧ off % 8 = 0 then (t.rcClear off).rcClear (off + 4)
    else t

/-! ## Management target (R356) -/

/-- The target answers private transfers. -/
def State.i3cOn (s : State) : Bool := s.mod.standby && s.host.i3cAddr.isSome

/-- I3C_SUBMIT. -/
def execI3cSubmit (bytes : List Byte) (s : State) : Res :=
  when s.i3cOn s <|
    if (s.que 8190).count ≥ 15 then s.emit .i3cNack
    else if bytes.length < 64 then s.dbErr 8190
    else (s.updHost fun h => { h with tray := h.tray ++ [bytesWords (bytes.take 64)] }).updQue 8190 fun e => { e with tail := e.next e.tail }

/-- PHASE of the oldest record on queue 8191. -/
def State.trayPhase (s : State) : Bool :=
  let e := s.que 8191
  if e.head < e.tail then e.phase else !e.phase

/-- I3C_FETCH. -/
def execI3cFetch (s : State) : Res :=
  when s.i3cOn s <|
    match s.host.trayRecs with
    | [] => s.emit (.i3cData (List.replicate 32 0#8))
    | r :: rs =>
      ((s.updHost fun h => { h with trayRecs := rs }).updQue 8191 fun e => { e with head := e.next e.head }).emit (.i3cData (r.bytes s.trayPhase))

/-- I3C_STATUS. -/
def execI3cStatus (s : State) : Res :=
  when s.i3cOn s <|
    let n := s.host.trayRecs.length
    s.emit (.i3cData (wordBytes (wordOf [fldAt 0 1 (b2n s.host.ready), fldAt 1 1 (b2n (decide ((s.que 8190).count ≥ 15))), fldAt 2 1 (b2n (decide (n > 0))),
      fldAt 16 8 n])))

/-- I3C_BUFREAD; an offset that is no multiple of 4 or not in the buffer, or more than 256 bytes, is not acknowledged [52]. -/
def execI3cBufread (off len : Nat) (s : State) : Res :=
  when s.i3cOn s <|
    if off % 4 ≠ 0 ∨ off ≥ 65536 ∨ len > 256 then s.emit .i3cNack
    else s.emit (.i3cData ((List.range len).map fun i => if off + i < 65536 then cellGet s.host.fbuf (off + i) else 0#8))

/-- I3C_ADDRESS_ASSIGN: by SETDASA, or by ENTDAA while the target has no dynamic address. -/
def execI3cAddressAssign (entdaa : Bool) (addr : Nat) (s : State) : Res :=
  when (s.mod.standby && decide (addr < 128) && !(entdaa && s.host.i3cAddr.isSome)) s (s.updHost fun h => { h with i3cAddr := some addr })

/-! ## Errors of the hub's links (R394) -/

/-- ETHERNET_LINK_OR_FRAME_ERROR: cause 0x5B; the port counters in INFO are not laid out and are a free value. -/
def execEthernetLinkOrFrameError (port : Nat) (_frame : Bool) (s : State) : Res :=
  unit port 2 (.next (s.report (rep 1 9 0 (1 + port) 0x5B ((Config.freeWord s.free).toNat % 2 ^ 48))).tick)

/-- PCIE_UNCORRECTABLE_ERROR: cause 0x5A with the AER status. -/
def execPcieUncorrectableError (aer : Nat) (s : State) : Res := .next (s.report (rep 2 9 0 0 0x5A (aer % 2 ^ 48)))

end Sys2Proof.Machine
end

