-- ==== Sys2Proof/Machine/MatrixOps.lean ====
section
/-! DEFINITION. The arrays' commands (03): feeder loads, matrix operations, emissions, drains, ring configuration and
clears, each acting once the interlocks of R87 allow. -/

namespace Sys2Proof.Machine

/-- The issue limit L of core `c`'s die permits cycles (R74): at L = 0 no matrix cycle is permitted. -/
def State.issueOn (s : State) (c : Nat) : Bool := decide ((s.gate (c / 64)).eff > 0)

/-- The counter add of an array operation's TRG (R88). -/
def State.arrTrg (s : State) (c a : Nat) (t : Option Nat) : State := s.ctrTrg (.array c a) t

/-- Source byte addresses of an FLD in buffer order (R85). -/
def fldBytes (o : MOp) : List Nat :=
  if fldScl o.raw then (List.range o.fldN).map fun i => (4 * o.fldSrc + i) % 2 ^ 31
  else (List.range o.fldN).flatMap fun r => (List.range o.fldE).flatMap fun e =>
    (List.range (elSize (fldFmt o.raw))).map fun b => (fldByte o r e + b) % 2 ^ 31

/-- The line reads of an FLD. -/
def fldReqs (c : Nat) (o : MOp) : List BankReq := lineReads (.fld c o.id) c (((fldBytes o).map (· / 4)).dedup)

/-- FLD_START (R86): the head of the feeder-load queue starts when none is in progress and its interlocks allow; its reads are
sent. -/
def execFldStart (c : Nat) (s : State) : Res :=
  unit c 512 <|
    let k := s.core c
    match k.fldq with
    | [] => .next s
    | f :: q => when (k.fldRun.isNone && fldFree k f) s
        ((s.updCore c fun k => { k with fldq := q, fldRun := some { op := f, left := (fldReqs c f).length, got := [] }, async := true }).sendReqs
          c 1 (fldReqs c f))

/-- Byte `a` of the words read, with its word's mark. -/
def byteOf (ws : List (Nat × W32 × Bool)) (a : Nat) : Byte × Bool :=
  (BitVec.ofNat 8 ((wordIn ws (a / 4)).1.toNat / 2 ^ (8 * (a % 4))), (wordIn ws (a / 4)).2)

/-- An element read spoiled marks its whole record, `n` bytes a record (R89). -/
def markRecords (n : Nat) (bs : List (Byte × Bool)) : List (Byte × Bool) :=
  (List.range ((bs.length + n - 1) / n)).flatMap fun i =>
    let r := (bs.drop (i * n)).take n
    r.map fun b => (b.1, r.any (·.2))

/-- Loads bytes into one array's buffer, each with its spoil mark (R85, R89). -/
def loadBuf (x : Arr) (b : Bool) (off : Nat) (bs : List (Byte × Bool)) : Arr :=
  bs.zipIdx.foldl (fun y p =>
    if b then { y with bBuf := cellPut y.bBuf (off + p.2) p.1.1, bSp := setTo y.bSp (off + p.2) p.1.2 }
    else { y with aBuf := cellPut y.aBuf (off + p.2) p.1.1, aSp := setTo y.aSp (off + p.2) p.1.2 }) x

/-- Loads codes into one array's scale file. -/
def loadScl (x : Arr) (b : Bool) (off : Nat) (bs : List (Byte × Bool)) : Arr :=
  bs.zipIdx.foldl (fun y p =>
    if b then { y with bScl := tput y.bScl (off + p.2) p.1.1, bSclSp := setTo y.bSclSp (off + p.2) p.1.2 }
    else { y with aScl := tput y.aScl (off + p.2) p.1.1, aSclSp := setTo y.aSclSp (off + p.2) p.1.2 }) x

/-- FLD_COMPLETE (R88): with every line read, every named buffer is written, then the counter raised. -/
def execFldComplete (c : Nat) (s : State) : Res :=
  unit c 512 <|
    match (s.core c).fldRun with
    | none => .next s
    | some f =>
      if f.left = 0 then
        let o := f.op
        let bytes := (fldBytes o).map (byteOf f.got)
        let data := if fldScl o.raw then bytes else markRecords (o.fldE * elSize (fldFmt o.raw)) bytes
        let s := s.updCore c fun k => (List.range 4).foldl (fun k a =>
          if nbit (fldMask o.raw) a then
            k.updArr a fun x =>
              if fldScl o.raw then loadScl x (fldB o.raw) o.fldOff data else loadBuf x (fldB o.raw) o.fldOff data
          else k) { k with fldRun := none, async := true }
        .next (s.ctrTrg (.core c 0 0) (mTrg o.raw))
      else .next s

/-- MMA_START (R87): the MMA at the head of array `a`'s queue starts when no MMA is in progress and its operands are
present; its updates run on to the next emission boundary or its last k-step (R68, R77). -/
def execMmaStart (c a : Nat) (s : State) : Res :=
  unit c 512 <| unit a 4 <|
    let k := s.core c
    let x := k.arr a
    match x.opq with
    | [] => .next s
    | o :: q =>
      when (mopOf o.raw == 8 && x.mma.isNone && mmaFree k a o && s.issueOn c) s
        (s.updCore c fun k => { (k.updArr a fun x =>
          let x := { x with opq := q }
          mmaGo (if mmaAZ o.raw then mmaZero x o else x) o 0) with async := true })

/-- MMA_COMPLETE (R73): the last update is in the tile; the counter of TRG is raised. -/
def execMmaComplete (c a : Nat) (s : State) : Res :=
  unit c 512 <| unit a 4 <|
    match ((s.core c).arr a).mma with
    | none => .next s
    | some m =>
      if m.done && !m.emit && s.issueOn c then
        .next ((s.updCore c fun k => { (k.updArr a fun x => { x with mma := none }) with async := true }).arrTrg c a (mTrg m.op.raw))
      else .next s

/-- The write requests of an emission. -/
def emitReqs (c a : Nat) (e : EmitW) : List BankReq :=
  wordWrites (.emit c a e.id) c (e.words.zipIdx.map fun w => ((e.base + w.2) % 2 ^ 29, w.1, e.spoil))

/-- EXACT_EMISSION (R77, R80): at a boundary, with a free slot, the tile goes to the next slot of the ring and is set
to +0, and the operation goes on. -/
def execExactEmission (c a : Nat) (s : State) : Res :=
  unit c 512 <| unit a 4 <|
    let x := (s.core c).arr a
    match x.mma with
    | none => .next s
    | some m =>
      if m.emit && decide (x.ringFree > 0) && s.issueOn c then
        let acc := mAcc m.op.raw
        let e0 : EmitW := { id := (s.core c).nextId, op := m.op.id, base := (x.ringBase + 1024 * x.ringNext) % 2 ^ 29, words := tileWords x acc,
                            spoil := x.accSp.contains acc, ctr := x.ringCtr, left := 0 }
        let e := { e0 with left := (emitReqs c a e0).length }
        let y := { clearTile x acc with emits := x.emits ++ [e], ringFree := x.ringFree - 1, ringNext := (x.ringNext + 1) % x.ringS }
        let z := if m.done then { y with mma := some { m with emit := false } } else mmaGo y m.op m.k
        .next ((s.updCore c fun k => { (k.updArr a fun _ => z) with async := true, nextId := k.nextId + 1 }).sendReqs c 1 (emitReqs c a e0))
      else .next s

/-- EMISSION_PERFORMED (R80): the oldest emission's words have been written at their banks, and the ring's counter is raised. -/
def execEmissionPerformed (c a : Nat) (s : State) : Res :=
  unit c 512 <| unit a 4 <|
    match ((s.core c).arr a).emits with
    | [] => .next s
    | e :: q =>
      when (e.left == 0) s
        ((s.updCore c fun k => { (k.updArr a fun x => { x with emits := q }) with async := true }).ctrAsk (.array c a) e.ctr (.add 1#48))

/-- The codes of a Q8 drain's scale vector with the marks of their words (R81), none for another target. -/
def drainCodes (o : MOp) (ws : List (W32 × Bool)) : List (Nat × Bool) :=
  if drnFmt o.raw ≠ 0 then []
  else (List.range 32).map fun i =>
    let w := ws.getD (i / 4) (0#32, false)
    (w.1.toNat / 2 ^ (8 * (i % 4)) % 256, w.2)

/-- Every row of a drain: words, flags, rewritten code, mark. A row is also marked where the word of its code is spoiled, for R81 and
R89 do not say what such a code does to its row [179]. -/
def drainRows (x : Arr) (o : MOp) (seed step : W64) (home a : Nat) (codes : List (Nat × Bool)) :
    List (List W32 × Nat × Option Byte × Bool) :=
  let acc := mAcc o.raw
  (List.range 32).map fun i =>
    let cells := (List.range 32).map fun j => tget 0#32 x.acc (cellKey acc i j)
    let cd := codes.getD i (127, false)
    let r := drainRow o cells i seed step home (64 + a) cd.1
    (r.1, r.2.1, r.2.2, x.accSp.contains acc || cd.2)

/-- The drain at the head of the queue reads and converts its tile with the words `ws` of its scale vector (none unless Q8); its
draws are keyed by the step and home core of its issue (R83, R109). -/
def drainOf (x : Arr) (o : MOp) (seed : W64) (a : Nat) (ws : List (W32 × Bool)) : DrainW × Nat :=
  let rows := drainRows x o seed o.step o.home a (drainCodes o ws)
  ({ id := o.id, base := o.drnBase, strd := o.drnStride, rows := rows.map fun y => y.1.map fun v => (v, y.2.2.2),
     codes := rows.zipIdx.filterMap fun y => y.1.2.2.1.map fun b => ((4 * o.drnVec + y.2) % 2 ^ 31, b, y.1.2.2.2),
     add := drnAdd o.raw, trg := mTrg o.raw, phase := 0, left := 0, got := [] },
   rows.foldl (fun f y => f ||| y.2.1) 0)

/-- The words of a Q8 drain's scale vector. -/
def MOp.vecWords (o : MOp) : List Nat := wordsFrom o.drnVec 8

/-- DRN_READ (R84): the drain at the head of the queue reads and converts its tile once every earlier MMA on it has completed; CLR
then clears the tile, and the writes are sent as R87 allows. A Q8 drain first reads its scale vector (R81). -/
def execDrnRead (c a : Nat) (s : State) : Res :=
  unit c 512 <| unit a 4 <|
    let x := (s.core c).arr a
    match x.opq with
    | [] => .next s
    | o :: q =>
      let busy := match x.mma with
        | some m => mAcc m.op.raw == mAcc o.raw
        | none => false
      if mopOf o.raw == 0x10 && !busy && s.issueOn c then
        match decide (drnFmt o.raw = 0), x.vec with
        | true, none =>
          let qs := lineReads (.vec c a o.id) c o.vecWords
          .next ((s.updCore c fun k => k.updArr a fun x => { x with vec := some { id := o.id, left := qs.length, got := [] } }).sendReqs c 1 qs)
        | true, some v => if v.left = 0 then .next (go s x o q (o.vecWords.map (wordIn v.got))) else .next s
        | false, _ => .next (go s x o q [])
      else .next s
where
  /-- The read itself. -/
  go (s : State) (x : Arr) (o : MOp) (q : List MOp) (ws : List (W32 × Bool)) : State :=
    let r := drainOf x o (s.envOf c).seed a ws
    (s.updCore c fun k => { (k.updArr a fun x =>
      let x := { x with opq := q, vec := none, drains := x.drains ++ [r.1], flags := orFlags x.flags r.2 }
      if drnClr o.raw then wipeTile x (mAcc o.raw) else x) with async := true }).sendDrains c

/-- DRN_COMPLETE (R88): every write of array `a`'s oldest drain has been performed at its bank; the counter is raised, and the
drains that waited for it (R87) start. -/
def execDrnComplete (c a : Nat) (s : State) : Res :=
  unit c 512 <| unit a 4 <|
    match ((s.core c).arr a).drains with
    | [] => .next s
    | d :: q =>
      when (d.phase == 2 && d.left == 0) s
        (((s.updCore c fun k => { (k.updArr a fun x => { x with drains := q }) with async := true }).arrTrg c a d.trg).sendDrains c)

/-- EMC_PERFORM (R80, R87): the ring is configured once every earlier MMA with EXM = 1 has completed. -/
def execEmcPerform (c a : Nat) (s : State) : Res :=
  unit c 512 <| unit a 4 <|
    let x := (s.core c).arr a
    match x.opq with
    | [] => .next s
    | o :: q =>
      let busy := match x.mma with
        | some m => mmaEXM m.op.raw
        | none => false
      when (mopOf o.raw == 0x14 && !busy && s.issueOn c) s
        (s.updCore c fun k => { (k.updArr a fun x => { x with opq := q, ringBase := o.emcBase, ringS := o.emcS, ringFree := o.emcS,
                                                               ringNext := 0, ringCtr := o.emcCtr }) with async := true })

/-- MCLR_ACT (R87): the named tiles are cleared with their spoil flags, and with SCLR both scale files hold 127. -/
def execMclrAct (c a : Nat) (s : State) : Res :=
  unit c 512 <| unit a 4 <|
    let x := (s.core c).arr a
    match x.opq with
    | [] => .next s
    | o :: q =>
      let mask := sf o.raw 55 48
      let scl := nbit o.raw.toNat 47
      let busy := match x.mma with
        | some m => scl || nbit mask (mAcc m.op.raw)
        | none => false
      when (mopOf o.raw == 0x18 && !busy && s.issueOn c) s
        (s.updCore c fun k => { (k.updArr a fun x =>
          let x := { x with opq := q }
          let x := (List.range 8).foldl (fun y t => if nbit mask t then wipeTile y t else y) x
          if scl then { x with aScl := [], bScl := [], aSclSp := [], bSclSp := [] } else x) with async := true })

end Sys2Proof.Machine
end

