-- ==== Sys2Proof/Machine/Startup.lean ====
section
/-! DEFINITION. Start-up (15 R413, R417, R418, R423 to R426, Table 15-7): boot, gate and journals, then rails, floor, stacks, engines,
retirements and READY (05 Table 5-5, 06 Table 6-4, 08 Table 8-10, 14 R397, 13 R380). -/

namespace Sys2Proof.Machine

/-! ## Steps 1 to 3 (R426) -/

/-- A bank passes the boot ROM's checks. -/
def Module.bankOk (m : Module) (b : FwBank) (i : Nat) : Bool :=
  b.valid && decide (m.svnFuse ≤ b.svn ∧ b.svn ≤ 63) && !(m.staged == 2 && i == 1 - m.bank)

/-- The bank that boots: the selected one, or the other where it fails the checks or three start-ups from it failed. -/
def Module.bootBank (m : Module) (a b : FwBank) : Option Nat :=
  let ok := fun (i : Nat) => m.bankOk (if i = 0 then a else b) i
  let o := 1 - m.sel
  if ok m.sel && !(decide (m.failBoot ≥ 3) && ok o) then some m.sel else if ok o then some o else none

/-- The image of bank `i` runs. A change of bank is recorded in the selector and reported where the boot ROM made it. -/
def State.bootFrom (s : State) (i : Nat) (b : FwBank) : State :=
  let fell : Bool := i != s.mod.sel
  let s := s.updMod fun m =>
    { m with bank := i, svn := b.svn, fwver := b.fwver, pend := false, step := 3
             staged := if i = m.bank then m.staged else 0, okBoots := if i = m.bank then m.okBoots else 0
             sel := i, selSeq := if fell then m.selSeq + 1 else m.selSeq, failBoot := if fell then 0 else m.failBoot }
  if fell then s.report (rep 2 9 0 7 0x67 i) else s

/-- STARTUP_INPUT_UP: steps 1 to 3. With no bootable bank the hub stays at PHASE 1. -/
def execStartupInputUp (vin : Nat) (a b : FwBank) (s : State) : Res :=
  when (decide (vin ≥ 4000) && s.mod.step == 0 && s.mod.hold == 0 && s.mod.pf == 0) s <|
    let s := s.updMod fun m => { m with standby := true, vin := min 65535 vin, svnFuse := max m.svnFuse (Config.svnFuse % 64) }
    let s : State := if s.mod.perst || s.host.cfgOn then s else s.linkTrain
    let s := s.updHost fun h => { h with phase := 1 }
    match s.mod.bootBank a b with
    | none => s.updMod fun m => { m with step := 2 }
    | some i => s.bootFrom i (if i = 0 then a else b)

/-! ## Steps 4 and 5 (R413, R417, R423) -/

/-- Usable energy in 0.1 J of `cap` in 10 mF at `v` in 10 mV (R417). -/
def storeEnergy (cap v : Nat) : Nat := min 65535 (cap * (v * v - 360000) / 200000)

/-- A measurement of C: CAP, and WORN below 1.10 F, reported once per power-on. -/
def State.measureCap (s : State) (cap : Nat) : State :=
  let s := s.updMod fun m => { m with cap := min 255 cap, ss := if cap < 110 then 3 else m.ss }
  if cap < 110 ∧ !s.mod.wornSaid then (s.updMod fun m => { m with wornSaid := true }).report (rep 1 9 0 9 0x63 cap) else s

/-- What the journal scan finds: invalid records, and a flush that was truncated or is missing. -/
def State.scanned (s : State) (f : ScanFind) : State :=
  let s := f.invalid.foldl (fun (a : State) x => a.report (rep 1 9 0 9 0x66 x)) s
  match s.mod.jrecs.getLast? with
  | some r => if r.kind = 5 then s.report (rep 2 9 0 9 0x65 (r.a + 65536 * r.b))
    else if f.missing then s.report (rep 2 9 0 9 0x65 (65536 * s.mod.flPlan)) else s
  | none => if f.missing then s.report (rep 2 9 0 9 0x65 (65536 * s.mod.flPlan)) else s

/-- NODE_ID is read. -/
def State.readNode (s : State) (node : Nat) : State :=
  let n := node % 65536
  let s := (s.updFab fun f => { f with phys := n }).updMod fun m => { m with nodebad := !nodeExists n }
  if nodeExists n then s else s.report (rep 2 9 0 9 0x68 n)

/-- The bus is up: the store charges, or keeps the last measured value where it stood above 12.0 V. -/
def State.busUp (s : State) (node : Nat) (f : ScanFind) (vstore cap : Nat) : State :=
  let s := s.updMod fun m => { m with hs := 2, step := 5, ss := 0, coolWait := m.coolWait || !s.power.coolOk }
  let s := (s.updHost fun h => { h with phase := 2 }).readNode node
  let s : State := if vstore ≤ 1200 then s.measureCap cap else s
  (s.updMod fun m => { m with euse := storeEnergy m.cap vstore }).scanned f

/-- STARTUP_GATE_RAMP: a gate that is OFF without a trip begins its ramp; a gate in RAMP or RETRY, or already ON, brings the bus up. -/
def execStartupGateRamp (ms node : Nat) (f : ScanFind) (vstore cap : Nat) (s : State) : Res :=
  when (decide (ms ≥ 100) && s.mod.standby && decide (3 ≤ s.mod.step) && s.mod.pf == 0 && s.mod.hs != 4) s <|
    if s.mod.hs = 0 then (if s.mod.retries = 0 then s.updMod fun m => { m with hs := 1, step := max 4 m.step } else s)
    else if s.mod.step ≤ 4 then s.busUp node f vstore cap
    else s.updMod fun m => { m with hs := 2 }

/-! ## Step 7: trims (R369, R370) -/

/-- The start-up calibration's trim, FMAX and slack of die or terrace `i`. -/
def State.calibrate (s : State) (f : StartFind) (i : Nat) : State :=
  let t := f.trim.getD i 0
  let x := f.fmax.getD i 210
  let old := (s.power.dfmax.find? fun e => e.1 == i).map (·.2)
  let same : Bool := old == some x && tget 0 s.power.vtrim i == t
  let s := s.updPower fun p =>
    { p with vtrim := tput p.vtrim i t, dfmax := tput p.dfmax i x, margin := tput p.margin i (min 255 (f.slack.getD i 0)) }
  if same then s else (s.trimEntry i).fmaxReport i (old.getD 255)

/-- Rails rise; trims, FMAX and FFCAP. -/
def State.startRails (s : State) (f : StartFind) : State :=
  let s := (s.updMod fun m => { m with rails := true, coolWait := false, step := 7 }).updPower fun p => { p with coolStop := false }
  let s := (s.updHost fun h => { h with phase := 3 })
  let s := (List.range 12).foldl (fun (a : State) i => a.calibrate f i) s
  s.updPower fun p =>
    { p with fmax := p.minFmax, ffcap := f.full && decide (p.minFmax ≥ 180), tj := tputAll p.tj (f.temps.zipIdx.map fun e => (e.2, e.1)) }

/-! ## Step 8: floor (Table 5-5) -/

/-- A group that cannot be repaired; the core of a bond group is retired at once. -/
def State.groupLost (s : State) (c g : Nat) : State :=
  let s := s.unrepair c g
  if c < 512 then (s.retireCore c).finishRetire c 0x06 else s

/-- A lane of the fuse map: on the spare, counted, neither reported nor written; a second one in its group is beyond repair. -/
def State.fuseLane (s : State) (x : Nat × Nat × Nat) : State :=
  match (s.group x.1 x.2.1).spare with
  | none => (s.updGroup x.1 x.2.1 fun k => { k with spare := some x.2.2 }).updBond x.1 fun b => { b with spared := b.spared + 1 }
  | some l => if l = x.2.2 then s else s.groupLost x.1 x.2.1

/-- A group with failing lanes: one lane takes a free spare; otherwise each lane is reported, the group cannot be repaired and its core
is retired. -/
def State.bondTested (s : State) (c g : Nat) (lanes : List Nat) : State :=
  match lanes.filter fun l => (s.group c g).spare != some l with
  | [] => s
  | l :: ls =>
    if (s.group c g).spare.isNone && ls.isEmpty then s.laneSpared c g l
    else (((l :: ls).foldl (fun (a : State) x => a.laneFound c g x) s)).groupLost c g

/-- The floor's arbiters, stop indexes, queues and credits at their reset values, and every word +0 (Table 5-5). -/
def State.clearFloor (s : State) : State :=
  s.updFloor fun f => { f with ram := Ram.empty, banks := [], groups := [], spent := [], owed := [], outq := [], stops := [], stopRot := [] }

/-- Fuse map, bond self-test and mesh test; a failure of the mesh test is fatal before the floor is ready. Every word reads +0; scrub and
self-test start. -/
def State.startFloor (s : State) (f : StartFind) : State :=
  let s := f.fuse.foldl State.fuseLane s.clearFloor
  let keys := (f.bond.map fun x => (x.1, x.2.1)).dedup
  let s := keys.foldl (fun (a : State) k => a.bondTested k.1 k.2 ((f.bond.filter fun x => (x.1, x.2.1) == k).map (·.2.2)).dedup) s
  match f.mesh with
  | some i => s.report (rep 3 8 (i / 128 % 4) 128 0x09 i)
  | none =>
    let s := (List.range 4).foldl (fun (a : State) t => a.updTerr t fun k => { k with ready := true, scrub := true, bist := true }) s
    s.updHost fun h => { h with phase := 4 }

/-! ## Step 9: stacks and engines (Tables 6-4, 8-10) -/

/-- Rows of a stack that the ledger records, by their first units' offsets: hard repair puts spare rows in their place. -/
def State.ledgerRows (s : State) (st : Nat) : List Nat :=
  (((s.flt.ledger ++ s.flt.ledgq).filter fun e => e.typ == 4 && e.die == 16 + st).map fun e => fieldLe e.body 0 8).dedup

/-- A stack after Table 6-4, at its sensor's reading (R153) [164]. It is DEGRADED below 10.0 Gb/s, or with ledger rows that its spare rows
do not cover (R169, R172). -/
def State.startStack (s : State) (st : Nat) (f : StackFind) : State :=
  let s := (s.updStack st fun k =>
    { k with rate := min 3 f.rate, scrub := true, ppr := min 255 (min f.repairs (s.ledgerRows st).length), selfref := false }).stackTemp st
      (tget 0 s.power.tj (19 + st))
  if !f.ident ∨ f.rate = 0 ∨ f.lane then s.failStack st
  else if f.rate < 3 then
    ((s.updStack st fun k => { k with st := 2 }).report (stackRep 1 st 32 0x13 f.rate)).ledg 5 (16 + st) 0 32 [BitVec.ofNat 8 f.rate]
  else
    ((s.ledgerRows st).drop f.repairs).foldl (fun (a : State) so => a.report (stackRep 1 st (chanOf so) 0x12 so))
      (s.updStack st fun k => { k with st := if f.repairs < (s.ledgerRows st).length then 2 else 1 })

/-- The comb inputs are measured and one is selected; with neither OK the ports stay DARK (R216, R218). -/
def State.startLight (s : State) (f : StartFind) : State :=
  let x := combState f.combA
  let y := combState f.combB
  let s := (s.combRead f.combA f.combB).updLight fun l => { l with sel := if x = 1 then 0 else if y = 1 then 1 else l.sel }
  if !s.combOk then s.combLost
  else (List.range 6).foldl (fun (a : State) p => a.startEngine p (f.engines.getD p { rx := [], tx := [] })) s

/-! ## Step 10: retirements (R397) -/

/-- A ledger entry marks core `c` or its home region. -/
def Ledg.marks (e : Ledg) (c : Nat) : Bool :=
  (e.die == c / 64 && (e.unit == c % 64 || e.unit == 64)) || (e.die == 8 && e.sub == c / 128 && e.unit == c % 128)

/-- Whether core `c` is retired and its banks, as the entries that mark them leave them. -/
def ledgerMark (c : Nat) (a : Bool × W32) (e : Ledg) : Bool × W32 :=
  if !e.marks c then a
  else if e.typ = 2 then (false, 0#32)
  else if e.typ = 1 then
    (if e.die = 8 then (a.1, a.2 ||| BitVec.ofNat 32 (fieldLe e.body 1 4)) else (true, a.2))
  else a

/-- Core `c` and its banks are retired again. -/
def State.restoreCore (s : State) (c : Nat) : State :=
  let x := (s.flt.ledger ++ s.flt.ledgq).foldl (ledgerMark c) (false, 0#32)
  let s : State := if x.2 = 0#32 then s else s.updFloor fun f => { f with retbank := tput f.retbank c x.2 }
  if x.1 then s.updCore c fun k => { k with st := .stopped, retired := true } else s

/-! ## Step 11 -/

/-- READY and event 0x0001 on the tray CEQ, and on the admin CEQ where it is enabled (R333, R357 example); after three such start-ups the counter follows the image's SVN (R427). -/
def State.startReady (s : State) : State :=
  let s := s.updHost fun h => { h with ready := true, phase := 7 }
  let s := s.updMod fun m =>
    { m with step := 11, failBoot := 0, okBoots := m.okBoots + 1, svnFuse := if m.okBoots + 1 ≥ 3 then max m.svnFuse m.svn else m.svnFuse }
  let s : State := if (s.que 1).st = 1 then s.postRec 1 (recEvent 1 0#32 0#32 0#32) else s
  s.postRec 8191 (recEvent 1 0#32 0#32 0#32)

/-- The power state of R380. -/
def State.startPower (s : State) : State :=
  let p := s.power
  (s.updPower fun _ => p.setMode (if p.ffcap then (0, 180, 0) else (1, p.fmax, 0))).shareBudget

/-- Steps 9 to 11, which a fatal finding of the floor forestalls. -/
def State.startDies (s : State) (f : StartFind) : State :=
  if !s.flt.pendFatal.isEmpty then s
  else
    let s := (List.range 12).foldl (fun (a : State) st => a.startStack st (f.hbms.getD st { ident := false, rate := 0, lane := false, repairs := 0 })) s
    ((((List.range 512).foldl State.restoreCore (s.startLight f)).startPower)).startReady

/-- Step 6 is satisfied: 60 J in the store, and the conditions of R378 where the device waits for them. -/
def State.mayRise (s : State) : Bool :=
  s.mod.step == 5 && s.mod.hs == 2 && decide (s.mod.euse ≥ 600) && s.mod.pf == 0 && !s.flt.fatal && s.mod.sdStep == 0 &&
    (!(s.mod.coolWait || !s.power.coolOk) || s.power.exitOk)

/-- STARTUP_MAIN_RAILS: steps 7 to 11. -/
def execStartupMainRails (f : StartFind) (s : State) : Res :=
  when s.mayRise s (((s.startRails f).startFloor f).startDies f)

end Sys2Proof.Machine
end

