-- ==== Sys2Proof/Machine/ModuleRows.lean ====
section
/-! DEFINITION. The module's events (15): input and power failure, hot-swap gate, hold-up store, flash sectors, orderly shutdown and the
service panel. -/

namespace Sys2Proof.Machine

/-- The standby domain runs and no power-fail sequence does. -/
def State.powered (s : State) : Bool := s.mod.standby && s.mod.pf == 0

/-! ## Power failure (R416, R419, R420) -/

/-- An input failure by kind: 0 below 38.0 V for 20 µs, 1 the gate open with the main rails up, 2 MOD_PRESENT_N broken. -/
def State.inputBad (s : State) (kind vin us : Nat) : Bool :=
  match kind with
  | 0 => decide (vin < 3800 ∧ us ≥ 20)
  | 1 => s.mod.rails && s.mod.hs != 2
  | 2 => true
  | _ => false

/-- INPUT_FAILURE: during the supervisor's hold a loss of input only ends the hold. -/
def execInputFailure (kind vin us : Nat) (s : State) : Res :=
  let t := s.updMod fun m => { m with vin := min 65535 vin }
  if s.mod.hold > 0 then when (kind == 0 && s.inputBad kind vin us) s (t.updMod fun m => { m with hold := 0 })
  else when (s.powered && s.inputBad kind vin us) s t.inputFail

/-- One flush unit is written, by its KIND. -/
def State.writeUnit (s : State) (kind : Nat) : State :=
  match kind with
  | 1 => s.writeLedgerUnit
  | 2 => s.writeJrec 2 16 0 0
  | 4 => s.flushCounters
  | _ => s.writeJrec 3 1 0 0

/-- Energy of the store in units of 10⁻⁴ mJ at `v` in 10 mV (R420). -/
def storeE4 (cap v : Nat) : Nat := 5 * cap * (v * v - 360000)

/-- The reserve for one truncation marker, and the cost of a unit of `n` pages, in 10⁻⁴ mJ. -/
def eTrunc : Nat := 2500000
def unitCost (n : Nat) : Nat := (n + 2) * 525000

/-- The flush ends with result `r`, and every internal rail goes off (step 5). -/
def State.flushEnd (s : State) (r : Nat) : State := (s.updMod fun m => { m with lastFl := r, units := [] }).powerOff 1

/-- FLUSH_UNIT: the store's energy is checked; the next unit, TRUNC, or at the first check nothing is written. -/
def execFlushUnit (v : Nat) (s : State) : Res :=
  match s.mod.units with
  | [] => .next s
  | u :: l =>
    when (s.mod.pf == 3) s <|
      let e := storeE4 s.mod.cap v
      let k := s.mod.flDone
      if e < unitCost u.2 + eTrunc then
        if k = 0 ∧ e < eTrunc then s.flushEnd 3 else (s.writeJrec 5 0 k s.mod.flPlan).flushEnd 2
      else
        let s := (s.writeUnit u.1).updMod fun m => { m with units := l, flDone := m.flDone + 1 }
        if l.isEmpty then s.flushEnd 1 else s

/-- INPUT_RETURN: 40.0 V for 100 ms returns the bus to the input; a flush goes on. -/
def execInputReturn (vin ms : Nat) (s : State) : Res :=
  when (s.mod.ss == 2 && decide (vin ≥ 4000 ∧ ms ≥ 100)) s (s.updMod fun m => { m with vin := min 65535 vin, ss := 0 })

/-- SUPERVISOR_HOLD_END: the standby converter is switched on; start-up follows from step 1. -/
def execSupervisorHoldEnd (vin ms : Nat) (s : State) : Res :=
  when ((s.mod.hold == 1 && decide (ms ≥ 100 ∧ vin ≥ 4000)) || (s.mod.hold == 2 && decide (ms ≥ 1000))) s
    (s.updMod fun m => { m with hold := 0, standby := true, vin := min 65535 vin })

/-! ## The hot-swap gate (R414, R415) -/

/-- A trip: the gate opens and the trip is counted and reported; the fourth latches it. With the main rails up it is an input failure. -/
def State.tripGate (s : State) (last : Nat) : State :=
  let latch : Bool := s.mod.retries ≥ 3
  let s := s.updMod fun m => { m with hs := if latch then 4 else 0, lastTrip := last, retries := min 3 (m.retries + 1) }
  let s := s.report (rep 2 9 0 9 0x61 last)
  let s : State := if latch then s.report (rep 2 9 0 9 0x62 0) else s
  if s.mod.rails then s.inputFail else s

/-- The gate conducts or ramps. -/
def State.gateOn (s : State) : Bool := s.powered && (s.mod.hs == 1 || s.mod.hs == 2 || s.mod.hs == 3)

/-- HOTSWAP_FAST_TRIP. -/
def execHotswapFastTrip (amp : Nat) (s : State) : Res := when (s.gateOn && decide (amp ≥ 96)) s (s.tripGate 1)

/-- HOTSWAP_SLOW_TRIP: in ON. -/
def execHotswapSlowTrip (amp ms : Nat) (s : State) : Res :=
  when (s.powered && s.mod.hs == 2 && decide (amp > 48 ∧ ms ≥ 6)) s (s.tripGate 2)

/-- RAMP_TIMEOUT: in RAMP, and in the ramp of a retry. -/
def execRampTimeout (ms pct : Nat) (s : State) : Res :=
  when (s.powered && (s.mod.hs == 1 || s.mod.hs == 3) && decide (ms ≥ 20 ∧ pct < 90)) s (s.tripGate 2)

/-- OVERVOLTAGE_TRIP. -/
def execOvervoltageTrip (vin us : Nat) (s : State) : Res :=
  when (s.gateOn && decide (vin > 6200 ∧ us ≥ 10)) s ((s.updMod fun m => { m with vin := min 65535 vin }).tripGate 3)

/-- TRIP_RETRY: one second after a trip. -/
def execTripRetry (ms : Nat) (s : State) : Res :=
  when (s.powered && s.mod.hs == 0 && decide (s.mod.retries > 0 ∧ ms ≥ 1000)) s (s.updMod fun m => { m with hs := 3 })

/-- TRIP_COUNT_CLEAR. -/
def execTripCountClear (sec : Nat) (s : State) : Res :=
  when (s.powered && s.mod.hs == 2 && decide (sec ≥ 60)) s (s.updMod fun m => { m with retries := 0 })

/-- INPUT_CYCLED: the latched gate's input below 20 V for 1 s; the module loses power. -/
def execInputCycled (vin ms : Nat) (s : State) : Res :=
  when (s.mod.hs == 4 && decide (vin < 2000 ∧ ms ≥ 1000)) s (s.powerOff 0)

/-! ## The hold-up store (R417, R418) -/

/-- STORE_MEASURE: in service, with the store discharged to `v`. -/
def execStoreMeasure (cap v : Nat) (s : State) : Res :=
  when (s.powered && s.mod.step == 11) s
    (((s.updMod fun m => { m with ss := 0 }).measureCap cap).updMod fun m => { m with euse := storeEnergy m.cap v })

/-- STORE_CHARGED. -/
def execStoreCharged (v : Nat) (s : State) : Res :=
  when (s.powered && decide (s.mod.step ≥ 5 ∧ v ≥ 1600)) s
    (s.updMod fun m => { m with ss := if m.cap < 110 then 3 else 1, euse := storeEnergy m.cap v })

/-- STORE_BELOW_MIN: start-up waits at step 6. -/
def execStoreBelowMin (e sec : Nat) (s : State) : Res :=
  when (s.powered && s.mod.step == 5 && decide (e < 600 ∧ sec ≥ 10)) s
    ((s.updMod fun m => { m with ss := 4, euse := e }).report (rep 2 9 0 9 0x64 e))

/-! ## Flash sectors (R423) -/

/-- The journal that a 64 KiB sector belongs to: 0 ledger, 1 capture (Table 15-5). -/
def sectorJournal (n : Nat) : Option Nat :=
  if 0x810 ≤ n ∧ n < 0xA10 then some 0 else if 0xA10 ≤ n ∧ n < 0xE10 then some 1 else none

/-- SECTOR_ERASE: only while the input is good. -/
def execSectorErase (sector : Nat) (failed : Bool) (s : State) : Res :=
  match sectorJournal sector with
  | none => .next s
  | some j =>
    when (s.powered && s.mod.ss != 2) s
      (if failed then s.report (rep 2 9 0 9 0x6A (65536 * sector))
       else s.updMod fun m => { m with erased := m.erased.mapIdx fun i x => if i = j then x + 1 else x })

/-! ## Orderly shutdown (R429, Table 15-9) -/

/-- A panel or quiesce event (cause 0x69). -/
def State.panel (s : State) (info : Nat) : State := s.report (rep 1 9 0 9 0x69 info)

/-- A shutdown cause is accepted: step 1. -/
def State.acceptShut (s : State) (cause : Nat) : State :=
  (s.updMod fun m => { m with sdCause := cause, sdStep := 1, shut := true }).panel 4

/-- JOB_HOLD at the next outcome. -/
def State.holdJob (s : State) : State :=
  if s.train.js ≠ .run then s
  else if s.outsideStep ∧ s.train.atRest then s.setJob .held 5
  else s.updTrain fun t => { t with wantHold := true, wantRun := false }

/-- A shutdown may be accepted. -/
def State.shutOpen (s : State) : Bool := s.powered && !s.flt.fatal && s.mod.sdStep == 0

/-- QUIESCE_REQUEST: the line has been low for `us`, 0 where it is high again; after 1 ms the tray's shutdown is accepted, or takes over a button's wait (R432). -/
def execQuiesceRequest (us : Nat) (s : State) : Res :=
  let s := s.updMod fun m => { m with quiesce := decide (us > 0) }
  if us < 1000 then .next s
  else if s.shutOpen then .next (s.acceptShut 1).holdJob
  else when (s.mod.sdStep == 1 && s.mod.sdCause == 2) s ((s.updMod fun m => { m with sdCause := 1 }).holdJob)

/-- A press is counted. -/
def State.press (s : State) : State := s.updMod fun m => { m with btn := satAdd 8 m.btn 1 }

/-- BUTTON_LONG_PRESS: 5 s ask for a shutdown, or cancel the button's own before step 3. -/
def execButtonLongPress (ms : Nat) (s : State) : Res :=
  when (s.powered && decide (ms ≥ 2000)) s <|
    let s := s.press
    if ms < 5000 then s
    else if s.mod.sdStep = 1 ∧ s.mod.sdCause = 2 then s.updMod fun m => { m with sdCause := 0, sdStep := 0, shut := false }
    else if s.shutOpen then s.acceptShut 2
    else s

/-- BUTTON_SHORT_PRESS: LOCATE toggles. -/
def execButtonShortPress (ms : Nat) (s : State) : Res :=
  when (s.powered && decide (ms < 2000)) s ((s.press.updMod fun m => { m with locate := !m.locate }).panel 1)

/-- LATCH_OPEN: the opening is reported; after 2 s the shutdown proceeds at once. -/
def execLatchOpen (ms : Nat) (s : State) : Res :=
  let opens : Bool := !s.mod.latch && s.powered
  let s := s.updMod fun m => { m with latch := true }
  let s : State := if opens then s.panel 2 else s
  if ms < 2000 then .next s
  else if s.shutOpen then .next (s.acceptShut 3)
  else when (s.mod.sdStep == 1) s (s.updMod fun m => { m with sdCause := 3 })

/-- LATCH_CLOSE. -/
def execLatchClose (s : State) : Res :=
  when s.mod.latch s <|
    let s := s.updMod fun m => { m with latch := false }
    if s.powered then s.panel 3 else s

/-- The wait of the cause has ended (step 2). -/
def State.waitOver (s : State) : Bool :=
  match s.mod.sdCause with
  | 1 => s.train.js != .run
  | 2 => s.train.js != .run && s.train.js != .rebuild
  | _ => true

/-- No LID drains. -/
def State.drained (s : State) : Bool := s.fab.lids.all fun l => l.2.st != .draining

/-- SHUTDOWN_PROCEED: step 3 once the wait has ended; steps 4 and 5 once no LID drains. -/
def execShutdownProceed (s : State) : Res :=
  if s.mod.sdStep = 1 then when (s.powered && s.waitOver) s s.shutStep3
  else when (s.powered && s.mod.sdStep == 3 && s.drained) s s.shutEnd

/-- SHUTDOWN_WAIT_TIMEOUT: the tray's wait ends after 10 s. -/
def execShutdownWaitTimeout (ms : Nat) (s : State) : Res :=
  when (s.powered && s.mod.sdStep == 1 && s.mod.sdCause == 1 && decide (ms ≥ 10000)) s s.shutStep3

end Sys2Proof.Machine
end

