-- ==== Sys2Proof/Machine/Panel.lean ====
section
/-! DEFINITION. The service panel's lights (15 R430, Table 15-10) and the sideband outputs of MGT (Table 15-2), which the state decides. -/

namespace Sys2Proof.Machine

/-- What a light shows. -/
inductive Lamp where
  | off
  | redFast
  | red
  | amber
  | amberSlow
  | greenPulse
  | greenFlash
  | green
  | steady
  | fast
  | slow
  deriving DecidableEq, Repr

/-- The status bar; the highest row of Table 15-10 that applies. Off after an orderly shutdown (Table 15-9) and without power. -/
def State.statusBar (s : State) : Lamp :=
  if !s.mod.standby then .off
  else if s.power.coolStop || s.power.trip then .redFast
  else if s.flt.fatal || s.mod.hs == 4 then .red
  else if s.mod.sdStep = 5 then .off
  else if s.dstate = 1 ∨ s.mod.ss = 3 then .amber
  else if s.host.phase < 7 then .amberSlow
  else if s.train.js = .run then .greenPulse
  else .green

/-- Port light `p`. -/
def State.portLight (s : State) (p : Nat) : Lamp :=
  let x := s.port p
  let lids := s.fab.lids.filter fun l => l.2.port == p
  if x.st = .failed then .red
  else if x.st = .apr ∨ x.degr ∨ x.telem = 2 then .amber
  else if x.st = .search ∨ x.st = .soak ∨ lids.any (fun l => l.2.st == .training) then .greenFlash
  else if lids.any (fun l => l.2.st == .up) then .green
  else .off

/-- The blue light. -/
def State.blueLight (s : State) : Lamp :=
  if s.mod.safe then .steady
  else if 1 ≤ s.mod.sdStep ∧ s.mod.sdStep < 5 ∧ !(s.mod.sdCause == 2 && s.mod.sdStep == 1) then .fast
  else if s.mod.locate ∨ s.mod.sdStep = 1 then .slow
  else .off

/-- FAULT_N, PWR_CYCLE_REQ_N and THERM_ALERT_N asserted, and SAFE_TO_REMOVE high: all released or low without standby power (R416). -/
def State.sideband (s : State) : Bool × Bool × Bool × Bool :=
  (s.mod.standby && s.flt.faultN, s.mod.standby && s.flt.pwrCyc, s.mod.standby && s.power.alert, s.mod.standby && s.mod.safe)

end Sys2Proof.Machine
end

