-- ==== Sys2Proof/Machine/Dispatch.lean ====
section
/-! DEFINITION. The dispatch: one arm per constructor of Instr, each one direct call of that command's meaning. -/

namespace Sys2Proof.Machine

/-- The effect of one command on everything but the queue of waiting commands. -/
def exec (i : Instr) (s : State) : Host.Outcome State Fault Refusal :=
  match i with
  | .bundleIssue c wait ierr => Sys2Proof.Machine.execBundleIssue c wait ierr s
  | .tAccessPerformed c k => Sys2Proof.Machine.execTAccessPerformed c k s
  | .hgetHputComplete c k => Sys2Proof.Machine.execHgetHputComplete c k s
  | .waitSatisfied c => Sys2Proof.Machine.execWaitSatisfied c s
  | .waitTimeLimit c us => Sys2Proof.Machine.execWaitTimeLimit c us s
  | .getwTake c wait => Sys2Proof.Machine.execGetwTake c wait s
  | .balancingTake cs waits cyc => Sys2Proof.Machine.execBalancingTake cs waits cyc s
  | .coreSelftestSelect c sec => Sys2Proof.Machine.execCoreSelftestSelect c sec s
  | .coreSelftestEnter c => Sys2Proof.Machine.execCoreSelftestEnter c s
  | .coreSelftestStart c => Sys2Proof.Machine.execCoreSelftestStart c s
  | .coreSelftestPass c => Sys2Proof.Machine.execCoreSelftestPass c s
  | .coreSelftestFail c => Sys2Proof.Machine.execCoreSelftestFail c s
  | .coreSelftestCancel c ms => Sys2Proof.Machine.execCoreSelftestCancel c ms s
  | .fldStart c => Sys2Proof.Machine.execFldStart c s
  | .fldComplete c => Sys2Proof.Machine.execFldComplete c s
  | .mmaStart c a => Sys2Proof.Machine.execMmaStart c a s
  | .mmaComplete c a => Sys2Proof.Machine.execMmaComplete c a s
  | .exactEmission c a => Sys2Proof.Machine.execExactEmission c a s
  | .emissionPerformed c a => Sys2Proof.Machine.execEmissionPerformed c a s
  | .drnRead c a => Sys2Proof.Machine.execDrnRead c a s
  | .drnComplete c a => Sys2Proof.Machine.execDrnComplete c a s
  | .emcPerform c a => Sys2Proof.Machine.execEmcPerform c a s
  | .mclrAct c a => Sys2Proof.Machine.execMclrAct c a s
  | .bankAccess r b cyc f => Sys2Proof.Machine.execBankAccess r b cyc f s
  | .maintWriteback r b cyc => Sys2Proof.Machine.execMaintWriteback r b cyc s
  | .patrolScrub r b cyc f => Sys2Proof.Machine.execPatrolScrub r b cyc f s
  | .bankSelftestSlice r b cyc len faulty => Sys2Proof.Machine.execBankSelftestSlice r b cyc len faulty s
  | .meshFlitArrival stop plane out cyc => Sys2Proof.Machine.execMeshFlitArrival stop plane out cyc s
  | .bondTransferReceive c g x => Sys2Proof.Machine.execBondTransferReceive c g x s
  | .bondReplay c g => Sys2Proof.Machine.execBondReplay c g s
  | .bondCreditReturn c k => Sys2Proof.Machine.execBondCreditReturn c k s
  | .laneRetireSwitch c g => Sys2Proof.Machine.execLaneRetireSwitch c g s
  | .hbmUnitRequest r => Sys2Proof.Machine.execHbmUnitRequest r s
  | .regulatorAdmit g cyc => Sys2Proof.Machine.execRegulatorAdmit g cyc s
  | .borrowAgeExpiry g cyc => Sys2Proof.Machine.execBorrowAgeExpiry g cyc s
  | .pcQueueAccept st pc cyc => Sys2Proof.Machine.execPcQueueAccept st pc cyc s
  | .hbmRequestServe st pc k cyc e => Sys2Proof.Machine.execHbmRequestServe st pc k cyc e s
  | .hbmAgeLimit st pc cyc e => Sys2Proof.Machine.execHbmAgeLimit st pc cyc e s
  | .hbmMaintWriteback st so cyc => Sys2Proof.Machine.execHbmMaintWriteback st so cyc s
  | .hbmPatrolScrub st cyc => Sys2Proof.Machine.execHbmPatrolScrub st cyc s
  | .hbmRefresh st bank => Sys2Proof.Machine.execHbmRefresh st bank s
  | .stackHotChange st temp => Sys2Proof.Machine.execStackHotChange st temp s
  | .hbmSelftestSlice st pc row ms faults fin refPend spare e => Sys2Proof.Machine.execHbmSelftestSlice st pc row ms faults fin refPend spare e s
  | .regionSetDrained n => Sys2Proof.Machine.execRegionSetDrained n s
  | .cellInject x cyc => Sys2Proof.Machine.execCellInject x cyc s
  | .frameSend lid cyc => Sys2Proof.Machine.execFrameSend lid cyc s
  | .controlFrameSend lid => Sys2Proof.Machine.execControlFrameSend lid s
  | .controlFrameDue lid us => Sys2Proof.Machine.execControlFrameDue lid us s
  | .frameReceive lid line cyc bytes shared rd => Sys2Proof.Machine.execFrameReceive lid line cyc bytes shared rd s
  | .controlFrameReceive lid line bytes rd => Sys2Proof.Machine.execControlFrameReceive lid line bytes rd s
  | .retryTimeout lid us => Sys2Proof.Machine.execRetryTimeout lid us s
  | .maskChangeReport lid => Sys2Proof.Machine.execMaskChangeReport lid s
  | .lidTrainingStart lid => Sys2Proof.Machine.execLidTrainingStart lid s
  | .lidTrainingComplete lid rtt genmask node part => Sys2Proof.Machine.execLidTrainingComplete lid rtt genmask node part s
  | .softFenceComplete lid => Sys2Proof.Machine.execSoftFenceComplete lid s
  | .softFenceTimeout lid ms => Sys2Proof.Machine.execSoftFenceTimeout lid ms s
  | .reqMessageServe k => Sys2Proof.Machine.execReqMessageServe k s
  | .nrqWaitExpiry k us => Sys2Proof.Machine.execNrqWaitExpiry k us s
  | .messageLostTimeout k ms => Sys2Proof.Machine.execMessageLostTimeout k ms s
  | .detseqBatchRelease q => Sys2Proof.Machine.execDetseqBatchRelease q s
  | .epochSum others lost => Sys2Proof.Machine.execEpochSum others lost s
  | .combMeasure a b found => Sys2Proof.Machine.execCombMeasure a b found s
  | .combAgedSwitch sec => Sys2Proof.Machine.execCombAgedSwitch sec s
  | .markerReceive p w bytes => Sys2Proof.Machine.execMarkerReceive p w bytes s
  | .markerAbsentTimeout p w us => Sys2Proof.Machine.execMarkerAbsentTimeout p w us s
  | .ringLoopUpdate p w tx err heat lostNs => Sys2Proof.Machine.execRingLoopUpdate p w tx err heat lostNs s
  | .spareRotationStart p sec => Sys2Proof.Machine.execSpareRotationStart p sec s
  | .rotationMaskAck p n => Sys2Proof.Machine.execRotationMaskAck p n s
  | .rotationLineLeave p => Sys2Proof.Machine.execRotationLineLeave p s
  | .rotationCalDone p => Sys2Proof.Machine.execRotationCalDone p s
  | .rotationSoakEnd p r => Sys2Proof.Machine.execRotationSoakEnd p r s
  | .aprLightLoss p power => Sys2Proof.Machine.execAprLightLoss p power s
  | .aprDeclare p ms => Sys2Proof.Machine.execAprDeclare p ms s
  | .aprLightReturn p power => Sys2Proof.Machine.execAprLightReturn p power s
  | .soakEnd p line r => Sys2Proof.Machine.execSoakEnd p line r s
  | .soakRepeat p line ms => Sys2Proof.Machine.execSoakRepeat p line ms s
  | .passSwitchDrained => Sys2Proof.Machine.execPassSwitchDrained s
  | .passSwitchRelease => Sys2Proof.Machine.execPassSwitchRelease s
  | .ringShiftDone => Sys2Proof.Machine.execRingShiftDone s
  | .passSwitchRecovered => Sys2Proof.Machine.execPassSwitchRecovered s
  | .passSwitchLocked => Sys2Proof.Machine.execPassSwitchLocked s
  | .passLidTrainTimeout lid us => Sys2Proof.Machine.execPassLidTrainTimeout lid us s
  | .telemetryMeasure p rx tx ret dark => Sys2Proof.Machine.execTelemetryMeasure p rx tx ret dark s
  | .counterRequest b cyc => Sys2Proof.Machine.execCounterRequest b cyc s
  | .tolEntryStart q => Sys2Proof.Machine.execTolEntryStart q s
  | .collCellSend tp tree down => Sys2Proof.Machine.execCollCellSend tp tree down s
  | .collCellReceive lid => Sys2Proof.Machine.execCollCellReceive lid s
  | .voteRootTimeout tree ms => Sys2Proof.Machine.execVoteRootTimeout tree ms s
  | .collTimeout cid ms => Sys2Proof.Machine.execCollTimeout cid ms s
  | .censusTimeout ms => Sys2Proof.Machine.execCensusTimeout ms s
  | .attemptStart recs => Sys2Proof.Machine.execAttemptStart recs s
  | .gatherComplete => Sys2Proof.Machine.execGatherComplete s
  | .unitPost => Sys2Proof.Machine.execUnitPost s
  | .unitComplete kind v m => Sys2Proof.Machine.execUnitComplete kind v m s
  | .reduceDone => Sys2Proof.Machine.execReduceDone s
  | .updateComplete => Sys2Proof.Machine.execUpdateComplete s
  | .seqWaitTimeout ms => Sys2Proof.Machine.execSeqWaitTimeout ms s
  | .mirrorWaitTimeout ms => Sys2Proof.Machine.execMirrorWaitTimeout ms s
  | .outcomeGraceTimeout ms => Sys2Proof.Machine.execOutcomeGraceTimeout ms s
  | .attemptRest => Sys2Proof.Machine.execAttemptRest s
  | .coreBoundaryTimeout c ms => Sys2Proof.Machine.execCoreBoundaryTimeout c ms s
  | .ckptImageComplete spoiled => Sys2Proof.Machine.execCkptImageComplete spoiled s
  | .rebuildImageLoaded img => Sys2Proof.Machine.execRebuildImageLoaded img s
  | .rebuildRecordFetched bytes => Sys2Proof.Machine.execRebuildRecordFetched bytes s
  | .rebuildRecordApplied => Sys2Proof.Machine.execRebuildRecordApplied s
  | .drainImageChecked img => Sys2Proof.Machine.execDrainImageChecked img s
  | .ingestComplete obj off dst data => Sys2Proof.Machine.execIngestComplete obj off dst data s
  | .exportAck => Sys2Proof.Machine.execExportAck s
  | .replayInputDeliver data => Sys2Proof.Machine.execReplayInputDeliver data s
  | .certifyHashComplete => Sys2Proof.Machine.execCertifyHashComplete s
  | .configRequest off write => Sys2Proof.Machine.execConfigRequest off write s
  | .perstAssert => Sys2Proof.Machine.execPerstAssert s
  | .perstRelease => Sys2Proof.Machine.execPerstRelease s
  | .flr => Sys2Proof.Machine.execFlr s
  | .bar4Read off len e => Sys2Proof.Machine.execBar4Read off len e s
  | .bar4Write off data poisoned => Sys2Proof.Machine.execBar4Write off data poisoned s
  | .doorbellWrite q hi size v => Sys2Proof.Machine.execDoorbellWrite q hi size v s
  | .ceqDoorbell q hi size v => Sys2Proof.Machine.execCeqDoorbell q hi size v s
  | .commandAdmit => Sys2Proof.Machine.execCommandAdmit s
  | .completionRecordWrite q => Sys2Proof.Machine.execCompletionRecordWrite q s
  | .msixTimer q us => Sys2Proof.Machine.execMsixTimer q us s
  | .aqEnable v => Sys2Proof.Machine.execAqEnable v s
  | .aqDisable v => Sys2Proof.Machine.execAqDisable v s
  | .registerWrite off size v => Sys2Proof.Machine.execRegisterWrite off size v s
  | .w1cWrite off size v => Sys2Proof.Machine.execW1cWrite off size v s
  | .rcFieldRead off size => Sys2Proof.Machine.execRcFieldRead off size s
  | .nop q d => Sys2Proof.Machine.execNop q d s
  | .sesOpen q d => Sys2Proof.Machine.execSesOpen q d s
  | .sesClose q d => Sys2Proof.Machine.execSesClose q d s
  | .devInfo q d => Sys2Proof.Machine.execDevInfo q d s
  | .queCreate q d => Sys2Proof.Machine.execQueCreate q d s
  | .queDelete q d => Sys2Proof.Machine.execQueDelete q d s
  | .queReset q d => Sys2Proof.Machine.execQueReset q d s
  | .domainReset q d => Sys2Proof.Machine.execDomainReset q d s
  | .devReset q d => Sys2Proof.Machine.execDevReset q d s
  | .handleQuery q d => Sys2Proof.Machine.execHandleQuery q d s
  | .handleCancel q d => Sys2Proof.Machine.execHandleCancel q d s
  | .regionSet q d => Sys2Proof.Machine.execRegionSet q d s
  | .memConfig q d => Sys2Proof.Machine.execMemConfig q d s
  | .apertureSet q d => Sys2Proof.Machine.execApertureSet q d s
  | .dmaH2d q d => Sys2Proof.Machine.execDmaH2d q d s
  | .dmaD2h q d => Sys2Proof.Machine.execDmaD2h q d s
  | .dmaD2d q d => Sys2Proof.Machine.execDmaD2d q d s
  | .memFill q d => Sys2Proof.Machine.execMemFill q d s
  | .windowSet q d => Sys2Proof.Machine.execWindowSet q d s
  | .windowClear q d => Sys2Proof.Machine.execWindowClear q d s
  | .netSend q d => Sys2Proof.Machine.execNetSend q d s
  | .netWrite q d => Sys2Proof.Machine.execNetWrite q d s
  | .netGet q d => Sys2Proof.Machine.execNetGet q d s
  | .progLoad q d => Sys2Proof.Machine.execProgLoad q d s
  | .jobAttach q d => Sys2Proof.Machine.execJobAttach q d s
  | .jobConfig q d => Sys2Proof.Machine.execJobConfig q d s
  | .jobLaunch q d => Sys2Proof.Machine.execJobLaunch q d s
  | .jobDetach q d => Sys2Proof.Machine.execJobDetach q d s
  | .coreRelaunch q d => Sys2Proof.Machine.execCoreRelaunch q d s
  | .workPost q d => Sys2Proof.Machine.execWorkPost q d s
  | .l2pSet q d => Sys2Proof.Machine.execL2pSet q d s
  | .fabTables q d => Sys2Proof.Machine.execFabTables q d s
  | .fabFence q d => Sys2Proof.Machine.execFabFence q d s
  | .fabUnfence q d => Sys2Proof.Machine.execFabUnfence q d s
  | .passPlan q d => Sys2Proof.Machine.execPassPlan q d s
  | .passConfig q d => Sys2Proof.Machine.execPassConfig q d s
  | .portReadmit q d => Sys2Proof.Machine.execPortReadmit q d s
  | .treePlan q d => Sys2Proof.Machine.execTreePlan q d s
  | .vcWeights q d => Sys2Proof.Machine.execVcWeights q d s
  | .stageTable q d => Sys2Proof.Machine.execStageTable q d s
  | .ckpt q d => Sys2Proof.Machine.execCkpt q d s
  | .ckptSeal q d => Sys2Proof.Machine.execCkptSeal q d s
  | .replace q d => Sys2Proof.Machine.execReplace q d s
  | .drain q d => Sys2Proof.Machine.execDrain q d s
  | .rollback q d => Sys2Proof.Machine.execRollback q d s
  | .wsQuery q d => Sys2Proof.Machine.execWsQuery q d s
  | .wsResolve q d => Sys2Proof.Machine.execWsResolve q d s
  | .cfgWatershed q d => Sys2Proof.Machine.execCfgWatershed q d s
  | .jobHold q d => Sys2Proof.Machine.execJobHold q d s
  | .jobResume q d => Sys2Proof.Machine.execJobResume q d s
  | .setPstate q d => Sys2Proof.Machine.execSetPstate q d s
  | .pwrLimit q d => Sys2Proof.Machine.execPwrLimit q d s
  | .pwrMode q d => Sys2Proof.Machine.execPwrMode q d s
  | .pwrShare q d => Sys2Proof.Machine.execPwrShare q d s
  | .thermLimit q d => Sys2Proof.Machine.execThermLimit q d s
  | .fltRead q d => Sys2Proof.Machine.execFltRead q d s
  | .fltClear q d => Sys2Proof.Machine.execFltClear q d s
  | .healthRead q d => Sys2Proof.Machine.execHealthRead q d s
  | .linkCount q d => Sys2Proof.Machine.execLinkCount q d s
  | .unitReadmit q d => Sys2Proof.Machine.execUnitReadmit q d s
  | .fltWindows q d => Sys2Proof.Machine.execFltWindows q d s
  | .fwStage q d => Sys2Proof.Machine.execFwStage q d s
  | .fwActivate q d => Sys2Proof.Machine.execFwActivate q d s
  | .attest q d => Sys2Proof.Machine.execAttest q d s
  | .dbgUnlock q d => Sys2Proof.Machine.execDbgUnlock q d s
  | .replay q d => Sys2Proof.Machine.execReplay q d s
  | .certify q d => Sys2Proof.Machine.execCertify q d s
  | .vendorOpcode q d => Sys2Proof.Machine.execVendorOpcode q d s
  | .i3cSubmit bytes => Sys2Proof.Machine.execI3cSubmit bytes s
  | .i3cFetch => Sys2Proof.Machine.execI3cFetch s
  | .i3cStatus => Sys2Proof.Machine.execI3cStatus s
  | .i3cBufread off len => Sys2Proof.Machine.execI3cBufread off len s
  | .i3cAddressAssign entdaa addr => Sys2Proof.Machine.execI3cAddressAssign entdaa addr s
  | .inputPowerSample w avg100 avg1s vin iin => Sys2Proof.Machine.execInputPowerSample w avg100 avg1s vin iin s
  | .budgetShare pbase link mem comp => Sys2Proof.Machine.execBudgetShare pbase link mem comp s
  | .clockModeChange => Sys2Proof.Machine.execClockModeChange s
  | .droopDetect k => Sys2Proof.Machine.execDroopDetect k s
  | .droopRecover k cycles => Sys2Proof.Machine.execDroopRecover k cycles s
  | .trimDaily slack => Sys2Proof.Machine.execTrimDaily slack s
  | .thermalSample k temp => Sys2Proof.Machine.execThermalSample k temp s
  | .throttleStepDown k => Sys2Proof.Machine.execThrottleStepDown k s
  | .throttleStepUp k => Sys2Proof.Machine.execThrottleStepUp k s
  | .coolantOkFall => Sys2Proof.Machine.execCoolantOkFall s
  | .coolantOkRise => Sys2Proof.Machine.execCoolantOkRise s
  | .coolantStop us => Sys2Proof.Machine.execCoolantStop us s
  | .coolantExitReady sec => Sys2Proof.Machine.execCoolantExitReady sec s
  | .balanceReportReceive slot vseq slack avg share ceil => Sys2Proof.Machine.execBalanceReportReceive slot vseq slack avg share ceil s
  | .balanceWaitExpiry us => Sys2Proof.Machine.execBalanceWaitExpiry us s
  | .balanceDec vseq share => Sys2Proof.Machine.execBalanceDec vseq share s
  | .balanceAck slot vseq share => Sys2Proof.Machine.execBalanceAck slot vseq share s
  | .balanceAckTimeout us => Sys2Proof.Machine.execBalanceAckTimeout us s
  | .balanceInc vseq share => Sys2Proof.Machine.execBalanceInc vseq share s
  | .collectorTake => Sys2Proof.Machine.execCollectorTake s
  | .containedReactionDone => Sys2Proof.Machine.execContainedReactionDone s
  | .coalesceHoldExpiry die sub cause ms => Sys2Proof.Machine.execCoalesceHoldExpiry die sub cause ms s
  | .fatalCaptureWritten written => Sys2Proof.Machine.execFatalCaptureWritten written s
  | .ledgerEntryWrite => Sys2Proof.Machine.execLedgerEntryWrite s
  | .dailyLedger => Sys2Proof.Machine.execDailyLedger s
  | .inputFailure kind vin us => Sys2Proof.Machine.execInputFailure kind vin us s
  | .flushUnit v => Sys2Proof.Machine.execFlushUnit v s
  | .inputReturn vin ms => Sys2Proof.Machine.execInputReturn vin ms s
  | .supervisorHoldEnd vin ms => Sys2Proof.Machine.execSupervisorHoldEnd vin ms s
  | .hotswapFastTrip amp => Sys2Proof.Machine.execHotswapFastTrip amp s
  | .hotswapSlowTrip amp ms => Sys2Proof.Machine.execHotswapSlowTrip amp ms s
  | .rampTimeout ms pct => Sys2Proof.Machine.execRampTimeout ms pct s
  | .overvoltageTrip vin us => Sys2Proof.Machine.execOvervoltageTrip vin us s
  | .tripRetry ms => Sys2Proof.Machine.execTripRetry ms s
  | .tripCountClear sec => Sys2Proof.Machine.execTripCountClear sec s
  | .inputCycled vin ms => Sys2Proof.Machine.execInputCycled vin ms s
  | .storeMeasure cap v => Sys2Proof.Machine.execStoreMeasure cap v s
  | .storeBelowMin e sec => Sys2Proof.Machine.execStoreBelowMin e sec s
  | .startupInputUp vin a b => Sys2Proof.Machine.execStartupInputUp vin a b s
  | .startupGateRamp ms node scan vstore cap => Sys2Proof.Machine.execStartupGateRamp ms node scan vstore cap s
  | .startupMainRails f => Sys2Proof.Machine.execStartupMainRails f s
  | .sectorErase sector failed => Sys2Proof.Machine.execSectorErase sector failed s
  | .hubWatchdog control => Sys2Proof.Machine.execHubWatchdog control s
  | .quiesceRequest us => Sys2Proof.Machine.execQuiesceRequest us s
  | .buttonLongPress ms => Sys2Proof.Machine.execButtonLongPress ms s
  | .buttonShortPress ms => Sys2Proof.Machine.execButtonShortPress ms s
  | .latchOpen ms => Sys2Proof.Machine.execLatchOpen ms s
  | .latchClose => Sys2Proof.Machine.execLatchClose s
  | .shutdownProceed => Sys2Proof.Machine.execShutdownProceed s
  | .shutdownWaitTimeout ms => Sys2Proof.Machine.execShutdownWaitTimeout ms s
  | .hostReadCompletion tag data => Sys2Proof.Machine.execHostReadCompletion tag data s
  | .fwStageComplete good => Sys2Proof.Machine.execFwStageComplete good s
  | .rollbackImageLoaded img => Sys2Proof.Machine.execRollbackImageLoaded img s
  | .ethernetLinkOrFrameError port frame => Sys2Proof.Machine.execEthernetLinkOrFrameError port frame s
  | .pcieUncorrectableError aer => Sys2Proof.Machine.execPcieUncorrectableError aer s
  | .storeCharged v => Sys2Proof.Machine.execStoreCharged v s

end Sys2Proof.Machine
end

