-- ==== Sys2Proof/Safety.lean ====
section
/-! DEFINITION. What the statements speak of: a command that completes, and what stays unchanged beside one unit. -/

namespace Sys2Proof.Machine

/-- Command `c` completes on `s` in state `t`. -/
abbrev Runs (c : Instr) (s t : State) : Prop := exec c s = .next t

/-- Nothing but core `c` differs. -/
def OnlyCore (c : Nat) (s t : State) : Prop := (∀ d, d ≠ c → t.core d = s.core d) ∧ t = { s with cores := t.cores }

/-- Core `c` is in RUN with its PC in the loaded program, and its next bundle neither stalls (R97) nor meets a cause of Table 4-12
(R121), now or in the cycle in which it issues. -/
def State.IssueReady (s : State) (c : Nat) : Prop :=
  c < 512 ∧ (s.core c).st = .run ∧ (s.core c).pc < (s.core c).extent ∧ s.stalled c (s.core c).bundle = false ∧
  ∀ now, lowestCause (s.causes c (s.core c).bundle now) = none

/-- The final record (KIND 1) of a long command with a status and details (R345, Table 12-6). -/
def finalRec (l : Long) (status : Nat) (d0 d1 d2 d3 : W32) : Rec :=
  { tag := l.tag, hnd := l.handle, kind := 1, sq := l.q, status := status, sqhead := l.sqhead, d0 := d0, d1 := d1, d2 := d2,
    d3 := d3, noirq := l.noirq }

/-- State `t` is `s` after the long command `l` has ended on CEQ `c` with a status and details: its record waits there, and its
handle is free with the next generation (R345, R346). -/
def Ended (s t : State) (l : Long) (c status : Nat) (d0 d1 d2 d3 : W32) : Prop :=
  t.host.recs = s.host.recs ++ [(c, finalRec l status d0 d1 d2 d3)] ∧ t.host.longs = s.host.longs.filter (fun x => x.idx != l.idx) ∧
  t.host.hgen = tput s.host.hgen l.idx ((l.gen + 1) % 256)

/-- Descriptor `d` of queue `q` as the command arbiter sees it. -/
def cmdOf (s : State) (q : Nat) (d : Desc) : Cmd := { q := q, d := d, hd := (s.que q).head }

/-- Command `c` of opcode `o` passes the frame of QCP commands: its queue is an enabled HSQ, it is next in order, and nothing
refuses it before its own rule is reached (R333, R340, R343, R345, R400). -/
def Passes (s : State) (c : Cmd) (o : Nat) : Prop :=
  c.q < 8192 ∧ c.opc = o ∧ s.hsqOpen c.q = true ∧ s.inTurn c = true ∧ s.refusal c = none

/-- The handle of a long command with index `i`. -/
def newLong (s : State) (c : Cmd) (i : Nat) : Long :=
  { idx := i, gen := tget 0 s.host.hgen i, tag := c.w 1, q := c.q, sid := s.sidOf c, opc := c.opc, sqhead := c.hd, noirq := c.noirq, d := c.d }

/-- State `a` is `s` after long command `c` was ACCEPTED with handle index `i` (R345, R346). -/
def Accepts (s : State) (c : Cmd) (i : Nat) (a : State) : Prop :=
  s.freeIdx = some i ∧
  a = (s.postOn c.q { (rec0 (c.w 1) c.q 1 c.hd 0#32 0#32 0#32 0#32 c.noirq) with hnd := (newLong s c i).handle }).updHost
    (fun h => { h with longs := h.longs ++ [newLong s c i] })

/-- The structure that words 2 to 4 of `c` name is read: state `u` and bytes `b` (R349). -/
def Reads (s : State) (c : Cmd) (u : State) (b : List Byte) : Prop :=
  c.addrOk 2 = true ∧ (s.memRead .hub 0 (c.dw 2) (c.n 4)).1 = u ∧ (s.memRead .hub 0 (c.dw 2) (c.n 4)).2.1 = b ∧
  (s.memRead .hub 0 (c.dw 2) (c.n 4)).2.2.2 = none

end Sys2Proof.Machine
end

