-- ==== Sys2Proof/Certificates/Slice0/Obligations.lean ====
section
/-! DEFINITION. The statements for the provers. Each says in its docstring what it states; `Runs c s t` is that command
`c` completes on `s` in state `t`. Equations with `s.updX …` say by their form that nothing else changes. -/

open Sys2Proof Sys2Proof.Machine

/-- A step runs the command at the front of the queue on the queue's rest; with no command waiting time passes. For
every command c and every state s, the step of s with c put at the front of its queue is exec of c on s with the
queue's rest. With an empty queue the step answers the state with the time 1 µs later and nothing else changed (the
model's idle tick, a design choice of log entries 1 and 2). -/
def Obligations.StepRunsTheFrontCommand : Prop :=
  (∀ (c : Instr) (s : State), step { s with pending := c :: s.pending } = exec c { s with pending := s.pending }) ∧
  (∀ s : State, s.pending = [] → step s = .next { s with now := s.now + 1 })

/-- Where nothing stalls it and no cause of Table 4-12 applies, a running core issues its bundle; a stalled bundle
changes nothing. Core c below 512 in RUN, PC inside the loaded program, no instruction-store error. (1) A bundle
that does not stall, meets no cause of Table 4-12 and holds no WAIT, FENCE or GETW issues: all four slots act
together from the core as it stood. (2) A bundle with WAIT whose counter already stands at the threshold, or whose
condition has held at a change of the counter, issues; one whose counter does not makes the core wait on that
counter and threshold, and nothing else changes. (3) A FENCE whose scope is met issues, and one whose scope is not
met changes nothing. (4) A GETW with every queue empty leaves the core stalled in GETW; (5) one that finds an entry
that passes its check issues with that entry's registers. (6) A stalled bundle changes nothing at all. -/
def Obligations.CoreIssuesItsNextBundle : Prop :=
  (∀ (s : State) (c w : Nat), s.IssueReady c →
    tOp (slotT (s.core c).bundle) ≠ 0x1B → tOp (slotT (s.core c).bundle) ≠ 0x20 → tOp (slotT (s.core c).bundle) ≠ 0x28 →
    Runs (.bundleIssue c w false) s (s.issueAll c (s.core c).bundle (issueCycle (s.core c) (s.core c).bundle w))) ∧
  (∀ (s : State) (c w : Nat), s.IssueReady c → tOp (slotT (s.core c).bundle) = 0x1B → (s.core c).waiting = false →
    ((s.core c).waitOk = true →
      Runs (.bundleIssue c w false) s (s.issueAll c (s.core c).bundle (issueCycle (s.core c) (s.core c).bundle w))) ∧
    ((s.core c).waitOk = false → s.ctrMine (tCtr (slotT (s.core c).bundle)) = true →
      Runs (.bundleIssue c w false) s
        (if (s.ctr (tCtr (slotT (s.core c).bundle))).toNat ≥ ((s.core c).s (tA (slotT (s.core c).bundle))).toNat % 2 ^ 48 then
          s.issueAll c (s.core c).bundle (issueCycle (s.core c) (s.core c).bundle w)
        else s.updCore c fun k => { k with
          waiting := true
          waitOn := some (tCtr (slotT (s.core c).bundle), ((s.core c).s (tA (slotT (s.core c).bundle))).toNat % 2 ^ 48) }))) ∧
  (∀ (s : State) (c w : Nat), s.IssueReady c → tOp (slotT (s.core c).bundle) = 0x20 →
    Runs (.bundleIssue c w false) s
      (if fenceOk (s.core c) (tImm (slotT (s.core c).bundle) % 4) then
        s.issueAll c (s.core c).bundle (issueCycle (s.core c) (s.core c).bundle w) else s)) ∧
  (∀ (s : State) (c w : Nat), s.IssueReady c → tOp (slotT (s.core c).bundle) = 0x28 → (s.core c).idleq = false →
    s.headQueue c = none → Runs (.bundleIssue c w false) s (s.updCore c fun k => { k with idleq := true, idleAt := s.hubNow })) ∧
  (∀ (s : State) (c w q : Nat) (ws : List (W32 × Bool)) (u : State), s.IssueReady c → tOp (slotT (s.core c).bundle) = 0x28 →
    (s.core c).idleq = false → (s.core c).tpend = false → (s.core c).held = false → s.headQueue c = some q →
    s.entryAt (.core c) q (s.que q).head = (u, ws) → entryCheck (ws.getD 0 (0#32, false)).1 = none →
    Runs (.bundleIssue c w false) s
      (u.issueGetw c c (s.core c).bundle (issueCycle (s.core c) (s.core c).bundle w) q (s.que q).head ws)) ∧
  (∀ (s : State) (c w : Nat), c < 512 → (s.core c).st = .run → (s.core c).pc < (s.core c).extent →
    s.stalled c (s.core c).bundle = true → Runs (.bundleIssue c w false) s s)

/-- A bundle whose only operation is an S-slot ALU operation writes that operation's result to s[SD], discards it for
s0, and changes nothing else a program sees. A running core c whose next bundle holds NOPs in the V, M and T slots
and in the S slot an operation ADD to SEQ (0x01 to 0x0F) with its reserved bits 0, while nothing of the core is
outstanding and no counter read waits: the bundle issues, the PC moves on by one, s[SD] holds the operation's result
on s[SA] and operand B with the spoil marks of its sources joined, every other s register keeps its value (a write
of s0 is discarded and s0 still reads 0), the v, p and xa registers, their marks, VFLAGS and the arrays are
unchanged, and nothing outside the core changes. -/
def Obligations.ScalarSlotWritesItsResult : Prop :=
  ∀ (s : State) (c w : Nat), c < 512 → (s.core c).st = .run → (s.core c).pc < (s.core c).extent →
    slotV (s.core c).bundle = 0#64 → slotM (s.core c).bundle = 0#64 → slotT (s.core c).bundle = 0#64 →
    aluOp (sOp (slotS (s.core c).bundle)) = true → sf (slotS (s.core c).bundle) 41 32 = 0 →
    (s.core c).tacc = [] → s.coll.reqs = [] →
    ∃ t, Runs (.bundleIssue c w false) s t ∧ OnlyCore c s t ∧ (t.core c).pc = (s.core c).pc + 1 ∧
      (∀ r, (t.core c).s r =
        if r = sD (slotS (s.core c).bundle) ∧ r ≠ 0 then
          alu (sOp (slotS (s.core c).bundle)) ((s.core c).s (sA (slotS (s.core c).bundle))) (sOperandB (s.core c) (slotS (s.core c).bundle))
        else (s.core c).s r) ∧
      (∀ r, (t.core c).sSpoilt r =
        if r = sD (slotS (s.core c).bundle) ∧ r ≠ 0 then
          (s.core c).sSpoilt (sA (slotS (s.core c).bundle)) ||
            (!sI (slotS (s.core c).bundle) && (s.core c).sSpoilt (sB (slotS (s.core c).bundle)))
        else (s.core c).sSpoilt r) ∧
      (t.core c).vreg = (s.core c).vreg ∧ (t.core c).vSp = (s.core c).vSp ∧ (t.core c).preg = (s.core c).preg ∧
      (t.core c).xa = (s.core c).xa ∧ (t.core c).xaSp = (s.core c).xaSp ∧ (t.core c).vflags = (s.core c).vflags ∧
      (t.core c).st = .run ∧ (∀ a, a < 4 → (t.core c).arr a = (s.core c).arr a)

/-- A bundle that meets a cause of Table 4-12 has no effect: the core stops, COR_EXC holds the lowest cause, its slot
and the PC, and every register keeps its value. A running core c meets cause x with LASTERR code rj in one of four
ways: its PC lies beyond the loaded program (cause 0x03); its instruction store has an uncorrectable error (cause
0x08); its next bundle does not stall and meets a cause, the lowest being x; or it meets one only in the cycle in
which it would issue. The slot recorded with 0x03 and 0x08 is the model's choice, log entry 181. (1) The command
takes the exception, with or without a current item. (2) With no item, and where a 0x08 is not lasting: the core is
STOPPED, COR_EXC holds cause, slot and PC, every s, v, p and xa register with its marks, VFLAGS, the PC, the
outstanding transfers and the arrays are unchanged, LASTERR takes the code of Table 3-8 where the M operation meets
one and is otherwise unchanged, the event is reported with cause 0x20 and the cause and PC in INFO, and no other
core, no memory, no counter and no queue changes. (3) A 0x08 that is lasting also retires the core. -/
def Obligations.CoreExceptionIsPrecise : Prop :=
  (∀ (s : State) (c w : Nat) (ierr : Bool) (x : Nat × Nat) (rj : Nat), c < 512 → (s.core c).st = .run →
    ((s.core c).pc ≥ (s.core c).extent ∧ x = (3, 0) ∧ rj = 0 ∨
     (s.core c).pc < (s.core c).extent ∧ ierr = true ∧ x = (8, 0) ∧ rj = 0 ∨
     (s.core c).pc < (s.core c).extent ∧ ierr = false ∧ s.stalled c (s.core c).bundle = false ∧
       lowestCause (s.causes c (s.core c).bundle false) = some x ∧ rj = mRejectEarly (s.core c) (slotM (s.core c).bundle) ∨
     (s.core c).pc < (s.core c).extent ∧ ierr = false ∧ s.stalled c (s.core c).bundle = false ∧
       lowestCause (s.causes c (s.core c).bundle false) = none ∧ tOp (slotT (s.core c).bundle) ≠ 0x1B ∧
       tOp (slotT (s.core c).bundle) ≠ 0x20 ∧ tOp (slotT (s.core c).bundle) ≠ 0x28 ∧
       lowestCause (s.causes c (s.core c).bundle true) = some x ∧ rj = mReject (s.core c) (slotM (s.core c).bundle)) →
    Runs (.bundleIssue c w ierr) s (s.bundleFault c rj x)) ∧
  (∀ (s : State) (c rj : Nat) (x : Nat × Nat), (s.core c).item = none → (x.1 = 8 → s.winLast 7 c = false) →
    ∃ t, t = s.bundleFault c rj x ∧ (∀ d, d ≠ c → t.core d = s.core d) ∧
      t = { s with cores := t.cores, flt := t.flt, train := { s.train with errSince := true } } ∧
      (x.1 ≠ 8 → t.flt = (s.report (rep 2 (c / 64) 0 (c % 64) 0x20 (x.1 + (s.core c).pc % 2048 * 256))).flt) ∧
      t.core c = { s.core c with
        st := .stopped, excCause := x.1, excSlot := x.2, excPc := (s.core c).pc % 2048, waiting := false, waitOn := none,
        waitOk := false, idleq := false, lastErr := if rj ≠ 0 then BitVec.ofNat 8 rj else (s.core c).lastErr }) ∧
  (∀ (s : State) (c : Nat), (s.core c).item = none → s.winLast 7 c = true → (s.core c).retired = false →
    ((s.bundleFault c 0 (8, 0)).core c).st = .stopped ∧ ((s.bundleFault c 0 (8, 0)).core c).retiring = true ∧
    ((s.bundleFault c 0 (8, 0)).core c).excCause = 8 ∧ ((s.bundleFault c 0 (8, 0)).core c).excPc = (s.core c).pc % 2048)

/-- A transfer completes once its banks have answered every line of it, its counter then asked for; a WAIT ends when
satisfied or by its time limit. For a core c below 512. (1) An outstanding load, store or AADD with every line
answered leaves the list, a load's or an AADD's words go to its destination, and TRG asks for its counter. (2) A
load of one word puts the word read at its address, zero-extended, and its spoil bit into s[TD] and changes nothing
else of the registers. (3) A store changes no register. (4) While a line is still to come nothing changes. (5) A
copy HGET or HPUT with every unit moved leaves its list and TRG asks for its counter; before that nothing changes.
(6) A WAIT whose condition holds, or held at a change of its counter, lets its core go on; (7) one unsatisfied for
COR_WAIT_LIMIT microseconds raises exception 0x07 in slot T at its PC. -/
def Obligations.CoreTransfersAndWaits : Prop :=
  (∀ (s : State) (c i : Nat) (a : TAcc), c < 512 → (s.core c).tacc[i]? = some a → a.left = 0 →
    Runs (.tAccessPerformed c i) s
      (((s.updCore c fun k => { k with tacc := k.tacc.eraseIdx i, async := true }).accDone c a).ctrTrg (.core c 0 0) a.trg)) ∧
  (∀ (s : State) (c i : Nat) (a : TAcc) (v : W32) (sp : Bool), c < 512 → (s.core c).tacc[i]? = some a → a.left = 0 → a.top = 1 →
    a.got = [(a.base, v, sp)] → a.trg = none →
    Runs (.tAccessPerformed c i) s (s.updCore c fun k =>
      { k with tacc := k.tacc.eraseIdx i, async := true }.setS a.td (v.setWidth 64) sp)) ∧
  (∀ (s : State) (c i : Nat) (a : TAcc), c < 512 → (s.core c).tacc[i]? = some a → a.left = 0 → tStores a.top = true → a.top ≠ 5 →
    Runs (.tAccessPerformed c i) s
      ((s.updCore c fun k => { k with tacc := k.tacc.eraseIdx i, async := true }).ctrTrg (.core c 0 0) a.trg)) ∧
  (∀ (s : State) (c i : Nat) (a : TAcc), c < 512 → (s.core c).tacc[i]? = some a → a.left ≠ 0 → Runs (.tAccessPerformed c i) s s) ∧
  (∀ (s : State) (c i : Nat) (a : TAcc), c < 512 → (s.core c).hacc[i]? = some a →
    (a.left = 0 → Runs (.hgetHputComplete c i) s
      ((s.updCore c fun k => { k with hacc := k.hacc.eraseIdx i, async := true }).ctrTrg (.core c 0 0) a.trg)) ∧
    (a.left ≠ 0 → Runs (.hgetHputComplete c i) s s)) ∧
  (∀ (s : State) (src : CtrSrc) (n : Nat), (s.ctrTrg src (some n)).coll.reqs =
      s.coll.reqs ++ [{ src := src, age := s.hubNow, ctr := n, op := .add 1#48 }] ∧ s.ctrTrg src none = s) ∧
  (∀ (s : State) (c n thr : Nat), c < 512 → (s.core c).waiting = true → (s.core c).waitOn = some (n, thr) →
    ((s.core c).waitOk = true ∨ thr ≤ (s.ctrSeen n).toNat) →
    Runs (.waitSatisfied c) s (s.updCore c fun k => { k with waiting := false, waitOk := true, async := true })) ∧
  (∀ (s : State) (c us n thr : Nat), c < 512 → (s.core c).st = .run → (s.core c).waiting = true → (s.core c).waitOk = false →
    (s.core c).waitOn = some (n, thr) → (s.ctrSeen n).toNat < thr → (s.core c).waitLimit ≠ 0#32 → (s.core c).waitLimit.toNat ≤ us →
    ∃ t, t = s.coreException c 7 3 ∧ Runs (.waitTimeLimit c us) s t ∧ ((s.core c).item = none →
      (t.core c).st = .stopped ∧ (t.core c).excCause = 7 ∧ (t.core c).excSlot = 3 ∧
      (t.core c).excPc = (s.core c).pc % 2048 ∧ (t.core c).waiting = false ∧ (∀ d, d ≠ c → t.core d = s.core d) ∧
      t = { s with cores := t.cores, flt := t.flt, train := t.train }))

/-- A stalled GETW takes a posted entry that passes its check, and an idle core takes a movable aged entry of its group.
(1) A core below 512 stalled in GETW, with no self-test pending and not held, whose bundle meets no cause, takes the
first entry of its lowest-numbered non-empty slot that passes the check of R114: its bundle issues with the entry's
registers. (2) Where none passes, the entries that failed their check have left the queues with their records and
the core waits on. (3) With balancing enabled and DETMODE 0, a core alone in a request round that is stalled in GETW
with its own queues empty takes the head that R117 names, once that entry passes its check: the bundle issues with
the entry's registers and the owner as its home core, and the group's index moves to the core after it. (4) Several
are served one grant after another. (5) With DETMODE 1 or 2, or without balancing, a balancing round changes
nothing. -/
def Obligations.CoreTakesWork : Prop :=
  (∀ (s : State) (c w : Nat) (t : State) (q i : Nat) (ws : List (W32 × Bool)), c < 512 → (s.core c).wantsWork = true →
    lowestCause (s.causes c (s.core c).bundle true) = none → getwScan (s.waitingEntries c + 1) s c = (t, some (q, i, ws)) →
    Runs (.getwTake c w) s
      ((t.issueGetw c c (s.core c).bundle (issueCycle { s.core c with async := true } (s.core c).bundle w) q i ws).updCore c
        fun k => { k with async := true })) ∧
  (∀ (s : State) (c w : Nat) (t : State), c < 512 → (s.core c).wantsWork = true →
    getwScan (s.waitingEntries c + 1) s c = (t, none) → Runs (.getwTake c w) s t) ∧
  (∀ (s h u : State) (c w q o cyc : Nat) (waits : List (Nat × Nat)) (j : JobCfg) (ws : List (W32 × Bool)), c < 512 → h = s.hubAt cyc →
    s.host.job = some j → j.dlb = true → j.detmode = 0 → (h.core c).wantsWork = true → h.queuesEmpty c = true →
    h.balCandidate j c waits = some (q, o) → h.entryAt (.core c) q (h.que q).head = (u, ws) →
    entryCheck (ws.getD 0 (0#32, false)).1 = none → lowestCause (h.causes c (h.core c).bundle true) = none →
    Runs (.balancingTake [(c, w)] waits cyc) s
      (((u.issueGetw c o (h.core c).bundle (issueCycle { h.core c with async := true } (h.core c).bundle w) q (h.que q).head ws).updCore c
        fun k => { k with async := true }).updTrain fun t =>
          { t with balRot := tput t.balRot (groupOf j c).1 ((c - (groupOf j c).1 + 1) % (groupOf j c).2) })) ∧
  (∀ (s : State) (cs waits : List (Nat × Nat)) (cyc : Nat) (j : JobCfg), (∀ c ∈ cs, c.1 < 512) → s.host.job = some j → j.dlb = true →
    j.detmode = 0 → Runs (.balancingTake cs waits cyc) s
      ((List.range (cs.length + 64)).foldl (fun (a : State × List (Nat × Nat)) _ => a.1.balGrant j a.2 waits) (s.hubAt cyc, cs)).1) ∧
  (∀ (s : State) (cs waits : List (Nat × Nat)) (cyc : Nat) (j : JobCfg), (∀ c ∈ cs, c.1 < 512) → s.host.job = some j →
    (j.dlb = false ∨ j.detmode ≠ 0) → Runs (.balancingTake cs waits cyc) s s)

/-- The steps of Table 4-13: a core is selected, enters TEST at a GETW, starts once quiet, and passes, fails or is
cancelled. For a core c below 512. (1) Select: in RUN and not retired, after the interval (1 s after a cancelled
window), with no other window on its die, TPEND is set. (2) Enter: with TPEND, no item and a GETW at the PC, and
with STEP_ONLY only between an outcome and the next step, STATE becomes TEST. (3) Start: once nothing of the core is
outstanding, the test itself starts. (4) Pass: registers and arrays are as after reset but for VFLAGS, COR_MAT_FLAGS
and the ring configurations, and the core runs on. (5) Fail: the core is STOPPED and RETIRED and a RETIRE entry is
queued for the ledger. (6) Cancel: 50 ms without step 2 ends the window. Nothing but the core changes in (1) to (4)
and (6). -/
def Obligations.CoreSelftestWindow : Prop :=
  (∀ (s : State) (c sec : Nat), c < 512 → (s.core c).st = .run → (s.core c).retired = false →
    (if (s.core c).tcancel then 1 else ((s.host.job.map (·.testInt)).getD 600)) ≤ sec →
    (∀ d, c / 64 * 64 ≤ d → d < c / 64 * 64 + 64 → (s.core d).tpend = false ∧ (s.core d).st ≠ .test) →
    Runs (.coreSelftestSelect c sec) s (s.updCore c fun k => { k with tpend := true, tcancel := false })) ∧
  (∀ (s : State) (c : Nat), c < 512 → (s.core c).st = .run → (s.core c).tpend = true → (s.core c).item = none →
    tOp (slotT (s.core c).bundle) = 0x28 → (s.core c).pc < (s.core c).extent →
    (∀ j, s.host.job = some j → j.stepOnly = true → s.train.ws ≠ .open_ ∧ s.train.ws ≠ .voting ∧ s.train.ws ≠ .unresolved ∧
      s.train.votes = []) →
    Runs (.coreSelftestEnter c) s (s.updCore c fun k => { k with st := .test, tpend := false, testing := false, idleq := true })) ∧
  (∀ (s : State) (c : Nat), c < 512 → (s.core c).st = .test → (s.core c).testing = false → s.coreQuiet c = true →
    Runs (.coreSelftestStart c) s (s.updCore c fun k => { k with testing := true })) ∧
  (∀ (s : State) (c : Nat), c < 512 → (s.core c).st = .test → (s.core c).testing = true →
    ∃ t, Runs (.coreSelftestPass c) s t ∧ OnlyCore c s t ∧ (t.core c).st = .run ∧ (t.core c).testing = false ∧
      (t.core c).idleq = true ∧ (t.core c).vflags = (s.core c).vflags ∧ (∀ r, (t.core c).s r = 0#64 ∧ (t.core c).sSpoilt r = false) ∧
      (∀ r i, (t.core c).v r i = 0#32 ∧ (t.core c).x r i = Ex.zero) ∧ (∀ a, a < 4 → ((t.core c).arr a).flags = ((s.core c).arr a).flags ∧
        ((t.core c).arr a).acc = [] ∧ ((t.core c).arr a).aBuf = [] ∧ ((t.core c).arr a).bBuf = [] ∧
        ((t.core c).arr a).ringBase = ((s.core c).arr a).ringBase ∧ ((t.core c).arr a).ringFree = ((s.core c).arr a).ringFree)) ∧
  (∀ (s : State) (c : Nat), c < 512 → (s.core c).st = .test → (s.core c).testing = true → (s.core c).retired = false →
    ∃ t, Runs (.coreSelftestFail c) s t ∧ (t.core c).st = .stopped ∧ (t.core c).retired = true ∧ (t.core c).testing = false ∧
      ∃ l, t.flt.ledgq = l ++ [{ typ := 1, die := c / 64, sub := 0, unit := c % 64, time := t.mod.onSec + t.now / 1000000, seq := 0,
                                 body := 0x21#8 :: List.replicate 15 0#8 }]) ∧
  (∀ (s : State) (c ms : Nat), c < 512 → (s.core c).tpend = true → (s.core c).st ≠ .test → 50 ≤ ms →
    Runs (.coreSelftestCancel c ms) s (s.updCore c fun k =>
      { k with tpend := false, tcancel := true, idleAt := if k.idleq then s.hubNow else k.idleAt }))

/-- A feeder load starts at its queue's head and fills every buffer it names; an MMA starts when its operands are
present and ends with its last update. For a core c below 512 and an array a below 4. (1) The head FLD starts when
none is in progress and its interlocks allow: it leaves the queue and its line reads are sent to the banks. (2) With
every line answered it completes: every array of its mask takes the bytes, or with SCL the codes, in buffer order
from its offset, every other array keeps its buffers, the feeder is free and TRG asks for its counter. (3) Under an
issue limit above 0, the MMA at the head of an array's queue starts when no MMA is in progress and its interlocks
allow, and runs to its first emission boundary or its last k-step. (4) An MMA whose last update is in the tile and
that has no emission due leaves the array and TRG asks for its counter; the tiles, buffers and flags stay as they
are. -/
def Obligations.MatrixOperationsStartAndComplete : Prop :=
  (∀ (s : State) (c : Nat) (f : MOp) (q : List MOp), c < 512 → (s.core c).fldq = f :: q → (s.core c).fldRun = none →
    fldFree (s.core c) f = true →
    Runs (.fldStart c) s ((s.updCore c fun k =>
      { k with fldq := q, fldRun := some { op := f, left := (fldReqs c f).length, got := [] }, async := true }).sendReqs c 1 (fldReqs c f))) ∧
  (∀ (s : State) (c : Nat) (f : FldRun) (l : List (Byte × Bool)), c < 512 → (s.core c).fldRun = some f → f.left = 0 →
    l = (if fldScl f.op.raw then (fldBytes f.op).map (byteOf f.got)
      else markRecords (f.op.fldE * elSize (fldFmt f.op.raw)) ((fldBytes f.op).map (byteOf f.got))) →
    ∃ t, Runs (.fldComplete c) s (t.ctrTrg (.core c 0 0) (mTrg f.op.raw)) ∧ OnlyCore c s t ∧ (t.core c).fldRun = none ∧
      (∀ a, a < 4 → (t.core c).arr a = if nbit (fldMask f.op.raw) a then
          (if fldScl f.op.raw then loadScl ((s.core c).arr a) (fldB f.op.raw) f.op.fldOff l
           else loadBuf ((s.core c).arr a) (fldB f.op.raw) f.op.fldOff l)
        else (s.core c).arr a) ∧
      (∀ r, (t.core c).s r = (s.core c).s r) ∧ (t.core c).pc = (s.core c).pc ∧ (t.core c).fldq = (s.core c).fldq) ∧
  (∀ (s : State) (c a : Nat) (o : MOp) (q : List MOp), c < 512 → a < 4 → ((s.core c).arr a).opq = o :: q → mopOf o.raw = 8 →
    ((s.core c).arr a).mma = none → mmaFree (s.core c) a o = true → 0 < (s.gate (c / 64)).eff →
    Runs (.mmaStart c a) s (s.updCore c fun k => { (k.updArr a fun x =>
      mmaGo (if mmaAZ o.raw then mmaZero { x with opq := q } o else { x with opq := q }) o 0) with async := true })) ∧
  (∀ (s : State) (c a : Nat) (m : MmaRun), c < 512 → a < 4 → ((s.core c).arr a).mma = some m → m.done = true → m.emit = false →
    0 < (s.gate (c / 64)).eff →
    Runs (.mmaComplete c a) s
      ((s.updCore c fun k => { (k.updArr a fun x => { x with mma := none }) with async := true }).ctrTrg (.array c a) (mTrg m.op.raw)))

/-- An emission moves a tile to the next ring slot and sets the tile to +0; drains read, then write; EMC and MCLR act
once their interlocks allow. For a core c below 512 and an array a below 4. (1) At an emission boundary, with a free
slot and an issue limit above 0, the tile's words and spoil flag are sent to the next slot, the tile is set to +0,
the free count falls by 1 and the next slot advances modulo S; the MMA goes on to its next boundary or its last
k-step. (2) The oldest emission, once every line is written, leaves the array and asks for 1 on the ring's counter.
(3) Under an issue limit above 0, the drain at the head of the queue, with no MMA in progress on its tile, is read:
it leaves the queue, its converted rows await their writes, its flags are kept and CLR clears the tile. (4) A Q8
drain first sends the reads of its scale vector, and (5) is read like any other with that vector's codes. (6) A
drain whose every write is performed leaves the array, TRG asks for its counter, and the drains that waited for it
start. (7) EMC configures the ring: base, S, S free slots, slot 0 next, its counter. (8) MCLR sets the tiles it
names to +0, and with SCLR both scale files to 127. -/
def Obligations.MatrixEmitsAndDrains : Prop :=
  (∀ (s : State) (c a : Nat) (m : MmaRun) (x y : Arr) (e : EmitW), c < 512 → a < 4 → x = (s.core c).arr a → x.mma = some m →
    m.emit = true → 0 < x.ringFree → 0 < (s.gate (c / 64)).eff →
    e = { id := (s.core c).nextId, op := m.op.id, base := (x.ringBase + 1024 * x.ringNext) % 2 ^ 29, words := tileWords x (mAcc m.op.raw),
          spoil := x.accSp.contains (mAcc m.op.raw), ctr := x.ringCtr, left := 0 } →
    y = { clearTile x (mAcc m.op.raw) with
      emits := x.emits ++ [{ e with left := (emitReqs c a e).length }], ringFree := x.ringFree - 1, ringNext := (x.ringNext + 1) % x.ringS } →
    Runs (.exactEmission c a) s ((s.updCore c fun k =>
      { (k.updArr a fun _ => if m.done then { y with mma := some { m with emit := false } } else mmaGo y m.op m.k) with
        async := true, nextId := k.nextId + 1 }).sendReqs c 1 (emitReqs c a e))) ∧
  (∀ (s : State) (c a : Nat) (e : EmitW) (q : List EmitW), c < 512 → a < 4 → ((s.core c).arr a).emits = e :: q → e.left = 0 →
    Runs (.emissionPerformed c a) s
      ((s.updCore c fun k => { (k.updArr a fun x => { x with emits := q }) with async := true }).ctrAsk (.array c a) e.ctr (.add 1#48))) ∧
  (∀ (s : State) (c a : Nat) (o : MOp) (q : List MOp) (ws : List (W32 × Bool)) (r : DrainW × Nat), c < 512 → a < 4 →
    ((s.core c).arr a).opq = o :: q → mopOf o.raw = 0x10 → (∀ m, ((s.core c).arr a).mma = some m → mAcc m.op.raw ≠ mAcc o.raw) →
    0 < (s.gate (c / 64)).eff →
    (drnFmt o.raw ≠ 0 ∧ ws = [] ∨
     ∃ v, drnFmt o.raw = 0 ∧ ((s.core c).arr a).vec = some v ∧ v.left = 0 ∧ ws = o.vecWords.map (wordIn v.got)) →
    r = drainOf ((s.core c).arr a) o (s.envOf c).seed a ws →
    Runs (.drnRead c a) s ((s.updCore c fun k => { (k.updArr a fun x =>
      if drnClr o.raw then
        wipeTile { x with opq := q, vec := none, drains := x.drains ++ [r.1], flags := orFlags x.flags r.2 } (mAcc o.raw)
      else { x with opq := q, vec := none, drains := x.drains ++ [r.1], flags := orFlags x.flags r.2 }) with async := true }).sendDrains c) ∧
    r.1.base = o.drnBase ∧ r.1.strd = o.drnStride ∧ r.1.add = drnAdd o.raw ∧ r.1.trg = mTrg o.raw ∧ r.1.rows.length = 32) ∧
  (∀ (s : State) (c a : Nat) (o : MOp) (q : List MOp), c < 512 → a < 4 → ((s.core c).arr a).opq = o :: q → mopOf o.raw = 0x10 →
    (∀ m, ((s.core c).arr a).mma = some m → mAcc m.op.raw ≠ mAcc o.raw) → 0 < (s.gate (c / 64)).eff → drnFmt o.raw = 0 →
    ((s.core c).arr a).vec = none →
    Runs (.drnRead c a) s ((s.updCore c fun k => k.updArr a fun x =>
      { x with vec := some { id := o.id, left := (lineReads (.vec c a o.id) c o.vecWords).length, got := [] } }).sendReqs c 1
        (lineReads (.vec c a o.id) c o.vecWords))) ∧
  (∀ (s : State) (c a : Nat) (d : DrainW) (q : List DrainW), c < 512 → a < 4 → ((s.core c).arr a).drains = d :: q →
    d.phase = 2 → d.left = 0 →
    Runs (.drnComplete c a) s
      (((s.updCore c fun k => { (k.updArr a fun x => { x with drains := q }) with async := true }).ctrTrg (.array c a) d.trg).sendDrains c)) ∧
  (∀ (s : State) (c a : Nat) (o : MOp) (q : List MOp), c < 512 → a < 4 → ((s.core c).arr a).opq = o :: q → mopOf o.raw = 0x14 →
    (∀ m, ((s.core c).arr a).mma = some m → mmaEXM m.op.raw = false) → 0 < (s.gate (c / 64)).eff →
    Runs (.emcPerform c a) s (s.updCore c fun k => { (k.updArr a fun x => { x with
      opq := q, ringBase := o.emcBase, ringS := o.emcS, ringFree := o.emcS, ringNext := 0, ringCtr := o.emcCtr }) with async := true })) ∧
  (∀ (s : State) (c a : Nat) (o : MOp) (q : List MOp), c < 512 → a < 4 → ((s.core c).arr a).opq = o :: q → mopOf o.raw = 0x18 →
    (∀ m, ((s.core c).arr a).mma = some m → nbit o.raw.toNat 47 = false ∧ nbit (sf o.raw 55 48) (mAcc m.op.raw) = false) →
    0 < (s.gate (c / 64)).eff →
    ∃ t, Runs (.mclrAct c a) s t ∧ OnlyCore c s t ∧ ((t.core c).arr a).opq = q ∧
      ((t.core c).arr a).aScl = (if nbit o.raw.toNat 47 then [] else ((s.core c).arr a).aScl) ∧
      ((t.core c).arr a).bScl = (if nbit o.raw.toNat 47 then [] else ((s.core c).arr a).bScl) ∧
      ((t.core c).arr a).acc = ((List.range 8).foldl (fun y n => if nbit (sf o.raw 55 48) n then wipeTile y n else y) ((s.core c).arr a)).acc ∧
      ((t.core c).arr a).flags = ((s.core c).arr a).flags ∧ ∀ b, b < 4 → b ≠ a → (t.core c).arr b = (s.core c).arr b)

/-- A free bank grants the oldest of its ports' requests, MAINT last unless it has waited 256 cycles; reads return
their words, writes change their bytes alone, AADD adds; a write-back, a scrub and a self-test slice act through
MAINT. For region r below 512, its terrace ready, and bank b below 32, free in floor cycle cyc. (1) What is granted
is never older than another port's head, and MAINT is granted only where no other port asks or it has waited 256
cycles. With a request alone at HOME-T: (2) a read returns the words it covers with their spoil bits; (3) a write to
a bank in service changes exactly the bytes its mask names; (4) an AADD replaces its word by the sum, once. (5) A
queued write-back leaves MAINT and no word changes. (6) With patrol scrub on, the bank in service and no other
request, the next line is read and its findings act; the row moves on modulo 8,192 and no byte changes; (7) where
another port asks, the scrub waits in MAINT. (8) With self-test on, a slice tests the next row and occupies the bank
for its length, at most 48 cycles; with two or more faulty cells in a word the bank is retired. -/
def Obligations.BankGrantsOneAccess : Prop :=
  (∀ (k : Bank) (cyc : Nat) (g : Nat × Bool), bankGrant k cyc = some g →
    (g.1 = 3 → (k.homeT = [] ∧ k.homeM = [] ∧ k.mesh = []) ∨ ∃ m ∈ k.maint.head?, m.age + 256 ≤ cyc) ∧
    (g.1 ≠ 3 → g.1 < 3 ∧ (k.port g.1) ≠ [] ∧ ∀ i < 3, ∀ x ∈ (k.port i).head?, ∀ y ∈ (k.port g.1).head?, y.age ≤ x.age)) ∧
  (∀ (s : State) (r b cyc : Nat) (q : BankReq) (l : List BankReq) (f : EccFind), r < 512 → b < 32 → s.regionUp r = true →
    (s.bank r b).busy ≤ cyc → (s.bank r b).homeT = q :: l → (s.bank r b).homeM = [] → (s.bank r b).mesh = [] → (s.bank r b).maint = [] →
    q.port = .homeT → q.who ≠ .slice → q.write = false → q.aadd = false →
    Runs (.bankAccess r b cyc f) s
      (((s.bankTake r b cyc (0, false) q).spReads q.words f).1.bankReply r b q
        (q.words.zip ((s.bankTake r b cyc (0, false) q).spReads q.words f).2))) ∧
  (∀ (s : State) (r b cyc : Nat) (q : BankReq) (l : List BankReq) (f : EccFind), r < 512 → b < 32 → s.regionUp r = true →
    (s.bank r b).busy ≤ cyc → (s.bank r b).homeT = q :: l → (s.bank r b).homeM = [] → (s.bank r b).mesh = [] → (s.bank r b).maint = [] →
    q.port = .homeT → q.who ≠ .slice → q.write = true → q.aadd = false → q.word < 2 ^ 29 → s.bankDead (regionOf q.word) (bankOf q.word) = false →
    Memory.wf s.floor.ram.bytes = true →
    ∃ t, Runs (.bankAccess r b cyc f) s t ∧ t = { s with floor := t.floor, cores := t.cores } ∧
      ∀ a, t.floor.ram.byte a = if a / 16 = q.word / 4 ∧ q.bmask.getLsbD (a % 16) = true then
          BitVec.ofNat 8 ((q.data.getD (a / 4 % 4) 0#32).toNat / 2 ^ (8 * (a % 4)))
        else s.floor.ram.byte a) ∧
  (∀ (s : State) (r b cyc : Nat) (q : BankReq) (l : List BankReq), r < 512 → b < 32 → s.regionUp r = true →
    (s.bank r b).busy ≤ cyc → (s.bank r b).homeT = q :: l → (s.bank r b).homeM = [] → (s.bank r b).mesh = [] → (s.bank r b).maint = [] →
    q.port = .homeT → q.who ≠ .slice → q.aadd = true → s.bankDead (regionOf q.word) (bankOf q.word) = false →
    ∃ t, Runs (.bankAccess r b cyc { fixed := [], bad := [] }) s t ∧ t = { s with floor := t.floor, cores := t.cores } ∧
      t.floor.ram = s.floor.ram.setWord q.word (s.floor.ram.word q.word + q.data.getD (q.word % 4) 0#32)
        (s.floor.ram.spoilt q.word || q.spoil.getLsbD (q.word % 4)) ∧ (t.bank r b).busy = cyc + 2) ∧
  (∀ (s : State) (r b cyc : Nat) (m : BankReq) (l : List BankReq), r < 512 → b < 32 → s.regionUp r = true → (s.bank r b).busy ≤ cyc →
    (s.bank r b).maint = m :: l → m.port = .maint → m.who = .back → m.aadd = false →
    (m.age + 256 ≤ cyc ∨ ((s.bank r b).homeT = [] ∧ (s.bank r b).homeM = [] ∧ (s.bank r b).mesh = [])) →
    Runs (.maintWriteback r b cyc) s ((s.updBank r b fun k => { k with maint := l, busy := cyc + 1 }).floorAt cyc)) ∧
  (∀ (s : State) (r b cyc : Nat) (f : EccFind), r < 512 → b < 32 → s.regionUp r = true → (s.bank r b).busy ≤ cyc →
    (s.terr (r / 128)).scrub = true → s.bankDead r b = false → (s.bank r b).homeT = [] → (s.bank r b).homeM = [] → (s.bank r b).mesh = [] →
    (s.bank r b).maint = [] →
    ∃ t, Runs (.patrolScrub r b cyc f) s t ∧ (t.bank r b).scrubRow = ((s.bank r b).scrubRow + 1) % 8192 ∧ (t.bank r b).busy = cyc + 1 ∧
      t.floor.ram.bytes = s.floor.ram.bytes ∧ t.cores = s.cores ∧ t.hbm = s.hbm ∧
      (f = { fixed := [], bad := [] } → t.floor.ram = s.floor.ram ∧ t = { s with floor := t.floor })) ∧
  (∀ (s : State) (r b cyc : Nat) (f : EccFind), r < 512 → b < 32 → (s.terr (r / 128)).scrub = true → s.bankDead r b = false →
    (s.bank r b).homeT ++ (s.bank r b).homeM ++ (s.bank r b).mesh ≠ [] →
    (∀ q ∈ (s.bank r b).homeT ++ (s.bank r b).homeM ++ (s.bank r b).mesh, q.port ≠ .maint) → (s.bank r b).maint = [] →
    Runs (.patrolScrub r b cyc f) s ((s.updBank r b fun k => { k with maint := k.maint ++ [maintReq cyc .scrub 0] }).floorAt cyc)) ∧
  (∀ (s : State) (r b cyc len faulty : Nat), r < 512 → b < 32 → s.regionUp r = true → (s.bank r b).busy ≤ cyc →
    (s.terr (r / 128)).bist = true → s.bankDead r b = false → (s.bank r b).homeT = [] → (s.bank r b).homeM = [] → (s.bank r b).mesh = [] →
    (s.bank r b).maint = [] →
    ∃ u, (u.bank r b).bistRow = ((s.bank r b).bistRow + 1) % 8192 ∧ (u.bank r b).busy = cyc + min len 48 ∧ u.floor.ram = s.floor.ram ∧
      u = { s with floor := u.floor } ∧ Runs (.bankSelftestSlice r b cyc len faulty) s (if 2 ≤ faulty then u.bankRetire r b else u))

/-- The mesh forwards along gx before gy; a bonded group delivers, asks for a retry, replays and returns credits; a
lasting lane moves to the spare. With every terrace ready, for stops below 512, interfaces below 519 and groups
below 336. (1) A flit alone at a mesh stop leaves by the output of dimension-ordered routing to the neighbouring
stop, arriving on the opposite input. (2) A request at its own stop joins the MESH queue of its bank; (3) a reply at
its own stop reaches the unit that asked. (4) A transfer of at most four words found good, on a group with nothing
to replay and no retry asked, is delivered with its spoil bits; one found good in a corrected lane is also counted
and reported with cause 0x03. (5) On a data group an uncorrectable transfer is delivered with every spoil bit set
and reported with cause 0x04; (6) on a command group it asks for a retry and waits in the replay buffer. (7) While a
retry is asked later transfers wait behind it. (8) The sender replays, oldest first. (9) An emptied receive entry
returns one credit, and requests that waited for it are sent. (10) A lasting lane, with nothing in flight to be
replayed, is switched to the spare and counted in SPARED with its group and lane. -/
def Obligations.FloorWiresMoveAndRepair : Prop :=
  (∀ (s : State) (stop plane cyc : Nat) (f : Flit), s.floorUp = true → stop < 512 → plane < 2 → f.inp < 5 → meshOut stop f.dst ≠ 0 →
    meshOut stop f.dst < 5 → tget [] s.floor.stops (2 * stop + plane) = [f] →
    Runs (.meshFlitArrival stop plane (meshOut stop f.dst) cyc) s
      ((((s.updFloor fun x => { x with stops := tupd [] x.stops (2 * stop + plane) (·.erase f) }).floorAt cyc).flitOwe stop f).updFloor fun x =>
        { x with
          stops := tupd [] x.stops (2 * (meshNext stop (meshOut stop f.dst)).1 + plane)
            (· ++ [{ f with inp := (meshNext stop (meshOut stop f.dst)).2, age := cyc + 1 }]) })) ∧
  (∀ (s : State) (stop plane cyc : Nat) (f : Flit) (q : BankReq), s.floorUp = true → stop < 512 → plane < 2 → f.inp < 5 →
    meshOut stop f.dst = 0 → f.req = some q → f.rep = none → tget [] s.floor.stops (2 * stop + plane) = [f] →
    Runs (.meshFlitArrival stop plane 0 cyc) s
      ((((s.updFloor fun x => { x with stops := tupd [] x.stops (2 * stop + plane) (·.erase f) }).floorAt cyc).flitOwe stop f).updBank
        (regionOf q.word) (bankOf q.word) fun k => { k with mesh := k.mesh ++ [{ q with port := .mesh, age := cyc }] })) ∧
  (∀ (s : State) (stop plane cyc : Nat) (f : Flit) (x : Acc × List (Nat × W32 × Bool)), s.floorUp = true → stop < 512 → plane < 2 → f.inp < 5 →
    meshOut stop f.dst = 0 → f.req = none → f.rep = some x → tget [] s.floor.stops (2 * stop + plane) = [f] →
    Runs (.meshFlitArrival stop plane 0 cyc) s
      ((((s.updFloor fun x => { x with stops := tupd [] x.stops (2 * stop + plane) (·.erase f) }).floorAt cyc)).accGot x.1 x.2)) ∧
  (∀ (s : State) (c g : Nat) (x : BondXfer) (u : State), s.floorUp = true → c < 519 → g < 336 → x.words.length ≤ 4 → (s.group c g).retry = false →
    (s.group c g).replay = [] → x.bad = false →
    u = (s.updGroup c g fun k => { k with got := x.words.zip (x.spoil ++ List.replicate x.words.length false), replay := [], fails := 0 }) →
    (x.lane = none → Runs (.bondTransferReceive c g x) s u) ∧
    (∀ l, x.lane = some l → l < 17 → Runs (.bondTransferReceive c g x) s
      (((u.updBond c fun b => { b with laneEvt := satAdd 8 b.laneEvt 1 }).report (bondRep 1 c 0x03 (g + l * 65536))).winEvent 0
        (c * 2 ^ 20 + g * 32 + l) (·.laneLasting c g l)))) ∧
  (∀ (s : State) (c g : Nat) (x : BondXfer), s.floorUp = true → c < 519 → g < 320 → x.words.length ≤ 4 → x.lane = none → (s.group c g).retry = false →
    (s.group c g).replay = [] → x.bad = true →
    Runs (.bondTransferReceive c g x) s ((s.updGroup c g fun k =>
      { k with got := x.words.map (fun w => (w, true)), replay := [], fails := 0 }).report (bondRep 2 c 0x04 g))) ∧
  (∀ (s : State) (c g : Nat) (x : BondXfer), s.floorUp = true → c < 519 → 320 ≤ g → g < 336 → x.words.length ≤ 4 → x.lane = none →
    (s.group c g).retry = false → (s.group c g).replay = [] → x.bad = true → (s.group c g).fails < 3 →
    Runs (.bondTransferReceive c g x) s (s.updGroup c g fun k => { k with retry := true, fails := k.fails + 1, replay := [x] })) ∧
  (∀ (s : State) (c g : Nat) (x : BondXfer), s.floorUp = true → c < 519 → g < 336 → x.words.length ≤ 4 → x.lane = none → (s.group c g).retry = true →
    (s.group c g).replay.length < 32 →
    Runs (.bondTransferReceive c g x) s (s.updGroup c g fun k => { k with replay := k.replay ++ [x] })) ∧
  (∀ (s : State) (c g : Nat), c < 519 → g < 336 → (s.group c g).retry = true →
    Runs (.bondReplay c g) s (s.updGroup c g fun k => { k with retry := false })) ∧
  (∀ (s : State) (c k : Nat), c < 519 → k < 67 → 0 < tget 0 s.floor.owed (1024 * c + k) → s.creditHeld c k = false →
    Runs (.bondCreditReturn c k) s ((List.range 4).foldl (fun t j => t.pumpAll (4 * c + j))
      (s.updFloor fun f => { f with owed := tupd 0 f.owed (1024 * c + k) (· - 1), spent := tupd 0 f.spent (1024 * c + k) (· - 1) }))) ∧
  (∀ (s : State) (c g l : Nat), c < 519 → g < 336 → (s.group c g).retire = some l → (s.group c g).retry = false → (s.group c g).replay = [] →
    ∃ t, Runs (.laneRetireSwitch c g) s t ∧ (t.group c g).spare = some l ∧ (t.group c g).retire = none ∧
      (t.bond c).spared = (s.bond c).spared + 1 ∧ (t.bond c).lastGrp = g ∧ (t.bond c).lastLane = l ∧
      t = { s with floor := t.floor, flt := t.flt })

/-- A core's or the fabric's request is performed only under its region's partition, otherwise discarded and reported;
host and maintenance requests are not checked. A unit request on a mapped 32-byte unit, in a group its requester may
use, from requester `who`. (1) Of an optical engine or a collective engine, with the region's PART: it is admitted
with its place under the region's map. (2) Of the same requesters with another partition: it is discarded and
reported with cause 0x16, and nothing else changes. (3) Of a core, for a unit of one of its copies, where the region
has the device's partition: it is admitted in the same way; (4) where it has another: it is discarded and reported
with cause 0x16, and the copy has that unit less to wait for. (5) Of the host: it is admitted whatever its
partition, and so is every translation for controller maintenance. -/
def Obligations.PartitionIsCheckedAtTranslation : Prop :=
  (∀ (s : State) (r : UnitReq) (n : Nat) (e : Region), r.addr % 32 = 0 → r.addr < 2 ^ 40 → r.group < 16 → s.groupFits r = true →
    s.rgnAt r.addr = some (n, e) → ((∃ i, r.who = .engine i) ∨ (∃ i, r.who = .coll i)) →
    (e.part = r.part → Runs (.hbmUnitRequest r) s (s.updHbm fun h => { h with
      waitq := h.waitq ++ [{ req := r, st := (e.place r.addr).1, so := (e.place r.addr).2, rgn := n, gen := tget 0 h.rgnGen n }] })) ∧
    (e.part ≠ r.part → Runs (.hbmUnitRequest r) s (s.report (reqRep r.who 0x16 r.addr)))) ∧
  (∀ (s : State) (r : UnitReq) (c m n : Nat) (e : Region) (a : TAcc), r.addr % 32 = 0 → r.addr < 2 ^ 40 → r.group < 16 → s.groupFits r = true →
    r.who = .core c → c < 512 → (s.core c).copyUnit r.addr = some (a, m) → s.rgnAt r.addr = some (n, e) →
    (e.part = s.fab.part → Runs (.hbmUnitRequest r) s ((s.copyTaken c a m 0).updHbm fun h => { h with
      waitq := h.waitq ++ [{ req := copyReq { r with part := s.fab.part } a m, st := (e.place r.addr).1, so := (e.place r.addr).2, rgn := n,
                             gen := tget 0 h.rgnGen n }] })) ∧
    (e.part ≠ s.fab.part → Runs (.hbmUnitRequest r) s ((s.copyTaken c a m (a.unitEnds m)).report (reqRep (.core c) 0x16 r.addr)))) ∧
  (∀ (s : State) (r : UnitReq) (n : Nat) (e : Region), r.addr % 32 = 0 → r.addr < 2 ^ 40 → r.group < 16 → s.groupFits r = true →
    s.rgnAt r.addr = some (n, e) → r.who = .host →
    Runs (.hbmUnitRequest r) s (s.updHbm fun h => { h with
      waitq := h.waitq ++ [{ req := r, st := (e.place r.addr).1, so := (e.place r.addr).2, rgn := n, gen := tget 0 h.rgnGen n }] })) ∧
  (∀ (s : State) (part a n : Nat) (e : Region), s.rgnAt a = some (n, e) →
    s.admitUnit .maint part a = (s, some (n, (e.place a).1, (e.place a).2)))

/-- Under every map two different addresses of one region are stored at different places, each inside the stacks the map
names. For every region entry with SEL and CHAN in range, and for FINE and TERRACE with a SIZE that is a multiple of
3: two different addresses that the entry covers have different places (stack and stack offset), every place lies on
a stack that the map names, and for FINE, TERRACE and STACK its stack offset lies in the entry's backing range. -/
def Obligations.InterleaveMapsKeepBytesApart : Prop :=
  ∀ e : Region, e.selOk = true → (e.map < 2 → e.size % 3 = 0) →
    (∀ a b, e.covers a = true → e.covers b = true → e.place a = e.place b → a = b) ∧
    (∀ a, e.covers a = true → (e.place a).1 ∈ e.stacks) ∧
    (∀ a, e.map < 3 → e.covers a = true → e.backing.1 ≤ (e.place a).2 ∧ (e.place a).2 < e.backing.1 + e.backing.2)

/-- A unit passes its regulator with 32 bytes of tokens or without where BORROW allows, enters its pseudo-channel queue,
and is served in order per unit. (1) An engine's, the host's or a service's request for an unmapped unit is
discarded and reported with cause 0x15; a core's takes exception 0x05 in slot T. (2) In a group with a limit, the
oldest unit is admitted while the bucket holds 160 fifths of a byte and takes them; with RATE 0, and where BORROW's
first case holds, it is admitted without tokens; else it waits. (3) With BORROW a unit that has waited 4,096
controller cycles is admitted without a token. (4) A pseudo-channel queue that holds fewer than 64 entries, took
none this cycle, and whose stack's level permits the cycle accepts the oldest unit. (5) What goes first is never
younger than another. (6) Entry i of a queue is served where R162 and R171 let it; without a slice, that is where no
earlier entry is for its unit or has waited 512 cycles. (7) The first entry that no slice holds is served once it
has waited 512 cycles. (8) A read of a clean unit on a serving stack returns its bytes and spoil bits and changes
nothing stored; (9) a write changes exactly the bytes its mask names. Stacks are below 12 and pseudo-channels below
64. -/
def Obligations.DeviceMemoryRequestsPass : Prop :=
  (∀ (s : State) (r : UnitReq), r.addr % 32 = 0 → r.addr < 2 ^ 40 → r.group < 16 → s.groupFits r = true → s.rgnAt r.addr = none →
    ((∀ c, r.who ≠ .core c) → Runs (.hbmUnitRequest r) s (s.report (reqRep r.who 0x15 r.addr))) ∧
    (∀ c a n, r.who = .core c → c < 512 → (s.core c).copyUnit r.addr = some (a, n) →
      Runs (.hbmUnitRequest r) s ((s.copyTaken c a n (a.unitEnds n)).coreException c 5 3))) ∧
  (∀ (s h : State) (g cyc : Nat) (u : HUnit) (tie : Bool), g < 16 → h = s.regFill g cyc →
    oldest (h.waiting g) (h.grp g).rot reqCount (fun u => reqNo u.req.who) = some (u, tie) →
    ((h.grp g).rate = 0 → Runs (.regulatorAdmit g cyc) s (h.regPass g cyc u tie false)) ∧
    ((h.grp g).rate ≠ 0 → 160 ≤ (h.grp g).level → Runs (.regulatorAdmit g cyc) s (h.regPass g cyc u tie true)) ∧
    ((h.grp g).rate ≠ 0 → (h.grp g).level < 160 → (h.grp g).borrow = true → h.mayBorrow u = true →
      Runs (.regulatorAdmit g cyc) s (h.regPass g cyc u tie false)) ∧
    ((h.grp g).rate ≠ 0 → (h.grp g).level < 160 → ((h.grp g).borrow = false ∨ h.mayBorrow u = false) → Runs (.regulatorAdmit g cyc) s h) ∧
    ((h.grp g).borrow = true → u.req.cyc + 4096 ≤ cyc → Runs (.borrowAgeExpiry g cyc) s (h.regPass g cyc u tie false))) ∧
  (∀ (s : State) (g cyc : Nat) (u : HUnit) (tie token : Bool), ∃ t, t = s.regPass g cyc u tie token ∧
    (t.grp g).level = (s.grp g).level - (if token then 160 else 0) ∧ t.hbm.waitq = s.hbm.waitq.erase u ∧
    t.hbm.offer = s.hbm.offer ++ [{ u with req := { u.req with cyc := cyc } }] ∧ t = { s with hbm := t.hbm }) ∧
  (∀ (s : State) (st pc cyc : Nat) (u : HUnit) (tie : Bool), st < 12 → pc < 64 →
    oldest (s.hbm.offer.filter fun u => u.st == st && u.pc == pc) (tget 0 s.hbm.pcRot (64 * st + pc)) 5 (fun u => u.req.input)
      = some (u, tie) →
    (s.pcEntries st pc).length < 64 → tget 0 s.hbm.accAt (64 * st + pc) ≤ cyc → cyclePermitted (s.gate (16 + st)).eff cyc = true →
    Runs (.pcQueueAccept st pc cyc) s (s.updHbm fun h => { h with
      offer := h.offer.erase u, pcq := h.pcq ++ [(cyc, u)], accAt := tput h.accAt (64 * st + pc) (cyc + 1),
      pcRot := if tie then tput h.pcRot (64 * st + pc) ((u.req.input + 1) % 5) else h.pcRot })) ∧
  (∀ (l : List HUnit) (rot n : Nat) (f : HUnit → Nat) (u : HUnit) (tie : Bool), oldest l rot n f = some (u, tie) →
    u ∈ l ∧ ∀ x ∈ l, u.req.cyc ≤ x.req.cyc) ∧
  (∀ (s : State) (st pc i cyc : Nat) (e : Ecc) (x : Nat × HUnit), st < 12 → pc < 64 → s.mayServe st pc i cyc = some x →
    Runs (.hbmRequestServe st pc i cyc e) s (s.unitServe x e)) ∧
  (∀ (s : State) (st pc i cyc : Nat) (x : Nat × HUnit), s.hbm.test = [] → s.hbm.first = [] → (s.pcEntries st pc)[i]? = some x →
    (s.mayServe st pc i cyc = some x ↔ ∀ y ∈ (s.pcEntries st pc).take i, y.2.so / 32 ≠ x.2.so / 32 ∧ cyc < y.1 + 512)) ∧
  (∀ (s : State) (st pc cyc : Nat) (e : Ecc) (x : Nat × HUnit) (l : List (Nat × HUnit)), st < 12 → pc < 64 →
    s.pcEntries st pc = x :: l → s.unitHeld x.2 = false → x.1 + 512 ≤ cyc → Runs (.hbmAgeLimit st pc cyc e) s (s.unitServe x e)) ∧
  (∀ (s : State) (x : Nat × HUnit), x.2.req.write = false → (s.stack x.2.st).st ≠ 3 → (∀ c, x.2.req.who ≠ .core c) → x.2.req.who ≠ .maint →
    s.unitServe x .clean = (s.updHbm fun h => { h with pcq := h.pcq.erase x, first := h.first.erase x }).emit (.unitData x.2.req.id
      (cellRange s.hbm.ram.bytes (hkey x.2.st x.2.so) 32)
      (BitVec.ofNat 8 ((((List.range 8).map fun i => s.hbm.ram.spoilt (hkey x.2.st x.2.so / 4 + i)).map b2n).foldr (fun b a => b + 2 * a) 0)))) ∧
  (∀ (s : State) (x : Nat × HUnit) (a : Nat), x.2.req.write = true → (s.stack x.2.st).st ≠ 3 → x.2.req.who ≠ .maint →
    Memory.wf s.hbm.ram.bytes = true →
    cellGet (s.unitServe x .clean).hbm.ram.bytes a =
      if hkey x.2.st x.2.so ≤ a ∧ a < hkey x.2.st x.2.so + 32 ∧ x.2.req.mask.getLsbD (a - hkey x.2.st x.2.so) = true then
        x.2.req.data.getD (a - hkey x.2.st x.2.so) 0#8
      else cellGet s.hbm.ram.bytes a)

/-- Write-backs, patrol scrub, refresh, the temperature sensor and self-test slices act on their stacks; a drained
region entry ends its command. For a stack below 12. (1) A queued write-back whose turn it is leaves its queue; no
stored byte changes. (2) On a serving stack with scrub on, the read of the next unit goes to the controller when it
is due, unless a slice holds its bank group; the position moves on and the next one is due a gap later. (3) A
serving stack's bank takes a refresh. (4) A sensor reading is stored and sets HOT above 85 °C and clears it
otherwise. (5) A self-test slice starts on the bank group in turn after its interval, with no refresh pending; (6)
one that ends without a fault, with no marked row in that group, moves the turn on, lets the held requests go, the
oldest first, and changes nothing stored. (7) With the old entry's units all complete, the first REGION_SET started
on entry n below 64 ends with DONE. -/
def Obligations.DeviceMemoryIsMaintained : Prop :=
  (∀ (s : State) (st so cyc i : Nat) (x : Nat × HUnit), st < 12 →
    (s.pcEntries st (2 * chanOf so + pcOf so)).findIdx? (fun x => x.2.isBack st so) = some i →
    s.mayServe st (2 * chanOf so + pcOf so) i cyc = some x → x.2.req.who = .maint → x.2.req.write = true →
    Runs (.hbmMaintWriteback st so cyc) s (s.updHbm fun h => { h with pcq := h.pcq.erase x, first := h.first.erase x })) ∧
  (∀ (s : State) (st cyc : Nat), st < 12 → s.stackRuns st = true → (s.stack st).scrub = true → (s.stack st).scrubDue ≤ cyc →
    s.unitHeld (maintUnit st (32 * (s.stack st).scrubAt) 0 cyc) = false →
    Runs (.hbmPatrolScrub st cyc) s ((s.updStack st fun k =>
      { k with scrubAt := (k.scrubAt + 1) % (stackBytes / 32), scrubDue := cyc + scrubGap s.hbm.scrubH }).updHbm fun h =>
        { h with waitq := h.waitq ++ [maintUnit st (32 * (s.stack st).scrubAt) 0 cyc] })) ∧
  (∀ (s : State) (st bank : Nat), st < 12 → s.stackRuns st = true →
    Runs (.hbmRefresh st bank) s (s.updStack st fun k => { k with refreshes := tupd 0 k.refreshes bank (· + 1) })) ∧
  (∀ (s : State) (st temp : Nat), st < 12 →
    Runs (.stackHotChange st temp) s (s.updStack st fun k => { k with temp := temp % 256, hot := decide (temp > 85) })) ∧
  (∀ (s : State) (st pc row ms faults : Nat) (spare : Bool) (e : Ecc), st < 12 → pc < 64 → s.stackRuns st = true →
    s.hbm.test.find? (fun x => x.1 == st && x.2.1 == pc) = none → s.hbm.sliceMs ≤ ms →
    rowBg (Config.hbmRowFirst row * 64 + pc) = tget 0 s.hbm.sliceBg (64 * st + pc) % 4 →
    Runs (.hbmSelftestSlice st pc row ms faults false false spare e) s
      ((s.updHbm fun h => { h with test := h.test ++ [(st, pc, rowBg (Config.hbmRowFirst row * 64 + pc), Config.hbmRowFirst row * 64 + pc)] }).updStack
        st fun k => { k with slice := true })) ∧
  (∀ (s : State) (st pc row ms bg r : Nat) (ref spare : Bool) (e : Ecc), st < 12 → pc < 64 →
    s.hbm.test.find? (fun x => x.1 == st && x.2.1 == pc) = some (st, pc, bg, r) → (s.stack st).marked = [] →
    ∃ t, Runs (.hbmSelftestSlice st pc row ms 0 true ref spare e) s t ∧ tget 0 t.hbm.sliceBg (64 * st + pc) = (bg + 1) % 4 ∧
      t.hbm.test = s.hbm.test.filter (fun x => !(x.1 == st && x.2.1 == pc)) ∧ t.hbm.ram = s.hbm.ram ∧ t.hbm.pcq = s.hbm.pcq ∧
      t.hbm.first = s.hbm.first ++ ((s.pcEntries st pc).find? fun x => rowBg (rowOfSo x.2.so) == bg).toList ∧ t = { s with hbm := t.hbm }) ∧
  (∀ (s : State) (n : Nat) (x : RgnSet) (l : Long), n < 64 → s.hbm.sets = [x] → x.n = n → x.live = true →
    (∀ u ∈ s.unitsIn n, u.gen = s.rgnGen n) → s.longAt x.hnd = some l → l.idx = x.hnd →
    ∃ t, Runs (.regionSetDrained n) s t ∧ t.hbm.sets = [] ∧ t.hbm.rgns = s.hbm.rgns ∧
      Ended s t l (s.finalCeq l.q l.sid) 2 0#32 0#32 0#32 0#32 ∧
      t = { s with hbm := t.hbm, host := t.host })

/-- Reading the frame of any well-formed cell gives the cell back, in every field at every value, and its CRC is good.
For every cell whose fields lie in the widths of Table 7-2, with no reserved flag, at most 240 payload bytes and LEN
equal to their number, and for every SEQ and ACK: the cell's 256 bytes and the 264 bytes of its frame both read back
as that cell, the frame's CRC is good, and bytes 256 to 259 hold SEQ and ACK. The order in which CRC-32C takes its
bits is the model's (log entry 21) and both ends share it. -/
def Obligations.CellsSurviveTheirFrame : Prop :=
  ∀ (c : Cell) (seq ack : Nat), c.src < 65536 → c.dest < 65536 → c.typ < 256 → c.gen < 4 → c.epoch < 4 → c.vc < 16 → c.qtag < 65536 →
    c.flags.toNat < 32 → c.len = c.payload.length → c.payload.length ≤ 240 → c.part < 4096 → c.msgoff < 2 ^ 24 → c.rsv = false →
    seq < 65536 → ack < 65536 →
    c.bytes.length = 256 ∧ cellOf c.bytes = c ∧ (frameBytes c seq ack).length = 264 ∧ cellOf (frameBytes c seq ack) = c ∧
      frameGood (frameBytes c seq ack) = true ∧ fieldLe (frameBytes c seq ack) 256 2 = seq ∧ fieldLe (frameBytes c seq ack) 258 2 = ack

/-- Injected cells are routed or queued; a LID replays first, then sends data while it may; control frames, retries and
mask reports leave as their rules say. For a LID below 96. (1) A cell of a routed VC is formed with its destination
taken through LOG2PHYS and routed; (2) one of a single-hop VC is queued on its UP LID. (3) FRAME_SEND sends the next
frame to be replayed where one waits and no control frame is due, marked with the kind of credit it spent; (4) else
on an UP LID with room in the retry buffer the arbiter's choice, in a link cycle that the LINK level permits; (5)
else the line's slot passes idle. (6) With a count or NAK pending a control frame leaves where no data frame is
ready or a replay waits; (7) with one pending for 2 µs it leaves whatever waits. (8) With frames unacknowledged for
16 µs all of them are replayed from the oldest, (9) the eighth time in a row the LID goes DOWN instead. (10) Once
every frame on a leaving line is acknowledged, the new mask is reported. -/
def Obligations.FramesLeaveTheLid : Prop :=
  (∀ (s : State) (x : InjReq) (cyc : Nat), s.fencedPart x.part = false → (x.part ≠ 0 ∨ vcClassOf x.vc = 5) → x.vc < 14 →
    x.payload.length ≤ 240 → typClass x.typ = some (vcClassOf x.vc) →
    (vcRouted x.vc = true → Runs (.cellInject x cyc) s (((s.linkAt cyc).countInj s.fab.curEp).routeCell 127
      (s.form (s.l2p x.dest) x.typ (x.vc / 2 * 2) x.qtag x.flags x.part x.msgoff x.payload))) ∧
    (vcRouted x.vc = false → x.lid < 96 → (s.lid x.lid).st = .up → s.fab.part ≠ 0 →
      Runs (.cellInject x cyc) s (((s.linkAt cyc).countInj s.fab.curEp).enqueue x.lid 0
        (s.form (s.lid x.lid).peer x.typ x.vc x.qtag x.flags s.fab.part x.msgoff x.payload)))) ∧
  (∀ (s : State) (l cyc : Nat) (x : Nat × Cell) (q : List (Nat × Cell)), l < 96 → (s.lid l).carries = true → (s.lid l).replay = x :: q →
    (s.lid l).due = false →
    Runs (.frameSend l cyc) s ((s.updLid l fun k => { k with replay := q }).emitData l x.2 x.1 ((s.lid l).shrSeqs.contains x.1))) ∧
  (∀ (s : State) (l cyc : Nat), l < 96 → (s.lid l).st = .up → (s.lid l).replay = [] →
    (∀ v n, (s.lid l).retry.length < (s.lid l).window → cyclePermitted (s.gate (32 + (s.lid l).port)).eff cyc = true →
      (s.gate (32 + (s.lid l).port)).eff ≠ 0 → (s.lid l).pick = some (v, n) → Runs (.frameSend l cyc) s (s.sendData l v n)) ∧
    (((s.lid l).pick = none ∨ (s.lid l).window ≤ (s.lid l).retry.length ∨ cyclePermitted (s.gate (32 + (s.lid l).port)).eff cyc = false) →
      Runs (.frameSend l cyc) s (s.frameSlot (s.lid l).port (s.lid l).nextLine))) ∧
  (∀ (s : State) (l v n : Nat) (e : Nat × Nat × Cell), (s.lid l).head v = some e → e.2.1 = 0 → vcRouted v = true → 0 < (s.lid l).shared →
    ∃ t, t = s.sendData l v n ∧ (t.lid l).retry = (s.lid l).retry ++ [((s.lid l).seq, e.2.2)] ∧ (t.lid l).seq = ((s.lid l).seq + 1) % 65536 ∧
      (t.lid l).shared = (s.lid l).shared - 1 ∧ (t.lid l).outq = (s.lid l).outq.erase e ∧
      Out.frame l (s.lid l).nextLine (frameBytes e.2.2 (s.lid l).seq (s.lid l).exp) true ∈ t.outs) ∧
  (∀ (s : State) (l : Nat), l < 96 → (s.lid l).carries = true → (s.lid l).due = true →
    ((s.lid l).replay ≠ [] ∨ s.dataPick l = none) → Runs (.controlFrameSend l) s (s.sendCtlFrame l)) ∧
  (∀ (s : State) (l us : Nat), l < 96 → (s.lid l).carries = true → (s.lid l).due = true → 2 ≤ us →
    Runs (.controlFrameDue l us) s (s.sendCtlFrame l)) ∧
  (∀ (s : State) (l us : Nat), l < 96 → (s.lid l).carries = true → (s.lid l).retry ≠ [] → 16 ≤ us →
    ∃ t, t = (s.updLid l fun k => { k with replay := (s.lid l).retry, replays := k.replays + 1, replayCnt := satAdd 8 k.replayCnt 1 }) ∧
      ((s.lid l).replays < 7 → Runs (.retryTimeout l us) s t) ∧
      (7 ≤ (s.lid l).replays → Runs (.retryTimeout l us) s (t.lidReplayLimit l))) ∧
  (∀ (s : State) (l : Nat) (m : BitVec 17), l < 96 → (s.lid l).carries = true → (s.lid l).newMask = some m → (s.lid l).left m = true →
    Runs (.maskChangeReport l) s ((s.updLid l fun k => { k with repMask := m }).sendCtlFrame l))

/-- A frame in order with a good CRC is accepted, others are discarded with a NAK; control frames return credits; LIDs
train and end their fences. For a LID below 96 that carries frames, and a line below 17 that is not foreign; what
the line's receiver counted is kept first. (1) A frame with a good CRC and SEQ = E is accepted after its ACK is
taken; (2) accepting advances E and clears NAK, and the cell goes to its test, partition check and route. (3) With
another SEQ it is discarded and NAK is set. (4) With a bad CRC it is counted in CRC_ERR with NAK set, up to eight in
a second. (5) A well-formed control frame adds the credits it newly counts to those held, keeps its counts, takes
the peer's mask and what its ACK acknowledges, and replays on a NAK. (6) A LID of the link table that is DOWN, on an
open port whose lines give a mask, and that no pending switch changes, starts to train. (7) Training with a common
generation, T_rt of at most 11.2 µs and the expected identities enters UP with SEQ 0 and the credits of R189; (8)
without a common generation it returns to DOWN and is reported. (9) A drained soft fence, and (10) one that has
lasted 50 ms, ends in a hard fence; (11) a LID drained because its set was retired is DOWN. -/
def Obligations.FramesArriveAtTheLid : Prop :=
  (∀ (s u : State) (l line cyc : Nat) (bs : List Byte) (sh : Bool) (rd : LineRead), l < 96 → line < 17 → bs.length = 264 →
    u = (s.linkAt cyc).lineRead (s.lid l).port line rd → (s.lid l).st ≠ .fenced → (u.lid l).carries = true →
    (u.line (s.lid l).port line).foreign_ = false →
    (frameGood bs = true → fieldLe bs 256 2 = (s.lid l).exp →
      Runs (.frameReceive l line cyc bs sh rd) s ((u.takeAck l (fieldLe bs 258 2)).accept l (cellOf bs) sh)) ∧
    (frameGood bs = true → fieldLe bs 256 2 ≠ (s.lid l).exp →
      Runs (.frameReceive l line cyc bs sh rd) s
        ((u.takeAck l (fieldLe bs 258 2)).updLid l fun k => { k with due := k.due || !k.nak, nak := true })) ∧
    (frameGood bs = false → (u.lid l).crcWin.2 < 8 → ∃ w, Runs (.frameReceive l line cyc bs sh rd) s (u.updLid l fun k => { k with
      crcErr := satAdd 16 k.crcErr 1, crcWin := w, nak := true, due := k.due || !k.nak }))) ∧
  (∀ (s : State) (p w : Nat) (rd : LineRead), rd.unc = 0 →
    s.lineRead p w rd = s.updLine p w fun x => x.count rd.corr 0 rd.power) ∧
  (∀ (s : State) (l : Nat) (c : Cell) (sh : Bool), cellFormatBad c = false → s.partOk l c = true →
    s.accept l c sh = (s.updLid l fun k => { k with
      exp := (k.exp + 1) % 65536, nak := false, due := k.due || k.nak, acc := tupd 0 k.acc c.epoch (satAdd 64 · 1)
      held := if vcRouted c.vc then k.held ++ [(c, sh)] else k.held }).routeCell l c) ∧
  (∀ (s u : State) (l line : Nat) (bs : List Byte) (rd : LineRead), l < 96 → line < 17 → bs.length = 264 →
    u = s.lineRead (s.lid l).port line rd → (u.lid l).carries = true → (u.line (s.lid l).port line).foreign_ = false →
    frameGood bs = true → u.ctlBad (cellOf bs) = false →
    ∃ t, t = ((u.updLid l fun k => (k.takeCredits (cellOf bs).payload).takeMask (BitVec.ofNat 17 (fieldLe (cellOf bs).payload 72 8))
        (u.usable (s.lid l).port) (nbit ((cellOf bs).payload.getD 70 0#8).toNat 1)).takeAck l (fieldLe bs 258 2)) ∧
      ((t.lid l).target ≠ 0#17 →
        (nbit ((cellOf bs).payload.getD 70 0#8).toNat 0 = false → Runs (.controlFrameReceive l line bs rd) s t) ∧
        (nbit ((cellOf bs).payload.getD 70 0#8).toNat 0 = true → (t.lid l).replay = [] → (t.lid l).retry ≠ [] →
          Runs (.controlFrameReceive l line bs rd) s
            (t.startReplay l ((t.lid l).retry.dropWhile fun f => f.1 != fieldLe (cellOf bs).payload 68 2)))) ∧
      ((t.lid l).target = 0#17 → Runs (.controlFrameReceive l line bs rd) s (t.lidDown l))) ∧
  (∀ (k : Lid) (p : List Byte), ∃ t, t = k.takeCredits p ∧ t.shared = k.shared + gained (bytesWord ((p.drop 64).take 4)) k.shrIn ∧
    t.shrIn = bytesWord ((p.drop 64).take 4) ∧
    (∀ v, v < 16 → tget 0 t.resv v = tget 0 k.resv v + gained (bytesWord ((p.drop (4 * v)).take 4)) (tget 0#32 k.crdIn v)) ∧
    (∀ v, v < 16 → tget 0#32 t.crdIn v = bytesWord ((p.drop (4 * v)).take 4))) ∧
  (∀ (s : State) (l : Nat) (e : LinkEnt), l < 96 → s.linkEnt l = some e → (s.lid l).st = .down → (s.port e.port).open_ = true →
    (s.light.swPend = false ∨ l ∉ s.light.swLids) → s.maskOf e.port (s.linesOf s.light.actSet e.port l) ≠ 0#17 → s.mod.nodebad = false →
    Runs (.lidTrainingStart l) s (s.updLid l fun k => { k with
      st := .training, port := e.port, peer := e.peer, part := e.part, w := (s.linesOf s.light.actSet e.port l).length
      wmask := s.maskOf e.port (s.linesOf s.light.actSet e.port l) })) ∧
  (∀ (s : State) (l rtt gen : Nat), l < 96 → (s.lid l).st = .training → nbit gen 1 = true → rtt ≤ 11200 →
    ∃ t, Runs (.lidTrainingComplete l rtt gen (s.lid l).peer (s.lid l).part) s t ∧ (∀ m, m ≠ l → t.lid m = s.lid m) ∧
      t = { s with fab := { s.fab with lids := t.fab.lids } } ∧ (t.lid l).st = .up ∧ (t.lid l).rtt = rtt ∧ (t.lid l).seq = 0 ∧
      (t.lid l).exp = 0 ∧ (t.lid l).retry = [] ∧ (t.lid l).shared = 1024 * (s.lid l).w - 128 ∧
      (∀ v, v < 6 ∨ v = 10 ∨ v = 11 → tget 0 (t.lid l).resv v = 16)) ∧
  (∀ (s : State) (l rtt gen node part : Nat), l < 96 → (s.lid l).st = .training → nbit gen 1 = false →
    Runs (.lidTrainingComplete l rtt gen node part) s ((s.updLid l fun k => { k with st := .down }).lidRep 2 l 0x30 gen)) ∧
  (∀ (s : State) (l ms : Nat), l < 96 → (s.lid l).st = .draining →
    ((s.lid l).fencing = true → (s.lid l).drained = true → Runs (.softFenceComplete l) s (s.hardFence l)) ∧
    ((s.lid l).fencing = true → 50 ≤ ms → Runs (.softFenceTimeout l ms) s (s.hardFence l)) ∧
    ((s.lid l).fencing = false → (s.lid l).retire = true → (s.lid l).drained = true → Runs (.softFenceComplete l) s (s.lidOff l .down)) ∧
    ((s.lid l).fencing = false → (s.lid l).retire = true → 50 ≤ ms → Runs (.softFenceTimeout l ms) s (s.lidOff l .down)))

/-- A target serves messages, waits for buffers, and completes batches in node order; a requester sends, gives up after
100 ms; a zero epoch sum frees the old set. (1) A message not yet refused, or in progress with its buffer, is served
by its type. (2) A refused one whose refusal has not been answered is refused with its status; one whose refusal has
been answered is discarded as its cells come. (3) A SEND that has waited NRQ_WAIT for a posted buffer is answered
NO_RESOURCE. (4) A sent message without its final answer after 100 ms completes with MSG_LOST on its queue; a mirror
counts as acknowledged badly. (5) A receive queue with B completions held for a batch posts the first B in ascending
order of logical node, each with its status, and holds the rest. (6) A zero sum of an old epoch, this device's INJ −
DLV and its ACC − TXA toward lost devices with the others', frees the old table set, drains the LIDs that the new
set changed and ends the command that wrote it. (7) The head entry of a network send queue with opcode 0x0130 (SEND)
or 0x0131 (WRITE), well formed, whose local memory is admitted, leaves its queue, opens a message with a reply slot
and sends its bytes; (8) with opcode 0x0132 (GET) the request for them. (9) A malformed entry completes with
BAD_PARAM. -/
def Obligations.MessagesAreServedAndCounted : Prop :=
  (∀ (s : State) (i : Nat) (m : InMsg), s.fab.inMsgs[i]? = some m →
    (m.refuse = none ∨ (m.acked = false ∧ m.buf.isSome = true)) →
    Runs (.reqMessageServe i) s (if m.cell.typ = 1 then s.serveSend m else if m.cell.typ = 2 then s.serveWrite m else s.serveGet m)) ∧
  (∀ (s : State) (i st : Nat) (m : InMsg), s.fab.inMsgs[i]? = some m → m.refuse = some st → m.acked = false → m.buf = none →
    Runs (.reqMessageServe i) s (s.refuseMsg m st)) ∧
  (∀ (s : State) (i st : Nat) (m : InMsg), s.fab.inMsgs[i]? = some m → m.refuse = some st → m.acked = true →
    Runs (.reqMessageServe i) s (if m.last then (s.freeMsg m).endIn m else (s.freeMsg m).setIn m { m with data := [] })) ∧
  (∀ (s : State) (i us : Nat) (m : InMsg), s.fab.inMsgs[i]? = some m → m.waits = true → m.buf = none →
    ((s.host.job.map (·.nrqWait)).getD 1000) ≤ us →
    Runs (.nrqWaitExpiry i us) s (if m.last then ((s.freeMsg m).sendAck m m.cell.src 0x105).endIn m
      else ((s.freeMsg m).sendAck m m.cell.src 0x105).setIn m { m with data := [], waits := false, refuse := some 0x105, acked := true })) ∧
  (∀ (s : State) (i ms c : Nat) (m : OutMsg), s.fab.outMsgs[i]? = some m → m.sent = true → 100 ≤ ms → m.use = 0 → s.ceqOf m.q = some c →
    ∃ t, Runs (.messageLostTimeout i ms) s t ∧ t.fab = { s.fab with outMsgs := s.fab.outMsgs.erase m } ∧
      t.host.recs = s.host.recs ++ [(c, rec0 m.tag m.q 0x10C m.sqh (BitVec.ofNat 32 m.len) 0#32 0#32 0#32 false)] ∧
      t = { s with fab := t.fab, host := { s.host with recs := t.host.recs } }) ∧
  (∀ (s : State) (i ms : Nat) (m : OutMsg), s.fab.outMsgs[i]? = some m → m.sent = true → 100 ≤ ms → m.use = 1 →
    Runs (.messageLostTimeout i ms) s ((s.updFab fun f => { f with outMsgs := f.outMsgs.erase m }).updTrain fun t =>
      { t with mirrors := t.mirrors - 1, mirBad := true })) ∧
  (∀ (s : State) (q c : Nat), q < 8192 → 0 < (s.que q).batch → (s.que q).batch ≤ (s.fab.holds.filter fun h => h.q == q).length →
    s.ceqOf q = some c →
    ∃ (t : State) (out : List NrqHold), Runs (.detseqBatchRelease q) s t ∧ out.Perm ((s.fab.holds.filter fun h => h.q == q).take (s.que q).batch) ∧
      out.Pairwise (fun x y => x.node ≤ y.node) ∧
      t.host.recs = s.host.recs ++ out.map (fun h => (c, rec0 h.tag q h.status (s.que q).head (BitVec.ofNat 32 h.len) (BitVec.ofNat 32 h.node) 0#32 0#32 false)) ∧
      t.fab = { s.fab with holds := s.fab.holds.filter (fun h => h.q != q) ++ (s.fab.holds.filter fun h => h.q == q).drop (s.que q).batch }) ∧
  (∀ (s : State) (others : Int) (lost : List Nat) (t : TabSet), s.fab.old = some t →
    others + ((tget 0 s.fab.inj s.fab.oldEp : Nat) : Int) - ((tget 0 s.fab.dlv s.fab.oldEp : Nat) : Int) + s.lostSum t lost = 0 →
    Runs (.epochSum others lost) s (((s.updFab fun f => { f with
      old := none, stby := f.stbyClr.foldl tdel f.stby, stbyClr := [], shadowHnd := 0 }).retireLids t).doneLong s.fab.shadowHnd)) ∧
  (∀ (s u v : State) (q typ slot dev len : Nat) (d : Desc) (r : List Byte × List Bool × Option Nat), q < 8192 → s.nsqHead q d = true →
    u = (s.entryAt .hub q (s.que q).head).1.popHead q → entryCheck (Desc.word d 0) = none → (s.que q).part ≠ 0 → len = (Desc.word d 6).toNat →
    len ≠ 0 → len ≤ 2 ^ 24 → (typ = 1 ∨ typ = 2) → netRsv d typ = false → u.fencedPart (s.que q).part = false → slot = u.newSlot →
    dev = (Desc.dword d 4).toNat % 2 ^ 40 → (∀ x ∈ unitsOf dev len, (u.admitUnit (.engine 0) (s.que q).part x).2.isSome = true) →
    u.memRead (.engine 0) (s.que q).part dev len = (v, r) → bitsOf (Desc.word d 0) 15 0 = 0x12F + typ →
    Runs (if typ = 1 then .netSend q d else .netWrite q d) s
      ((v.updFab fun f => { f with nextSlot := (slot + 1) % 65536, outMsgs := f.outMsgs ++
          [{ slot := slot, typ := typ, q := q, tag := Desc.word d 1, sqh := (v.que q).head, dev := dev, len := len, got := 0, sent := true,
             use := 0, part := (s.que q).part }] }).sendMsg (u.l2p (bitsOf (Desc.word d 2) 14 0)) typ (bitsOf (Desc.word d 3) 15 0)
        ((Desc.dword d 8).toNat % 2 ^ 40) slot (s.que q).part ((Desc.word d 2).getLsbD 31) (r.1.zip r.2.1))) ∧
  (∀ (s u : State) (q slot len : Nat) (d : Desc), q < 8192 → s.nsqHead q d = true →
    u = (s.entryAt .hub q (s.que q).head).1.popHead q → entryCheck (Desc.word d 0) = none → (s.que q).part ≠ 0 → len = (Desc.word d 6).toNat →
    len ≠ 0 → len ≤ 2 ^ 24 → netRsv d 3 = false → u.fencedPart (s.que q).part = false → slot = u.newSlot → bitsOf (Desc.word d 0) 15 0 = 0x132 →
    Runs (.netGet q d) s
      ((u.updFab fun f => { f with nextSlot := (slot + 1) % 65536, outMsgs := f.outMsgs ++
          [{ slot := slot, typ := 3, q := q, tag := Desc.word d 1, sqh := (u.que q).head, dev := (Desc.dword d 4).toNat % 2 ^ 40, len := len,
             got := 0, sent := true, use := 0, part := (s.que q).part }] }).inject (u.l2p (bitsOf (Desc.word d 2) 14 0)) 3 0
        (bitsOf (Desc.word d 3) 15 0) 1#8 (s.que q).part 0
        (natLe ((Desc.dword d 8).toNat % 2 ^ 40) 8 ++ natLe len 4 ++ natLe slot 2 ++ [0#8, 0#8]))) ∧
  (∀ (s u : State) (q : Nat) (d : Desc), q < 8192 → s.nsqHead q d = true → u = (s.entryAt .hub q (s.que q).head).1.popHead q →
    entryCheck (Desc.word d 0) = none →
    (bitsOf (Desc.word d 0) 15 0 = 0x130 → netRsv d 1 = true → Runs (.netSend q d) s (u.netRec q d 0x103 0#32 0#32)) ∧
    (bitsOf (Desc.word d 0) 15 0 = 0x131 → netRsv d 2 = true → Runs (.netWrite q d) s (u.netRec q d 0x103 0#32 0#32)) ∧
    (bitsOf (Desc.word d 0) 15 0 = 0x132 → netRsv d 3 = true → Runs (.netGet q d) s (u.netRec q d 0x103 0#32 0#32)))

/-- Every measurement sets the comb states and powers; a failed input gives way to an OK one; with neither OK every port
is dark; searches end; spans are measured. A measurement stores both inputs' states and line powers: state u. (1)
During start-up nothing else happens but the COMB entries of an input that became AGED or FAILED; after it, with
the selected input OK before and after, the searches that have ended then end. (2) A selected input A that was OK
and is now ABSENT or FAILED, with B OK, is left: SEL is 1 and SWCNT counts. (3) With neither input OK where one was,
every LID is lowered and every port parked and DARK, as the model's combLost does it; with input A OK again the DARK
ports are readmitted. (4) An AGED selected input is left after 10 s where the other is OK. (5) A first search
assigns the rings of its port; a later one locks them in their roles and the soak starts. (6) A span's powers and
return loss are stored; with a return loss of at least 35.00 dB and no span loss known the state stays CLEAN without
a report. -/
def Obligations.CombInputsAreMeasured : Prop :=
  (∀ (s : State) (a b : CombRead) (found : List (Nat × EngineFind)) (u : State),
    u = ((s.combNote 0 s.light.aSt (combState a)).combNote 1 s.light.bSt (combState b)).updLight
      (fun l => { l with aSt := combState a, bSt := combState b
                         aPwr := tputAll l.aPwr (a.lines.zipIdx.map fun e => (e.2, e.1))
                         bPwr := tputAll l.bPwr (b.lines.zipIdx.map fun e => (e.2, e.1)) }) →
    u.light.aSt = combState a ∧ u.light.bSt = combState b ∧
    (s.mod.step < 11 → Runs (.combMeasure a b found) s u) ∧
    (11 ≤ s.mod.step → s.light.sel = 0 → s.light.aSt = 1 → combState a = 1 →
      Runs (.combMeasure a b found) s (found.foldl (fun t f => t.searchDone f.1 f.2) u)) ∧
    (11 ≤ s.mod.step → s.light.sel = 0 → s.light.aSt = 1 → (combState a = 0 ∨ combState a = 3) → combState b = 1 →
      Runs (.combMeasure a b found) s (u.combSwitch 1)) ∧
    (11 ≤ s.mod.step → (s.light.aSt = 1 ∨ s.light.bSt = 1) → combState a ≠ 1 → combState b ≠ 1 →
      Runs (.combMeasure a b found) s u.combLost) ∧
    (11 ≤ s.mod.step → s.light.sel = 0 → s.light.aSt ≠ 1 → s.light.bSt ≠ 1 → combState a = 1 →
      Runs (.combMeasure a b found) s (found.foldl (fun t f => t.searchDone f.1 f.2) u.combBack))) ∧
  (∀ (s : State) (i : Nat), (s.combSwitch i).light.sel = i ∧ (s.combSwitch i).light.swCnt = satAdd 8 s.light.swCnt 1) ∧
  (∀ (s : State) (sec : Nat), 10 ≤ sec → s.light.sel = 0 → s.light.aSt = 2 → s.light.bSt = 1 →
    Runs (.combAgedSwitch sec) s (s.combSwitch 1)) ∧
  (∀ (s : State) (p : Nat) (f : EngineFind), (s.port p).st = .search → s.mod.rails = true →
    ((s.port p).searched = false → s.searchDone p f = s.startEngine p f) ∧
    ((s.port p).searched = true → s.searchDone p f = ((s.searchLines p f).lockPort p).updPort p fun x => { x with st := .soak })) ∧
  (∀ (s : State) (p : Nat) (rx tx : Int) (ret dark : Nat), p < 6 → 3500 ≤ ret → (s.port p).nbTx = none → (s.port p).telem = 0 →
    Runs (.telemetryMeasure p rx tx ret dark) s (s.updPort p fun x =>
      { x with rxtot := rx, txtot := tx, ret := ret % 65536, span := 0, base := (s.port p).base, telem := 0 }))

/-- A valid marker of the line's peer and logical line locks framing; a line without markers turns FOREIGN; a ring loop
keeps its heater; codewords are counted; soaks end and repeat. For port p below 6 and physical line w below 17. (1)
A valid marker on a dropped line that is not the spare, from the entry's PEER with the entry's logical line, counts
toward framing and clears the mismatches. (2) A marker with a bad SYNC or CRC restarts the framing count. (3) After
4 µs without a marker a dropped line that no pass-set switch has moved is FOREIGN and leaves its LIDs' masks. (4) A
ring correction within 6 GHz of error stores the heater setting, HEAT modulo 128. (5) What a line's receiver counted
with a frame is kept, and each uncorrectable codeword is one event of window 1. (6) A passed soak of a line in CAL
stores what it measured, locks the line's rings in their role and makes the line ready for the next PASS_EP, which
with no job running advances at once (log entry 171); a failed one counts and waits. (7) A passed or failed soak of
a port ends as the model's portSoak does it. (8) After 1 s the soak that waited is repeated. -/
def Obligations.MarkersGuardTheirLines : Prop :=
  (∀ (s : State) (p w : Nat) (bs : List Byte), p < 6 → w < 17 → (s.line p w).rxr = .drop → markerValid bs = true →
    (s.port p).logical w ≠ 16 → entPeer (s.lineEnt p w) = fieldLe bs 2 2 → fieldLe bs 5 1 % 32 = (s.port p).logical w →
    (s.line p w).susp = false →
    ∃ t, Runs (.markerReceive p w bs) s t ∧ (t.line p w).mism = 0 ∧ (t.line p w).good = min 2 ((s.line p w).good + 1) ∧
      (t.line p w).framed = ((s.line p w).framed || decide (1 ≤ (s.line p w).good)) ∧ (∀ q, t.port q = s.port q) ∧
      t = { s with light := t.light }) ∧
  (∀ (s : State) (p w : Nat) (bs : List Byte), p < 6 → w < 17 → (s.line p w).rxr = .drop → markerValid bs = false →
    Runs (.markerReceive p w bs) s (s.updLine p w fun x => { x with good := 0 })) ∧
  (∀ (s : State) (p w us : Nat), p < 6 → w < 17 → (s.line p w).rxr = .drop → 4 ≤ us → (s.line p w).foreign_ = false →
    (s.line p w).susp = false →
    ∃ src, src < 65536 ∧ Runs (.markerAbsentTimeout p w us) s (((((s.updLine p w fun x => { x with foreign_ := true }).report
      (rep 1 (10 + p) 0 w 0x39 src)).maskLeave p w)).tick)) ∧
  (∀ (s : State) (p w : Nat) (err : Int) (heat ns : Nat), p < 6 → w < 17 → ((s.line p w).rxr = .drop ∨ (s.line p w).rxr = .block) →
    -60 ≤ err → err ≤ 60 → ns < 1000 →
    Runs (.ringLoopUpdate p w 0 err heat ns) s (s.updLine p w fun x => { x with heat := heat % 128, set_ := heat % 128 })) ∧
  (∀ (s : State) (p w : Nat) (r : LineRead),
    (r.unc = 0 → s.lineRead p w r = s.updLine p w fun x => x.count r.corr 0 r.power) ∧
    (r.unc = 1 → s.lineRead p w r = (s.updLine p w fun x => x.count r.corr 1 r.power).lineEvent p w)) ∧
  (∀ (s : State) (p w : Nat) (r : SoakRead) (u : State), p < 6 → w < 17 → (s.line p w).rxr = .cal → (s.line p w).wait = false →
    (s.port p).rot < 3 → u = s.soakNote p w r →
    (soakPass r = true → (s.port p).logical w ≠ 16 → s.train.js = .run → Runs (.soakEnd p (some w) r) s
      ((u.lockLine p w).updLine p w fun x => { x with soaks := 0, ready := true, foreign_ := false })) ∧
    (soakPass r = true → (s.port p).logical w ≠ 16 → s.train.js ≠ .run → Runs (.soakEnd p (some w) r) s
      (((u.lockLine p w).updLine p w fun x => { x with soaks := 0, ready := true, foreign_ := false }).passEpoch true)) ∧
    (soakPass r = false → (u.line p w).soaks + 1 < 10 → Runs (.soakEnd p (some w) r) s
      (u.updLine p w fun x => { x with soaks := x.soaks + 1, wait := true }))) ∧
  (∀ (s : State) (p : Nat) (r : SoakRead), p < 6 → (s.port p).st = .soak → (s.port p).wait = false →
    Runs (.soakEnd p none r) s (s.portSoak p r)) ∧
  (∀ (s : State) (p ms : Nat), p < 6 → 1000 ≤ ms → Runs (.soakRepeat p none ms) s (s.updPort p fun x => { x with wait := false })) ∧
  (∀ (s : State) (p w ms : Nat), p < 6 → w < 17 → 1000 ≤ ms → (s.port p).rot ≠ 5 →
    Runs (.soakRepeat p (some w) ms) s (s.updLine p w fun x => { x with wait := false }))

/-- The five rotation steps exchange the spare with a line at both ends of a span; a port that loses its light is
declared within 50 ms and readmitted when light returns. For port p below 6. (1) A rotation due at the end with the
lower node ID begins at the next eligible line in turn: the spare joins that line's LID. (2) With the spare in that
LID's mask and no mask change under way, at the end that began the rotation of line i or at the other end, the maps
of line and spare swap, PASS_EP advances and the old line begins to leave. (3) The old line's rings recalibrate, (4)
lock as the spare, (5) and a passed soak ends the rotation with the spare soaked; the turn moves to the next line
modulo 16. (6) Total power below −30.00 dBm starts APR at a port in any state. (7) At the declaration the port's
LIDs are DOWN, the launch is reduced, and PSTATE is APR. (8) At −25.00 dBm or more before the declaration the APR is
dropped; after it, the lines blocked at the pair pass again and, with a comb input OK and its edge group whole, the port is
readmitted; (9)
the readmission of a port searched before takes every ring into recalibration, or into search where its line is
FAILED, with the port in SEARCH and its LIDs still to come. -/
def Obligations.SparesRotateAndPortsGoDark : Prop :=
  (∀ (s : State) (p sec n i : Nat), p < 6 → (s.port p).nbr = some n →
    firstFrom ((s.port p).rotNext % 16) 16 (fun j => s.eligible p j) = some i → 0 < s.light.rotInt → s.light.rotInt ≤ sec →
    (s.port p).rot = 0 → s.fab.phys < n → (s.port p).soaked = true → (s.port p).open_ = true → s.light.swPend = false → s.light.swStep = 0 →
    Runs (.spareRotationStart p sec) s
      ((s.maskJoin p i ((s.port p).phys 16)).updPort p fun x => { x with rot := 1, rotLine := i, rotDue := none })) ∧
  (∀ (s : State) (p i : Nat), p < 6 → (((s.port p).rot = 1 ∧ (s.port p).rotLine = i) ∨ s.farRotation p i = true) → s.spareJoined p i = true →
    Runs (.rotationMaskAck p i) s (((s.updPort p fun x => { x with
      rot := 2, rotLine := i, soaked := false
      lmap := tputAll x.lmap [(i, (s.port p).phys 16), (16, (s.port p).phys i)] }).passEpoch false).maskLeave p ((s.port p).phys i))) ∧
  (∀ (s : State) (p : Nat), p < 6 → (s.port p).rot = 2 → s.maskQuiet p (s.port p).rotLine = true →
    Runs (.rotationLineLeave p) s ((s.calLine p ((s.port p).phys 16)).updPort p fun x => { x with rot := 3 })) ∧
  (∀ (s : State) (p : Nat), p < 6 → (s.port p).rot = 3 →
    Runs (.rotationCalDone p) s ((s.lockLine p ((s.port p).phys 16)).updPort p fun x => { x with rot := 4 })) ∧
  (∀ (s : State) (p : Nat) (r : SoakRead), p < 6 → (s.port p).rot = 4 → soakPass r = true →
    Runs (.rotationSoakEnd p r) s (((s.soakNote p ((s.port p).phys 16) r).updLine p ((s.port p).phys 16) fun y => { y with soaks := 0 }).updPort p
      fun y => { y with rot := 0, soaked := true, rotNext := ((s.port p).rotLine + 1) % 16 })) ∧
  (∀ (s : State) (p : Nat) (power : Int), p < 6 → power < -3000 → (s.port p).aprAt = 0 →
    Runs (.aprLightLoss p power) s (s.updPort p fun x => { x with aprAt := 1, rxtot := power })) ∧
  (∀ (s : State) (p ms : Nat), p < 6 → (s.port p).aprAt = 1 → ms ≤ 50 →
    Runs (.aprDeclare p ms) s ((((s.portLids p).foldl (fun a l => a.lidDown l) s).aprReduce p).updPort p fun x =>
      { x with st := .apr, rot := 0, rotDue := none, soaked := false, pend := true, wait := false })) ∧
  (∀ (s : State) (p : Nat) (power : Int), p < 6 → -2500 ≤ power → (s.port p).aprAt = 1 →
    Runs (.aprLightReturn p power) s (s.updPort p fun x => { x with rxtot := power, aprAt := 0 })) ∧
  (∀ (s u : State) (p : Nat) (power : Int), p < 6 → -2500 ≤ power → (s.port p).aprAt = 2 →
    u = (s.updPort p fun x => { x with rxtot := power, aprAt := 0 }).unblock (pairPort p) → u.combOk = true → (u.port p).broken = false →
    Runs (.aprLightReturn p power) s (u.readmitPort p)) ∧
  (∀ (s : State) (p w : Nat), s.mod.rails = true → (s.port p).searched = true → w < 17 →
    ((s.readmitPort p).port p).st = .search ∧ ((s.readmitPort p).port p).pend = true ∧ ((s.readmitPort p).port p).soaked = false ∧
    (s.readmitPort p).line p w = s.aprRole p w ((s.line p w).again false))

/-- A pass-set switch drains, releases the target set at the threshold, retunes, recovers and completes; a LID that does
not train in 1 ms is DOWN. (1) Once every changed LID has drained, the switch asks for 1 to be added to its drain
counter. (2) At its threshold, read by the switch's engine, the target set is active with what its shadow held,
SWPEND is 0, changed rings park with their markers unchecked, changed LIDs train and PASS_EP advances. (3) The
changed rings of ports that are lit lock in their roles. (4) Carriers recover. (5) With no LID in TRAINING the
switch ends: its entry completes, deferred rotations start and PSWs that wait begin. (6) A changed LID still in
TRAINING 1 ms after the release is DOWN. (7) A changed set's entry is what its shadow holds where the switch names
the active set, and the stored one otherwise; a shadow of another set stays a shadow. Frame: a switch that is not at
the step that a command ends is left as it is. -/
def Obligations.PassSetsSwitchStepByStep : Prop :=
  (∀ (s : State) (q : Nat) (d : Desc), s.light.swEnt = some (q, d) → s.light.swStep = 1 → s.pswDrained = true →
    Runs .passSwitchDrained s ((s.ctrAsk (.engine (s.que q).eng) (pswDrain d) (.add 1#48)).updLight fun b => { b with swStep := 2 })) ∧
  (∀ (s u : State) (q : Nat) (d : Desc), s.light.swEnt = some (q, d) → s.light.swStep = 2 → pswThr d ≤ (s.ctrSeen (pswCtr d)).toNat →
    u = (s.ctrRead (.engine (s.que q).eng) (pswCtr d)).1 → u.light.swLines = [] → u.light.swLids = [] →
    Runs .passSwitchRelease s
      ((((u.takeShadow (pswSet d)).updLight fun b => { b with actSet := pswSet d, swPend := false, swStep := 3 }).passEpoch true).agedSwitch)) ∧
  (∀ (s u : State) (q x l : Nat) (d : Desc), s.light.swEnt = some (q, d) → s.light.swStep = 2 → pswThr d ≤ (s.ctrSeen (pswCtr d)).toNat →
    u = ((s.ctrRead (.engine (s.que q).eng) (pswCtr d)).1.takeShadow (pswSet d)).updLight
      (fun b => { b with actSet := pswSet d, swPend := false, swStep := 3 }) →
    u.light.swLines = [x] → u.light.swLids = [l] →
    Runs .passSwitchRelease s
      (((((u.parkLine (x / 17) ((u.port (x / 17)).phys (x % 17))).updLine (x / 17) ((u.port (x / 17)).phys (x % 17))
        fun y => { y with susp := true }).pswLid l).passEpoch true).agedSwitch)) ∧
  (∀ (s : State) (x : Nat), s.light.swStep = 3 → s.light.swLines = [x] → ((s.port (x / 17)).st = .ready ∨ (s.port (x / 17)).st = .soak) →
    Runs .ringShiftDone s ((s.lockLine (x / 17) ((s.port (x / 17)).phys (x % 17))).updLight fun b => { b with swStep := 4 })) ∧
  (∀ (s : State), s.light.swStep = 4 → Runs .passSwitchRecovered s (s.updLight fun b => { b with swStep := 5 })) ∧
  (∀ (s : State) (q : Nat) (d : Desc), s.light.swEnt = some (q, d) → s.light.swStep = 5 → s.light.swLids = [] →
    ∀ u, u = (((s.updLight fun b => { b with swStep := 0, swLids := [], swLines := [], swFenced := [], swEnt := none }).updEng (s.que q).eng
        fun e => { e with inprog := e.inprog - 1 }).tolDone q (s.que q).eng d 0#32).dueRotations →
    (u.light.swWait = [] → Runs .passSwitchLocked s u) ∧
    (∀ x xs, u.light.swWait = x :: xs → Runs .passSwitchLocked s ((u.updLight fun b => { b with swWait := xs }).pswBegin x.1 x.2))) ∧
  (∀ (s : State) (l us : Nat), l < 96 → 3 ≤ s.light.swStep → 1000 ≤ us → l ∈ s.light.swLids → (s.lid l).st = .training →
    Runs (.passLidTrainTimeout l us) s (s.lidDown l)) ∧
  (∀ (s : State) (n p i : Nat),
    (n = s.light.actSet → s.passTarget n p i = tget (s.passEnt n p i) (tget [] s.light.shadow n) (17 * p + i)) ∧
    (n ≠ s.light.actSet → s.passTarget n p i = s.passEnt n p i ∧ s.takeShadow n = s)) ∧
  (∀ (s : State), s.light.swStep = 0 → Runs .passSwitchDrained s s ∧ Runs .passSwitchRelease s s ∧ Runs .ringShiftDone s s ∧
    Runs .passSwitchRecovered s s ∧ Runs .passSwitchLocked s s)

/-- A bank performs the oldest request that may be performed; an add on an owned counter is applied once modulo 2^48; any
other write is reported and changes no counter. With one request waiting, for bank b below 16 and made by hub cycle
cyc; state u is that with the request gone and cyc the latest hub cycle named. (1) A job's add of v on a counter
below 4,096 that its job owns: the counter is its old value plus v, every other counter stays, queues that follow it
re-read their TAIL, and WAITs stalled on it re-test. (2) A set of an owned counter. (3) A read by a core gives its
register the value of an owned counter. (4) An add or set by an engine on a counter its job does not own changes no
counter and is reported with cause 0x24, INFO the counter with bit 16 set. (5) The sequencer's and the arbiter's
adds need no owner. (6) Of the requests that wait, the one granted is as old as any. (7) Two adds on one counter
have the same effect in either order. -/
def Obligations.CountersServeTheirOwners : Prop :=
  (∀ (s : State) (b cyc n : Nat) (r : CtrReq) (u : State), b < 16 → n < 4096 → n % 16 = b → r.ctr = n → r.age ≤ cyc →
    s.coll.reqs = [r] → u = s.updColl (fun c => { c with reqs := [], clk := max c.clk cyc }) →
    (∀ e v, e < 6 → r.src = .engine e → r.op = .add v → s.ctrOwned n = true →
      ∃ t, Runs (.counterRequest b cyc) s t ∧ t.ctr n = s.ctr n + v ∧ (∀ m, m ≠ n → t.ctr m = s.ctr m) ∧
        (∀ q, (t.que q).tail = if (s.host.qs.lookup q).isSome ∧ (s.que q).dbc = true ∧ (s.que q).dbctr = n
          then (s.ctr n + v).toNat % 2 ^ (s.que q).log2n else (s.que q).tail) ∧
        (∀ c, t.core c = (s.core c).retest n (s.ctr n + v)) ∧
        t = { s with coll := t.coll, host := t.host, cores := t.cores }) ∧
    (∀ e v, e < 6 → r.src = .engine e → r.op = .set v → s.ctrOwned n = true → Runs (.counterRequest b cyc) s (u.setCtr n v)) ∧
    (∀ c d a, c < 512 → r.src = .core c d a → r.op = .read → s.ctrOwned n = true →
      Runs (.counterRequest b cyc) s (u.updCore c fun k => { (k.setS d ((s.ctr n).setWidth 64) false) with async := true })) ∧
    (∀ e v, e < 6 → r.src = .engine e → (r.op = .add v ∨ r.op = .set v) → s.ctrOwned n = false →
      Runs (.counterRequest b cyc) s (u.report (rep 2 (10 + e) 0 18 0x24 (n + 65536)))) ∧
    (∀ v, (r.src = .sequencer ∨ r.src = .arbiter) → r.op = .add v → Runs (.counterRequest b cyc) s (u.setCtr n (s.ctr n + v)))) ∧
  (∀ (s : State) (b cyc : Nat) (r x : CtrReq) (tie : Bool), s.ctrGrant b cyc = some (r, tie) → x ∈ s.coll.reqs → x.ctr % 16 = b →
    x.age ≤ cyc → s.ctrReady x = true → r ∈ s.coll.reqs ∧ r.ctr % 16 = b ∧ s.ctrReady r = true ∧ r.age ≤ x.age) ∧
  (∀ (s : State) (n : Nat) (v w : W48), ((s.addCtr n v).addCtr n w).ctr n = ((s.addCtr n w).addCtr n v).ctr n)

/-- A list's head entry starts when its trigger holds, waits below it and is refused when malformed; engines send
partials up and consume the first cell that they can. For a list with an entry d at its head, on an engine with
fewer than 8 entries in progress; u is the state after the entry is read, and v after its trigger, where it has one,
is read and holds. (1) A well-formed CADD leaves the head, asks for its add and completes. (2) An entry on a tree
pair that may start begins its run, (3) and one that may not stays at the head. (4) Below the trigger's threshold
nothing else happens; (5) a refused entry completes with PARAM_ERROR and the list stops. (6) A non-root node of a
reducing collective with partials ready, an UP parent and at least 3 slots combines them, sends a cell and goes on;
(7) a node whose first chunk for a child with slots is c sends a cell of it down. (8) The engine consumes the first
consumable cell of a LID in its run; (9) one of no run is counted as stale. (10) The partials of a cell from a child
join the run each under the index that its MSGOFF gives. -/
def Obligations.EntriesStartAndDataMoves : Prop :=
  (∀ (s u v : State) (q e : Nat) (d : Desc), q < 8192 → (s.que q).typ = 6 → (s.que q).has = true → (s.que q).eng = e → (s.eng e).inprog < 8 →
    u = (s.entryAt (.coll e) q (s.que q).head).1 → d = (s.entryAt (.coll e) q (s.que q).head).2.map (·.1) →
    v = (if tolTen d then (u.ctrRead (.engine e) (tolTctr d)).1 else u) →
    (tolTen d = true ∧ (u.ctrSeen (tolTctr d)).toNat < tolTthr d → Runs (.tolEntryStart q) s v) ∧
    ((tolTen d = true → tolTthr d ≤ (u.ctrSeen (tolTctr d)).toNat) →
      (v.tolBad d = true → Runs (.tolEntryStart q) s (((v.popHead q).tolRecord q d 0x103 0#32).stopTol q e)) ∧
      (tolOpc d = 0x440 → v.tolBad d = false →
        Runs (.tolEntryStart q) s ((((v.popHead q).updEng e fun x => { x with lastCid := tolCid d }).ctrAsk (.engine e)
          (bitsOf (Desc.word d 5) 11 0) (.add ((Desc.word d 6).setWidth 48))).tolDone q e d 0#32)) ∧
      ((tolOpc d = 0x441 ∨ tolOpc d = 0x442 ∨ tolOpc d = 0x443) → v.tolBad d = false →
        (v.pairBusy d = false → Runs (.tolEntryStart q) s ((((v.popHead q).updEng e fun x => { x with lastCid := tolCid d }).updEng e
          fun x => { x with inprog := x.inprog + 1 }).startRun q e d)) ∧
        (v.pairBusy d = true → Runs (.tolEntryStart q) s v)))) ∧
  (∀ (s : State) (tp t n : Nat) (r : CollRun) (z : Work × List Elem) (us : List Elem) (y : State × CollRun), tp < 4 → t < 2 →
    s.coll.runs = [r] → r.tp = tp → r.opc = 0x441 → colUses r.ent t = true → colKind r.ent ≤ 2 → (s.tree tp t).root = false →
    (s.lid (s.tree tp t).parent).st = .up → 3 ≤ s.slotCredits (s.tree tp t).parent (6 + t) →
    n = min (s.upReady r t) (wireCap (colUpWire r.ent) (colL r.ent)) → n ≠ 0 → z = ({ s := s, r := r, lost := false } : Work).combine t n →
    us = cellTake (colUpWire r.ent) (colL r.ent) (r.tree t).upAt z.2 →
    y = z.1.s.sendCell z.1.r (s.tree tp t).parent t 0 (colUpWire r.ent) (r.tree t).upAt us →
    Runs (.collCellSend tp t false) s
      (({ z.1 with s := y.1, r := y.2.setTree t ((y.2.tree t).used us.length) } : Work).settle)) ∧
  (∀ (s : State) (tp t : Nat) (r : CollRun) (c : Nat × Chunk) (us rest : List Elem) (y : State × CollRun), tp < 4 → t < 2 →
    s.coll.runs = [r] → r.tp = tp → r.opc = 0x441 → colUses r.ent t = true →
    (r.tree t).dnq.find? (fun c => (s.lid ((s.tree tp t).child c.1)).st == .up && decide (s.slotCredits ((s.tree tp t).child c.1) (8 + t) ≥ 3)) =
      some c →
    us = cellTake (colDnWire r.ent) (colL r.ent) c.2.idx c.2.units → rest = c.2.units.drop us.length →
    y = s.sendCell r ((s.tree tp t).child c.1) t (c.1 + 1) (colDnWire r.ent) c.2.idx us →
    Runs (.collCellSend tp t true) s (({ s := y.1, r := y.2.setTree t { y.2.tree t with
      dnq := if rest.isEmpty then (r.tree t).dnq.erase c
             else (r.tree t).dnq.map fun x => if x = c then (c.1, { idx := c.2.idx + us.length, units := rest }) else x }, lost := false } : Work).settle)) ∧
  (∀ (s : State) (l : Nat) (x : CSlot) (xs : List CSlot) (r : CollRun), l < 96 → s.coll.slots = x :: xs → x.lid = l → s.consumable x = true →
    x.cell.qtag ≠ 0xFFFF → s.collRun x.tp x.cell.qtag = some r → Runs (.collCellReceive l) s (s.runCell x r)) ∧
  (∀ (s : State) (l : Nat) (x : CSlot) (xs : List CSlot), l < 96 → s.coll.slots = x :: xs → x.lid = l → s.consumable x = true →
    x.cell.qtag ≠ 0xFFFF → s.collRun x.tp x.cell.qtag = none →
    Runs (.collCellReceive l) s ((s.freeSlot x).updEng (s.lid l).port fun e => { e with stale := satAdd 8 e.stale 1 })) ∧
  (∀ (w : Work) (x : CSlot) (i : Nat) (us : List Elem), x.cell.typ = 0x10 → colKind w.r.ent ≤ 2 → x.ring = 0 →
    (w.s.tree w.r.tp x.tree).root = false → cellUnits (colUpWire w.r.ent) (colL w.r.ent) x.cell = (i, us) →
    w.data x = { w with r := w.r.setTree x.tree { w.r.tree x.tree with
      c0 := (w.r.tree x.tree).c0 ++ us.zipIdx.map fun u => (i + u.2, u.1) } })

/-- A root's vote timer gives H 0, O 0, TMO 1; a collective without progress for COLL_TMO aborts; a plan without a
census for 10 ms is refused. (1) With one VOTE in progress at a root that has not sent its pair, VOTE_TMO expiring
sends the pair H 0, O 0, TMO 1 down and takes it as the tree's pair. (2) The outcome of two pairs, for a VOTE of a
list: COMMIT exactly where both H are 1 and no O and no TMO is, OVF where an O is. (3) A collective that has not
sent its seal aborts after COLL_TMO; (4) one that has also reports cause 0x40 with its CID. (5) A plan under census
whose tree has no down census after 10 ms ends with TREE_FAIL and leaves the plan in force. -/
def Obligations.CollectivesAbortAtTheirLimits : Prop :=
  (∀ (s : State) (t ms : Nat) (r r' : CollRun), t < 2 → s.coll.runs = [r] → r.opc = 0x443 → (s.tree r.tp t).root = true →
    (r.tree t).sent = false → s.jc.voteTmo ≤ ms →
    r' = r.setTree t { r.tree t with sent := true, down := some (false, false, true) } →
    Runs (.voteRootTimeout t ms) s (((s.ctlDown r.tp t 1 r.cid (Desc.word r.ent 6) 4#32).putRun r').finishRun r')) ∧
  (∀ (s : State) (r : CollRun) (ha oa ta hb ob tb : Bool), r.q ≠ seqTol → tolCen r.ent = false → tolNotify r.ent = false →
    (s.voteOutcome r (ha, oa, ta) (hb, ob, tb)).coll.vCommit = (ha && hb && !oa && !ob && !ta && !tb) ∧
    (s.voteOutcome r (ha, oa, ta) (hb, ob, tb)).coll.vOvf = (oa || ob)) ∧
  (∀ (s : State) (cid ms : Nat) (r : CollRun), s.coll.runs = [r] → r.cid = cid → r.opc ≠ 0x443 → s.jc.collTmo ≤ ms →
    (r.sealed = false → Runs (.collTimeout cid ms) s ((s.abortRun r none).settle)) ∧
    (r.sealed = true → Runs (.collTimeout cid ms) s (((s.report (rep 2 (10 + r.eng) 0 18 0x40 cid)).abortRun r none).settle))) ∧
  (∀ (s : State) (ms x h : Nat) (p : Tab TreeEnt) (l : Long), s.coll.newPlan = some (p, h) → s.longAt h = some l → l.idx = h →
    s.censusTrees.find? (fun y => !s.coll.censusDn.contains y) = some x → 10 ≤ ms →
    ∃ t, Runs (.censusTimeout ms) s t ∧ t.coll.plan = s.coll.plan ∧ t.coll.newPlan = none ∧
      Ended s t l (s.finalCeq l.q l.sid) 0x10D (BitVec.ofNat 32 x) 0#32 0#32 0#32 ∧ t = { s with coll := t.coll, host := t.host })

/-- The N and class of an EX320 sum do not depend on the order or grouping of its additions. (1) Adding a list of
operands in any order gives one sum. (2) Adding two lists apart and then their sums gives the sum of the whole list;
(3) so does any split into groups. (4) Where a value was there before, it adds like any other addend. -/
def Obligations.ExactSumsKeepNoOrder : Prop :=
  (∀ xs ys : List Machine.Num, xs.Perm ys → xs.foldl Ex.addNum Ex.zero = ys.foldl Ex.addNum Ex.zero) ∧
  (∀ xs ys : List Machine.Num, (xs ++ ys).foldl Ex.addNum Ex.zero = (xs.foldl Ex.addNum Ex.zero).add (ys.foldl Ex.addNum Ex.zero)) ∧
  (∀ gs : List (List Machine.Num), (gs.flatten).foldl Ex.addNum Ex.zero =
    (gs.map fun g => g.foldl Ex.addNum Ex.zero).foldl Ex.add Ex.zero) ∧
  (∀ (x : Ex) (xs : List Machine.Num), xs.foldl Ex.addNum x = x.add (xs.foldl Ex.addNum Ex.zero))

/-- A receiver reads back exactly the EX320 value that a limb packet was made from, and the bytes after the packet. For
an EX320 value whose N is 0 wherever its class is not FIN, as the packet form carries it: reading the packet with
any bytes after it gives the value and those bytes. A packet takes 1 to 41 bytes, 1 for a class other than FIN, and
its first byte never has NEG with MASK 0 nor a class other than FIN with MASK not 0. -/
def Obligations.LimbPacketsGiveTheirValueBack : Prop :=
  (∀ (x : Ex) (rest : List Byte), (x.cls ≠ 0#2 → x.n = 0#320) → readPacket (x.packet ++ rest) = some (x, rest)) ∧
  (∀ x : Ex, 1 ≤ x.packet.length ∧ x.packet.length ≤ 41 ∧ (x.cls ≠ 0#2 → x.packet.length = 1) ∧
    ∃ h t, x.packet = h :: t ∧ ¬ (h.toNat % 32 = 0 ∧ nbit h.toNat 5 = true) ∧ ¬ (h.toNat / 64 ≠ 0 ∧ h.toNat % 32 ≠ 0))

/-- A number of Q16, binary32 or binary64 written back to its format is unchanged, without a flag, under every rounding
control; a NaN becomes the canonical NaN. For each of the three formats, every code below 2^width, every CVT control
and every draw below 65,536. (1) A code that is a number other than negative zero is written back as itself with no
flag. (2) A NaN code is written as the format's canonical NaN, which is 0x8000 in Q16, with no flag. (3) In Q16 no
value at all is written as a code with exponent 127 and a fraction that is not 0. -/
def Obligations.RepresentableValuesConvertExactly : Prop :=
  (∀ f, (f = fmtQ16 ∨ f = fmtB32 ∨ f = fmtB64) → ∀ x cvt r, x < 2 ^ f.w → r < 65536 →
    (f.read x ≠ .nan → x ≠ 2 ^ (f.w - 1) → f.write (f.read x) cvt r = (x, 0)) ∧
    (f.read x = .nan → f.write (f.read x) cvt r = (f.nanBits, 0))) ∧
  fmtQ16.nanBits = 0x8000 ∧
  (∀ (v : Machine.Num) (cvt r : Nat), (fmtQ16.write v cvt r).1 < 65536 ∧
    ¬ ((fmtQ16.write v cvt r).1 / 256 % 128 = 127 ∧ (fmtQ16.write v cvt r).1 % 256 ≠ 0))

/-- The order of an attempt names every unit once, each backward after its forward, and a quota at the peak never waits
on a later unit. For P devices, device p below P, V stages of at least 1 and M microbatches, M a multiple of P where
V is above 1. (1) The order names every F(v, m) and B(v, m) of the attempt exactly once and nothing else. (2) F(v,
m) comes before B(v, m). (3) For a quota q at or above the peak of stage v, B(v, m − q) comes before F(v, m) for
every m from q on. -/
def Obligations.UnitOrderIsCompleteAndSafe : Prop :=
  ∀ P p V M : Nat, p < P → 1 ≤ V → (1 < V → M % P = 0) →
    (unitOrder P p V M).Nodup ∧
    (∀ k v m, (k, v, m) ∈ unitOrder P p V M ↔ k < 2 ∧ v < V ∧ m < M) ∧
    (∀ v m, v < V → m < M → (unitOrder P p V M).idxOf (0, v, m) < (unitOrder P p V M).idxOf (1, v, m)) ∧
    (∀ v m q, v < V → m < M → q ≤ m → 1 ≤ q → peakOf (unitOrder P p V M) v ≤ q →
      (unitOrder P p V M).idxOf (1, v, m - q) < (unitOrder P p V M).idxOf (0, v, m))

/-- An attempt clears its counters, starts OPEN, gathers, posts its units in order, ends its pipe, reduces, and posts its
vote. For a job with stage table t whose counter operations have been performed. (1) An attempt that may start first
asks for counters 4032 to 4036 and the table's own to be set to 0; once they are it opens its watershed: WSTATE is
OPEN, STEP stays, PHASE is GATHER where a gather is due and PIPE otherwise. (2) GCTR at GTHR ends the gather. (3) In
PIPE the unit at the head of the order, due, is posted and the position moves on; one that is not due waits. (4) A
unit whose items have all completed leaves, and the last B unit asks for 1 to be added to SQ_BDONE and starts
REDUCE. (5) RCTR at RTHR, with room in the log and no image hold, sends the records and posts the optimizer items:
UPDATE; (6) without room the device votes with H 0. (7) With the mirror acknowledged OK and the optimizer done,
SQ_MDONE counts and the VOTE is posted with H and O of R286; an item error votes at once with H 0. -/
def Obligations.AttemptsPassThroughTheirPhases : Prop :=
  (∀ (s : State) (t : StageTab) (recs : List (List Byte)), s.train.tab = some t → s.mayStart = true → s.seqQuiet = true →
    (s.train.prep = false → Runs (.attemptStart recs) s (((s.zeroCtrs 4032 5).zeroCtrs t.crstB t.crstN).updTrain fun x => { x with prep := true })) ∧
    (s.train.prep = true → Runs (.attemptStart recs) s (s.startAttempt t recs) ∧
      (s.startAttempt t recs).train.ws = .open_ ∧ (s.startAttempt t recs).train.step = s.train.step ∧
      (s.startAttempt t recs).train.phase = if s.train.gather then 1 else 2)) ∧
  (∀ (s : State) (t : StageTab), s.train.tab = some t → s.train.phase = 1 → s.seqQuiet = true → t.gthr ≤ (s.ctrSeen t.gctr).toNat →
    Runs .gatherComplete s ((s.updTrain fun x => { x with gather := false }).toPhase 2)) ∧
  (∀ (s x : State) (t : StageTab) (u : Nat × Nat × Nat) (g : Stage), s.train.tab = some t → t.order[s.train.upos]? = some u → s.train.phase = 2 →
    s.seqQuiet = true → g = t.stage u.2.1 →
    (s.unitDue t u = true → s.postUnit u ((from_ g.cbase (g.ncm1 + 1)).map fun c => (c, g.cwq, fun (a : State) =>
        a.itemEntry (if u.1 = 0 then g.fopc else g.bopc) g.mov a.train.step a.train.e (u.2.2 + 1 == t.m) (u.2.2 == 0) u.1 u.2.1 u.2.2
          (u.2.2 % max 1 g.quota) a.train.vseq)) = some x →
      Runs .unitPost s (x.updTrain fun y => { y with upos := y.upos + 1 })) ∧
    (s.unitDue t u = false → Runs .unitPost s s)) ∧
  (∀ (s : State) (t : StageTab) (k v m : Nat) (u : UnitOut), s.train.tab = some t → k < 2 →
    s.train.units.find? (fun u => u.kind == k && u.v == v && u.m == m && u.left == 0) = some u →
    Runs (.unitComplete k v m) s
      ((s.updTrain fun x => { x with units := x.units.erase u, udone := x.udone ++ [(k, v, m)] }).pipeEnd t)) ∧
  (∀ (s : State) (t : StageTab), s.train.phase = 2 → (s.train.udone.filter fun u => u.1 == 1).length = t.v * t.m →
    s.pipeEnd t = (s.ctrAsk .sequencer 4033 (.add 1#48)).toPhase 3) ∧
  (∀ (s : State) (t : StageTab) (x : State × List (Nat × List (Byte × Bool))), s.train.tab = some t → s.train.phase = 3 → s.seqQuiet = true →
    t.rthr ≤ (s.ctrSeen t.rctr).toNat → s.imageHold = false → x = s.attemptRecs t →
    (placeAll t.logSize s.train.bHead s.train.bRecs (x.2.map fun r => recUnits r.2.length) = none →
      Runs .reduceDone s ((x.1.updTrain fun y => { y with full := true }).earlyVote)) ∧
    (∀ offs a b, placeAll t.logSize s.train.bHead s.train.bRecs (x.2.map fun r => recUnits r.2.length) = some offs →
      a = (((offs.zip x.2).foldl (fun (a : State) r => a.sendRec t r.1 r.2.1 r.2.2) x.1).checkShard).updTrain (fun y => { y with mirSent := true }) →
      a.postOpt t a.train.step a.train.e = some b → Runs .reduceDone s (b.toPhase 4))) ∧
  (∀ (s x : State) (t : StageTab), s.train.tab = some t → s.train.ws = .open_ → s.train.cfgw = false → x = s.ctrAsk .sequencer 4034 (.add 1#48) →
    (s.train.phase = 4 → s.train.itemErr = false → s.train.tplErr = false → s.train.mirSent = true → s.train.mirrors = 0 → s.optDone = true →
      s.train.mirBad = false → Runs .updateComplete s (x.postVote (x.healthy t) x.overflowed)) ∧
    ((s.train.phase = 2 ∨ s.train.phase = 3 ∨ s.train.phase = 4) → s.train.itemErr = true →
      Runs .updateComplete s (s.postVote false s.overflowed)))

/-- The loss scale follows the outcome alone; waits end in an early vote, an UNRESOLVED watershed or a core that starts
over; a rest resets the lists. (1) A COMMIT counts CLEAN and at N_RAISE raises E by 1 up to 64 and clears it; OVF
lowers E by 1 down to −64 and clears CLEAN; any other abort leaves both. (2) A REDUCE that waits on RCTR for
WAIT_TMO votes at once with H 0, and (3) so does a mirror not acknowledged for MIRROR_WAIT in UPDATE. (4) A vote is
posted in phase VOTE on the table's pair. (5) A VOTING watershed without an outcome for VOTE_TMO + OUT_GRACE is
UNRESOLVED: the session's event, a report with cause 0x41 naming VSEQ, and JSTATE HELD with cause 3. (6) With every
held core at a boundary and no sealed collective on its lists, the job comes to rest: the lists are reset, the cores
go on, and a hold that is due holds a job in RUN; what waited for the rest follows. (7) With a sealed collective the
lists' resets begin and wait for it. (8) A held core with an item for WAIT_TMO starts over at its entry bundle, its
item ABORTED. -/
def Obligations.WatershedsCommitOrAbort : Prop :=
  (∀ (t : Train) (n : Nat), (t.scale true false n).e = (if t.clean + 1 = n then min (t.e + 1) 64 else t.e) ∧
    (t.scale true false n).clean = (if t.clean + 1 = n then 0 else t.clean + 1) ∧
    (t.scale false true n).e = max (t.e - 1) (-64) ∧ (t.scale false true n).clean = 0 ∧ t.scale false false n = t) ∧
  (∀ (s : State) (t : StageTab) (ms : Nat), s.train.tab = some t → s.train.phase = 3 → (s.ctrSeen t.rctr).toNat < t.rthr → s.jc.waitTmo ≤ ms →
    Runs (.seqWaitTimeout ms) s (s.postVote false s.overflowed)) ∧
  (∀ (s : State) (ms : Nat), s.train.phase = 4 → 0 < s.train.mirrors → s.jc.mirrorWait ≤ ms →
    Runs (.mirrorWaitTimeout ms) s (s.postVote false s.overflowed)) ∧
  (∀ (s : State) (t : StageTab) (h o : Bool), s.train.tab = some t → (s.postVote h o).train.h = h ∧ (s.postVote h o).train.phase = 5 ∧
    (s.postVote h o).train.votes = s.train.votes ++ [voteEntry s.train.vseq t.voteTp h o]) ∧
  (∀ (s : State) (ms : Nat), s.train.ws = .voting → s.jc.voteTmo + s.jc.outGrace ≤ ms →
    Runs (.outcomeGraceTimeout ms) s
      ((((s.updTrain fun t => { t with ws := .unresolved }).postSes s.train.sid 0x0005 s.train.vseq).report
        (rep 2 9 0 5 0x41 s.train.vseq.toNat)).setJob .held 3)) ∧
  (∀ (s x u : State), s.train.atRest = false → (s.cores.any fun c => c.2.held && c.2.item.isSome) = false →
    ((s.jobQueues 6).any fun q => !s.quietQ q) = false → x = (s.jobQueues 6).foldl (fun (a : State) q => a.resetQueue q) s →
    u = { x with cores := x.cores.map fun (c : Nat × Cor) => (c.1, { c.2 with held := false }) } →
    (u.train.due = 0 → u.train.wantRun = false → Runs .attemptRest s
      ((u.updTrain fun t => { t with atRest := true, due := 0, wantRun := false }).readmitDue.startCert.startCfg)) ∧
    (0 < u.train.due → u.train.js = .run → Runs .attemptRest s
      ((((u.updTrain fun t => { t with atRest := true, due := 0, wantRun := false }).endReplay).setJob .held u.train.due).readmitDue.startCert.startCfg))) ∧
  (∀ (s : State), s.train.atRest = false → (s.cores.any fun c => c.2.held && c.2.item.isSome) = false →
    ((s.jobQueues 6).any fun q => !s.quietQ q) = true → Runs .attemptRest s (s.beginReset (s.jobQueues 6)).settle) ∧
  (∀ (s : State) (c ms : Nat), c < 512 → s.train.atRest = false → (s.core c).held = true → (s.core c).item.isSome = true → s.jc.waitTmo ≤ ms →
    Runs (.coreBoundaryTimeout c ms) s (((s.endItem c 0x109 0#32 0#32 true).launchCore c).updCore c fun k => { k with held := true }))

/-- A checkpoint ends with DONE or MEM_ERROR; a rebuild loads its image, applies its records in step order, and abandons
on a gap; a rollback loads. With stage table t. (1) A checkpoint whose chunks are all acknowledged, none spoiled,
ends with DONE and CSTATE 2; a spoiled one with MEM_ERROR and CSTATE 3. (2) A good image of the lost node fills slot
0 of a PENDING replacement: STEP is the header's plus 1 and SLOT is 0; a bad one is tried again up to three times
and then abandoned. (3) A good drain image does the same; a spoiled one makes the rebuild wait for the checkpoint's
image; a good copy of the mentee's log is taken by the standby that rebuilds. (4) An empty record ends the log:
READY. (5) A committed record whose digest agrees but whose STEP is above the next one abandons the rebuild. (6) An
applied record flips SLOT and raises STEP. (7) A rollback's good image of this node loads and ends its command, and
on a device whose rebuild was abandoned that of the node it replaces, which is then READY (log entry 198); a bad one
ends it with MEM_ERROR and loads nothing. -/
def Obligations.ImagesAndRecordsRestoreState : Prop :=
  (∀ (s : State) (c : Nat × Nat) (sp bad : Bool), s.train.ckpt = some c → bad = (sp || s.train.ckptBad) →
    Runs (.ckptImageComplete sp) s ((s.updTrain fun y => { y with ckpt := none, cstate := if bad then 3 else 2 }).finishLong c.2
      (if bad then 0x10E else 2) 0#32 0#32 0#32 0#32)) ∧
  (∀ (s : State) (t : StageTab) (img : ImageRead), s.train.tab = some t → s.train.js = .pending → img.kind = 0 → img.lnode = s.train.repl.lnode →
    (img.good = true → img.spoiled = false → Runs (.rebuildImageLoaded img) s (s.rebuildFrom t img)) ∧
    ((img.good = false ∨ img.spoiled = true) → s.train.repl.tries < 3 → Runs (.rebuildImageLoaded img) s
      (s.updTrain fun y => { y with repl := { y.repl with tries := y.repl.tries + 1 } })) ∧
    ((img.good = false ∨ img.spoiled = true) → 3 ≤ s.train.repl.tries → Runs (.rebuildImageLoaded img) s s.abandon)) ∧
  (∀ (s : State) (t : StageTab) (img : ImageRead), (s.loadImage t img).train.step = BitVec.ofNat 64 (img.step + 1) ∧
    (s.loadImage t img).train.slot = 0 ∧ (s.loadImage t img).train.e = img.e ∧ (s.loadImage t img).train.clean = img.clean) ∧
  (∀ (s : State) (t : StageTab) (img : ImageRead), s.train.tab = some t → s.train.repl.drain = true → img.kind = 1 → img.lnode = s.train.repl.lnode →
    (s.train.js = .pending → img.log = none → img.good = true → img.spoiled = false → Runs (.drainImageChecked img) s (s.rebuildFrom t img)) ∧
    (s.train.js = .pending → img.log = none → img.spoiled = true →
      Runs (.drainImageChecked img) s (s.updTrain fun y => { y with repl := { y.repl with drain := false, cdone := 0 } })) ∧
    (∀ l, s.train.js = .rebuild → img.log = some l → img.good = true → Runs (.drainImageChecked img) s (s.takeLog t l.1 l.2))) ∧
  (∀ (s : State) (t : StageTab), s.train.tab = some t → s.train.js = .rebuild → (s.train.repl.st = 1 ∨ s.train.repl.st = 2) → s.train.rebuilding = false →
    Runs (.rebuildRecordFetched []) s s.rebuildReady) ∧
  (∀ (s : State) (t : StageTab) (b : List Byte), s.train.tab = some t → s.train.js = .rebuild → s.train.repl.st = 2 → s.train.rebuilding = false →
    fieldLe b 0 4 = 0x474F4C54 → fieldLe b 4 1 = 1 → fieldLe b 5 1 = 1 → fieldLe b 6 2 = s.train.repl.lnode →
    treeHash ((b.drop 64).take (fieldLe b 24 8)) = (b.drop 32).take 32 →
    (s.train.step.toNat < fieldLe b 8 8 → Runs (.rebuildRecordFetched b) s s.abandon) ∧
    (fieldLe b 8 8 = s.train.step.toNat → Runs (.rebuildRecordFetched b) s (s.replayRec t b))) ∧
  (∀ (s : State), s.train.rebuilding = true → s.optDone = true → s.train.itemErr = false →
    ∃ t, Runs .rebuildRecordApplied s t ∧ t.train.step = s.train.step + 1 ∧ t.train.slot = (s.train.slot + 1) % 2 ∧ t.train.rebuilding = false ∧
      t = { s with train := t.train, cores := t.cores }) ∧
  (∀ (s : State) (t : StageTab) (img : ImageRead) (h : Nat), s.train.tab = some t → s.train.rollHnd = some h →
    (img.good = true → img.spoiled = false → img.kind = 0 → s.train.repl.st ≠ 4 → img.lnode = s.fab.lnode →
      Runs (.rollbackImageLoaded img) s (((s.loadImage t img).updTrain fun y => { y with gather := true, rollHnd := none }).doneLong h)) ∧
    (img.good = true → img.spoiled = false → img.kind = 0 → s.train.repl.st = 4 → img.lnode = s.train.repl.lnode →
      Runs (.rollbackImageLoaded img) s
        (((s.loadImage t img).updTrain fun y => { y with gather := true, repl := { y.repl with st := 3 }, rollHnd := none }).doneLong h)) ∧
    (img.good = false → Runs (.rollbackImageLoaded img) s
      ((s.updTrain fun y => { y with rollHnd := none }).finishLong h 0x10E 0#32 0#32 0#32 0#32)))

/-- An input takes the next ORDER after its data; a replay delivers inputs in order or reports the mismatch; a certified
output writes its record. (1) For a job outside replay, an ingested shard is stored first, takes the number of
inputs so far as its ORDER, and its completion is posted. (2) An acknowledged export lowers the pending count by 1.
(3) In a replay, the next recorded input whose data b, the record's own under REC 2 and the fetched data otherwise,
has the recorded length and digest is stored, leaves the feed and is posted with its ORDER; (4) with another digest
or length nothing more is posted in the attempt: MISMATCH is set, MORDER keeps the first, and cause 0x42 is reported
with ORDER. (5) A certification begins between attempts with the state as it stands (log entry 149), and (6) once
hashed writes its digest record, and its command ends with DONE, or PROG_ERROR where a word was spoiled. -/
def Obligations.RecordedInputsAndCertifiedOutputs : Prop :=
  (∀ (s : State) (obj off dst : Nat) (data : List Byte), s.train.js ≠ .idle → s.det.replay = false → data ≠ [] → data.length ≤ 2 ^ 31 →
    Runs (.ingestComplete obj off dst data) s
      ((((s.memPut .service 0 (dst % 2 ^ 40) data).1).addInput 1 obj off (dst % 2 ^ 40) data).postInput obj s.det.inputs.length (dst % 2 ^ 40))) ∧
  (∀ (s : State), 0 < s.det.expPend → Runs .exportAck s (s.updDet fun d => { d with expPend := d.expPend - 1 })) ∧
  (∀ (s : State) (x : InputRec) (xs : List InputRec) (data b : List Byte), s.det.feed = x :: xs → s.det.replay = true → s.train.phase ≠ 0 →
    b = (if s.jc.rec_ = 2 then x.data else data) →
    ((treeHash b).take 24 = x.dig → b.length = x.len → Runs (.replayInputDeliver data) s
      ((((s.memPut .service 0 x.dst b).1.updDet fun d => { d with feed := xs }).updDet fun d =>
        { d with inputs := d.inputs ++ [{ x with data := b }] }).postInput x.obj x.order x.dst)) ∧
    (((treeHash b).take 24 ≠ x.dig ∨ b.length ≠ x.len) → Runs (.replayInputDeliver data) s
      ((s.updDet fun d => { d with mismatch := true, morder := if d.mismatch then d.morder else x.order, feed := [] }).report
        (rep 2 9 0 8 0x42 x.order)))) ∧
  (∀ (s : State) (c : Nat × Nat × Nat × W64 × Nat), s.det.cert = some c → s.det.certAt = none → s.between = true → s.train.atRest = true →
    ∃ k, s.startCert = s.updDet (fun d => { d with certAt := some k }) ∧ k.slot = s.train.slot ∧ k.step = s.train.step ∧
      k.vseq = s.train.vseq ∧ k.e = s.train.e ∧ k.clean = s.train.clean) ∧
  (∀ (s : State) (t : StageTab) (c : Nat × Nat × Nat × W64 × Nat) (k : CertAt) (x : State × List Byte × Bool), s.det.cert = some c →
    s.det.certAt = some k → s.train.tab = some t → x = s.digestRecord t k c.2.1 c.2.2.1 c.2.2.2.1 →
    Runs .certifyHashComplete s (((x.1.hubWrite c.2.2.2.2 x.2.1).updDet fun d => { d with cert := none, certAt := none }).finishLong c.1
      (if x.2.2 then 0x10B else 2) 0#32 0#32 0#32 0#32))

/-- BAR0 takes accesses of 4 or 8 aligned bytes; any other write is ignored, and any other read returns its bytes and
clears nothing. With the BARs open, for an access of at least one byte that lies in BAR0. (1) A 4-byte write aligned
to 4 acts on its word; an 8-byte write aligned to 8 acts on the two words at its address, the lower word at the
lower address. (2) Any other write leaves the machine as it is. (3) A read of any size returns the bytes asked for
of the words that contain them, as they are before the read; aligned 4 bytes clear the RC fields of their word,
aligned 8 bytes those of both words, and any other read clears nothing. A write by W1C_WRITE is a write by
REGISTER_WRITE. -/
def Obligations.Bar0AccessesAreWords : Prop :=
  (∀ (s : State) (off : Nat) (v : W64), s.barOpen = true → off + 4 ≤ 2 ^ 25 → off % 4 = 0 →
    Runs (.registerWrite off 4 v) s (s.writeWord off (v.setWidth 32)) ∧ Runs (.w1cWrite off 4 v) s (s.writeWord off (v.setWidth 32))) ∧
  (∀ (s : State) (off : Nat) (v : W64), s.barOpen = true → off + 8 ≤ 2 ^ 25 → off % 8 = 0 →
    Runs (.registerWrite off 8 v) s ((s.writeWord off (v.setWidth 32)).writeWord (off + 4) ((v >>> 32).setWidth 32)) ∧
    Runs (.w1cWrite off 8 v) s ((s.writeWord off (v.setWidth 32)).writeWord (off + 4) ((v >>> 32).setWidth 32))) ∧
  (∀ (s : State) (off size : Nat) (v : W64), s.barOpen = true → 0 < size → off + size ≤ 2 ^ 25 →
    ¬ (size = 4 ∧ off % 4 = 0) → ¬ (size = 8 ∧ off % 8 = 0) → Runs (.registerWrite off size v) s s ∧ Runs (.w1cWrite off size v) s s) ∧
  (∀ (s u : State) (off size : Nat), s.barOpen = true → 0 < size → off + size ≤ 2 ^ 25 →
    u = s.emit (.readData ((List.range size).map fun i => (wordBytes (s.regWord ((off + i) / 4 * 4))).getD ((off + i) % 4) 0#8) false) →
    (size = 4 → off % 4 = 0 → Runs (.rcFieldRead off size) s (u.rcClear off)) ∧
    (size = 8 → off % 8 = 0 → Runs (.rcFieldRead off size) s ((u.rcClear off).rcClear (off + 4))) ∧
    (¬ (size = 4 ∧ off % 4 = 0) → ¬ (size = 8 ∧ off % 8 = 0) → Runs (.rcFieldRead off size) s u))

/-- Configuration words answer in the standby domain; PERST_N and FLR reset; BAR4 maps device memory; link errors are
reported. (1) In the standby domain a configuration write of a word other than the IDs and the resizable BAR control
stores it, and a read returns the word. (2) PERST_N asserted resets the endpoint and starts a device reset, unless a
shutdown has ended; (3) released it trains the link. (4) A function-level reset resets and closes every host session
and drops records of queues that are gone; the device partition stays. (5) A BAR4 write in the aperture stores its
bytes at B4BASE + offset modulo 2^40, every word spoilt where the TLP is poisoned; a read returns the bytes of its
units. (6) An uncorrectable PCIe error is reported with cause 0x5A and the AER status, (7) a link or frame error of
a port with cause 0x5B. -/
def Obligations.HostReachesTheDevice : Prop :=
  (∀ (s : State) (off : Nat) (v : W32), s.mod.standby = true → s.host.cfgOn = true → off < 4096 → off % 4 = 0 →
    (off ≠ 0 → off ≠ 8 → off ≠ 0x108 → Runs (.configRequest off (some v)) s (s.updHost fun h => { h with cfg := tput h.cfg off v })) ∧
    Runs (.configRequest off none) s (s.emit (.cfgData (s.cfgWord off))).tick) ∧
  (∀ s : State, s.mod.perst = false → s.mod.standby = true → s.mod.sdStep ≠ 5 →
    Runs .perstAssert s (((s.updMod fun m => { m with perst := true }).updHost HostIf.endpoint).deviceReset)) ∧
  (∀ s : State, s.mod.perst = true → ∃ t, Runs .perstRelease s t ∧ t.mod.perst = false ∧ t.host.cfgOn = s.mod.standby ∧
    1 ≤ t.host.speed ∧ t.host.speed ≤ 6 ∧ t.host.width ∈ [1, 2, 4, 8, 16] ∧ t.host.qs = s.host.qs ∧
    t = { s with mod := t.mod, host := t.host, free := t.free }) ∧
  (∀ s : State, s.barOpen = true →
    Runs .flr s ((((s.host.sess.map (·.1)).filter (· != 0)).foldl State.flrSession s).updHost fun h =>
      { h with recs := h.recs.filter fun r => (tget QEnt.free h.qs r.1).typ == 2 })) ∧
  (∀ (s : State) (sid : Nat), (s.flrSession sid).fab.part = s.fab.part) ∧
  (∀ (s : State) (off : Nat) (data : List Byte) (p : Bool), s.barOpen = true → 0 < data.length → off + data.length ≤ 2 ^ s.host.b4log2 →
    Runs (.bar4Write off data p) s
      (s.memWrite .host 0 ((s.host.b4base + off) % 2 ^ 40) data (List.replicate data.length p)).1) ∧
  (∀ (s u : State) (off len : Nat) (e : EccFind) (b : List Byte) (sp : List Bool), s.barOpen = true → 0 < len → off + len ≤ 2 ^ s.host.b4log2 →
    ((s.host.b4base + off) % 2 ^ 40) % 32 + len ≤ 32 → unitsOf ((s.host.b4base + off) % 2 ^ 40) len = [(s.host.b4base + off) % 2 ^ 40 / 32 * 32] →
    s.apertureUnit ((s.host.b4base + off) % 2 ^ 40 / 32 * 32) e = (u, b, sp) →
    Runs (.bar4Read off len e) s (u.emit (.readData ((b.drop ((s.host.b4base + off) % 2 ^ 40 % 32)).take len)
      (((sp.drop ((s.host.b4base + off) % 2 ^ 40 % 32)).take len).any id)))) ∧
  (∀ (s : State) (aer : Nat), Runs (.pcieUncorrectableError aer) s (s.report (rep 2 9 0 0 0x5A (aer % 2 ^ 48)))) ∧
  (∀ (s : State) (p : Nat) (f : Bool), p < 2 → ∃ info, info < 2 ^ 48 ∧
    Runs (.ethernetLinkOrFrameError p f) s (s.report (rep 1 9 0 (1 + p) 0x5B info)).tick)

/-- A doorbell sets a producer's TAIL or a CEQ's HEAD; fetched entries advance HEAD; records are written at TAIL with
PHASE; EN opens and closes the admin queues. With the BARs open, for queue q below 8,190. (1) A doorbell of an
ENABLED producer that follows no counter, with an INDEX in its ring that does not pass HEAD, sets TAIL and fetches;
an INDEX of 2^LOG2N or more puts it in ERROR; one of a DISABLED queue counts in DBERR. (2) A CEQ's doorbell sets
HEAD and may arm; one with an INDEX outside the ring counts, posts event 0x0004, and HEAD and ARM stay. (3) A
completed host read of a descriptor advances HEAD and gives the command to admission, and one of a DMA_H2D writes
its bytes through the command's group and ends the command. (4) A record that waits for a
CEQ with room is written at TAIL. (5) An armed CEQ with unsignalled records signals after TMR µs. (6) EN 1
while ACT is 0 takes the sizes and the vector written and opens both admin queues empty with PHASE 1; EN 0 closes
them. -/
def Obligations.DoorbellsMoveQueues : Prop :=
  (∀ (s : State) (q hi : Nat) (v : W64), q < 8190 → s.barOpen = true → (s.que q).typ ≠ 2 → hi = 0 → (s.que q).st = 1 → (s.que q).dbc = false →
    (v.toNat % 65536 < 2 ^ (s.que q).log2n →
      (v.toNat % 65536 + 2 ^ (s.que q).log2n - (s.que q).tail) % 2 ^ (s.que q).log2n ≤ 2 ^ (s.que q).log2n - 1 - (s.que q).count →
      Runs (.doorbellWrite q hi 8 v) s ((s.updQue q fun e => { e with tail := v.toNat % 65536 }).startFetch q)) ∧
    (2 ^ (s.que q).log2n ≤ v.toNat % 65536 → Runs (.doorbellWrite q hi 8 v) s (s.queueError q))) ∧
  (∀ (s : State) (q : Nat) (v : W64), q < 8190 → s.barOpen = true → (s.que q).typ ≠ 2 → (s.que q).st = 0 →
    Runs (.doorbellWrite q 0 8 v) s (s.updQue q fun e => { e with dberr := satAdd 16 e.dberr 1 })) ∧
  (∀ (s : State) (q size : Nat) (v : W64), q < 8192 → Runs (.doorbellWrite q 4 size v) s s) ∧
  (∀ (s : State) (q : Nat) (v : W64), q < 8190 → s.barOpen = true → (s.que q).typ = 2 → (s.que q).st = 1 → (s.que q).dbc = false →
    (2 ^ (s.que q).log2n ≤ v.toNat % 65536 →
      Runs (.ceqDoorbell q 0 8 v) s ((s.updQue q fun e => { e with dberr := satAdd 16 e.dberr 1 }).queueEvent q)) ∧
    (∀ n, v.toNat % 65536 < 2 ^ (s.que q).log2n →
      n = (v.toNat % 65536 + 2 ^ (s.que q).log2n - (s.que q).head) % 2 ^ (s.que q).log2n → n ≤ (s.que q).count →
      Runs (.ceqDoorbell q 0 8 v) s ((s.updQue q fun e =>
        { e with head := v.toNat % 65536, arm := e.arm || v.getLsbD 32, unsig := min e.unsig (e.count - n) }).signal q))) ∧
  (∀ (s : State) (tag : Nat) (data : List Byte) (r : HRead), s.host.reads = [r] → r.tag = tag → data.length = r.len → r.use = 0 →
    ∃ u, (u = (s.updHost fun h => { h with reads := [] }).updQue r.q fun e => { e with head := e.next e.head }) ∧
      Runs (.hostReadCompletion tag data) s
        ((u.updHost fun h => { h with fetched := h.fetched ++ [{ q := r.q, d := bytesWords data, sqhead := (u.que r.q).head }] }).startFetch r.q)) ∧
  (∀ (s : State) (tag : Nat) (data : List Byte) (r : HRead) (l : Long) (x : State × Option Nat), s.host.reads = [r] → r.tag = tag →
    data.length = r.len → r.use = 1 → s.longAt r.q = some l →
    x = (s.updHost fun h => { h with reads := [] }).putParts (bitsOf (Desc.word l.d 8) 3 0) r.dst data →
    Runs (.hostReadCompletion tag data) s (x.1.endCopy r.q { q := l.q, d := l.d, hd := l.sqhead } (some data) x.2)) ∧
  (∀ (s : State) (q : Nat) (x : Nat × Rec) (xs : List (Nat × Rec)), q < 8192 → s.host.recs = x :: xs → s.effCeq x.1 = q → (s.que q).room = true →
    Runs (.completionRecordWrite q) s (s.writeRec q x.2)) ∧
  (∀ (s : State) (q us : Nat), q < 8192 → (s.que q).typ = 2 → (s.que q).arm = true → 0 < (s.que q).unsig → (s.que q).tmr ≤ us →
    Runs (.msixTimer q us) s ((s.sendMsix (s.que q).vec).updQue q fun e => { e with arm := false, unsig := 0 })) ∧
  (∀ (s : State) (v : W32), s.barOpen = true → v.getLsbD 31 = true → s.aqAct = false →
    ∃ t, Runs (.aqEnable v) s t ∧ t.host.aqEn = true ∧ (t.que 0).st = 1 ∧ (t.que 0).head = 0 ∧ (t.que 0).tail = 0 ∧
      (t.que 0).log2n = bitsOf v 29 25 ∧ (t.que 1).st = 1 ∧ (t.que 1).head = 0 ∧ (t.que 1).tail = 0 ∧ (t.que 1).phase = true ∧
      (t.que 1).log2n = bitsOf v 24 20 ∧ t.host.aqVec = bitsOf v 10 0 ∧ (∀ q, 2 ≤ q → t.que q = s.que q) ∧ t = { s with host := t.host }) ∧
  (∀ (s : State) (v : W32), s.barOpen = true → v.getLsbD 31 = false → ∃ t, Runs (.aqDisable v) s t ∧ t.host.aqEn = false ∧
    (t.que 0).st = 0 ∧ (t.que 0).head = (s.que 0).head ∧ (t.que 0).tail = (s.que 0).head ∧ t.host.fetched = s.host.fetched ∧ t = { s with host := t.host })

/-- The tray submits descriptors, fetches records, reads STATUS and the FATAL buffer over I3C, each as its command byte
says. In the standby domain with a dynamic address. (1) SUBMIT of 64 bytes or more joins the tray's queue while it
holds fewer than 15 entries; fewer bytes count in DBERR; with the queue full the target NACKs. (2) FETCH returns and
consumes the oldest record; with none, 32 zero bytes. (3) STATUS returns READY in bit 0, queue full in bit 1, a
record waits in bit 2 and their number in bits 23 to 16, and changes nothing else. (4) BUFREAD of an offset in the
buffer returns its bytes, 0 beyond the end. (5) An assigned address is kept. Frame: STATUS and BUFREAD change no
state but the output. -/
def Obligations.ManagementTargetAnswers : Prop :=
  (∀ (s : State) (b : List Byte), s.i3cOn = true →
    ((s.que 8190).count < 15 → 64 ≤ b.length → Runs (.i3cSubmit b) s
      ((s.updHost fun h => { h with tray := h.tray ++ [bytesWords (b.take 64)] }).updQue 8190 fun e => { e with tail := e.next e.tail })) ∧
    ((s.que 8190).count < 15 → b.length < 64 → Runs (.i3cSubmit b) s (s.updQue 8190 fun e => { e with dberr := satAdd 16 e.dberr 1 })) ∧
    (15 ≤ (s.que 8190).count → Runs (.i3cSubmit b) s (s.emit .i3cNack))) ∧
  (∀ (s : State) (r : Rec) (rs : List Rec), s.i3cOn = true → s.host.trayRecs = r :: rs →
    Runs .i3cFetch s (((s.updHost fun h => { h with trayRecs := rs }).updQue 8191 fun e => { e with head := e.next e.head }).emit
      (.i3cData (r.bytes s.trayPhase)))) ∧
  (∀ s : State, s.i3cOn = true → s.host.trayRecs = [] → Runs .i3cFetch s (s.emit (.i3cData (List.replicate 32 0#8)))) ∧
  (∀ s : State, s.i3cOn = true → ∃ w : W32, Runs .i3cStatus s (s.emit (.i3cData (wordBytes w))) ∧ w.getLsbD 0 = s.host.ready ∧
    w.getLsbD 1 = decide (15 ≤ (s.que 8190).count) ∧ w.getLsbD 2 = decide (s.host.trayRecs ≠ []) ∧
    (s.host.trayRecs.length < 256 → bitsOf w 23 16 = s.host.trayRecs.length)) ∧
  (∀ (s : State) (off len : Nat), s.i3cOn = true → off % 4 = 0 → off < 65536 → len ≤ 256 →
    Runs (.i3cBufread off len) s (s.emit (.i3cData ((List.range len).map fun i =>
      if off + i < 65536 then cellGet s.host.fbuf (off + i) else 0#8)))) ∧
  (∀ (s : State) (a : Nat), s.mod.standby = true → a < 128 →
    Runs (.i3cAddressAssign false a) s (s.updHost fun h => { h with i3cAddr := some a }))

/-- Commands of group 0x00: sessions, queues, resets and handles act and answer with their records. For a command c that
passes the frame. (1) NOP answers OK. (2) DEV_INFO copies the IDN_ block to its address. (3) SES_OPEN with a common
version, an event CEQ it may name and a free SID opens that session and answers the version, GEN and SID, with the
device's range in DETAIL1. (4) SES_CLOSE, (5) QUE_DELETE and QUE_RESET, and (6) DOMAIN_RESET are ACCEPTED and begin
the reset of the queues that they name. (7) QUE_CREATE makes the entry and answers its number. (8) DEV_RESET answers
OK, and the reset waits for that record. (9) HANDLE_QUERY answers the state of the handle. (10) HANDLE_CANCEL of a
running command of the kinds that can be cancelled stops it with CANCELLED and answers OK. -/
def Obligations.SessionAndQueueCommandsComplete : Prop :=
  ∀ (s : State) (q : Nat) (d : Desc) (c : Cmd), c = cmdOf s q d →
    (Passes s c 0x0000 → c.zero 2 = true → Runs (.nop q d) s (s.ok c)) ∧
    (Passes s c 0x0003 → c.zero 4 = true → s.flt.fatal = false → c.addrOk 2 = true → (s.memPut .hub 0 (c.dw 2) s.idnBytes).2 = none →
      Runs (.devInfo q d) s ((s.memPut .hub 0 (c.dw 2) s.idnBytes).1.ok c)) ∧
    (∀ v e i, Passes s c 0x0001 → c.only 3 0xF = true → c.only 4 0x1FFF = true → c.zero 5 = true →
      chooseVersion (c.f 2 31 16) (c.f 2 15 0) (c.f 3 3 0) = some v → s.eventCeq (c.f 4 12 0) = .inl e → s.freeSid = some i →
      Runs (.sesOpen q d) s ((s.updHost fun h => { h with sess := tput h.sess i { v13 := v.1 == 0x0103, evq := e, unlocked := false } }).reply
        c 0 (BitVec.ofNat 32 (v.1 * 65536 + v.2 * 256 + i)) 0x02000103#32 0#32 0#32)) ∧
    (∀ i a, Passes s c 0x0002 → c.only 2 0x3F = true → c.zero 3 = true → c.f 2 5 0 ≠ 0 → s.sesOpen (c.f 2 5 0) = true → Accepts s c i a →
      Runs (.sesClose q d) s (a.beginReset (a.resetTargets c.opc c.d)).settle) ∧
    (∀ i a, s.resetBad c (c.f 2 12 0) = none → Accepts s c i a →
      (Passes s c 0x0011 → Runs (.queDelete q d) s (a.beginReset (a.resetTargets c.opc c.d)).settle) ∧
      (Passes s c 0x0012 → Runs (.queReset q d) s (a.beginReset (a.resetTargets c.opc c.d)).settle)) ∧
    (∀ i a, Passes s c 0x0013 → c.only 2 0x1003F = true → c.zero 3 = true → Accepts s c i a →
      ((c.bit 2 16 = false ∧ c.f 2 5 0 ≠ 0 ∧ (c.master = 0 → c.f 2 5 0 = s.sidOf c) ∧ s.sesOpen (c.f 2 5 0) = true) ∨
       (c.bit 2 16 = true ∧ s.train.js ≠ .idle ∧ (c.master = 0 → s.train.sid = s.sidOf c))) →
      Runs (.domainReset q d) s (a.beginReset (a.resetTargets c.opc c.d)).settle) ∧
    (∀ n e, Passes s c 0x0010 → s.createCheck c = .inl (n, e) → c.bit 2 16 = false →
      Runs (.queCreate q d) s ((s.updHost fun h =>
        { h with qs := tput h.qs n { e with tail := if e.dbc then (s.ctr e.dbctr).toNat % 2 ^ e.log2n else 0 } }).okWith c n)) ∧
    (Passes s c 0x0014 → c.zero 2 = true → s.mod.sdStep ≠ 5 → Runs (.devReset q d) s ((s.ok c).updMod fun m => { m with resetBy := some c.q })) ∧
    (Passes s c 0x0020 → c.zero 3 = true → s.handleForeign c (c.n 2) = false →
      Runs (.handleQuery q d) s (s.okWith c (s.handleState (c.n 2)))) ∧
    (∀ l, Passes s c 0x0021 → c.zero 3 = true → s.handleForeign c (c.n 2) = false → s.handleState (c.n 2) = 1 →
      s.longAt (c.n 2 % 2 ^ 24) = some l → cancellable l.opc = true →
      Runs (.handleCancel q d) s (((s.haltLong l).finishLong l.idx 0x10A 0#32 0#32 0#32 0#32).ok c))

/-- Commands of group 0x01: regions, regulators, the aperture, copies and windows act and answer. For a command c that
passes the frame, whose reserved bits are 0; g is the regulator group that it names. (1) REGION_SET with an entry
that R155 allows is ACCEPTED and waits for the old entry's requests. (2) MEM_CONFIG with SETRG sets RATE, DEPTH and
BORROW of its group and trims its level; with SETSCRUB it sets the scrub period, 0 the 24 hours of reset. (3)
APERTURE_SET of a multiple of the BAR4 size sets B4BASE. (4) A DMA_H2D of at least one byte asks for its host bytes;
one of none ends with DONE. (5) DMA_D2H writes its bytes to the host. (6) DMA_D2D and (7) MEM_FILL move their bytes
(ranges of a copy that meet use free values, log entry 29). (8) A copy ends with MEM_ERROR and the first failing
address, or with DONE; one into the job's regions is an input then. (9) WINDOW_SET installs its entry and
WINDOW_CLEAR removes it; both wait while a request is being served under the old entry. -/
def Obligations.MemoryCommandsComplete : Prop :=
  (∀ (s : State) (q g : Nat) (d : Desc) (c : Cmd), c = cmdOf s q d → g = c.f 8 3 0 →
    (∀ i a, Passes s c 0x0100 → c.only 2 0x3F = true → c.only 3 0xFFF00FFF = true → c.only 4 0x7FFF3FFF = true → c.only 5 0xFFF = true →
      c.only 6 0xFFFF = true → c.zero 7 = true → s.regionOk (c.f 2 5 0) c.region = true → Accepts s c i a →
      Runs (.regionSet q d) s ((a.updHbm fun h =>
        { h with sets := h.sets ++ [{ n := c.f 2 5 0, hnd := i, ent := c.region, live := false }] }).rgnSettle (c.f 2 5 0) 3)) ∧
    (Passes s c 0x0101 → c.only 2 0x30F = true → c.only 4 1 = true → c.only 5 0xFF = true → c.zero 6 = true →
      (c.bit 2 8 = true → c.bit 2 9 = false → c.f 3 15 0 ≠ 0 →
        Runs (.memConfig q d) s (((s.regFill (c.f 2 3 0) s.hbmCycle).updGrp (c.f 2 3 0) fun k => { k with
          rate := c.f 3 31 16, depth := c.f 3 15 0, borrow := c.bit 4 0, level := min k.level (c.f 3 15 0 * 1024 * 5) }).ok c)) ∧
      (c.bit 2 8 = false → c.bit 2 9 = true → c.f 5 7 0 ≤ 168 →
        Runs (.memConfig q d) s ((s.updHbm fun h => { h with scrubH := if c.f 5 7 0 = 0 then 24 else c.f 5 7 0 }).ok c))) ∧
    (Passes s c 0x0102 → c.zero 4 = true → c.addrOk 2 = true → c.dw 2 % 2 ^ s.host.b4log2 = 0 →
      Runs (.apertureSet q d) s ((s.updHost fun h => { h with b4base := c.dw 2 }).ok c)) ∧
    (∀ i a, Passes s c 0x0110 → c.dmaOk = true → c.rangeOk 4 = true → (s.det.replay && s.intoJob c) = false → Accepts s c i a →
      (c.dw 6 = 0 → Runs (.dmaH2d q d) s (a.doneLong i)) ∧
      (c.dw 6 ≠ 0 → Runs (.dmaH2d q d) s ((a.updHost fun h => { h with
        reads := h.reads ++ [{ tag := h.nextTag, use := 1, q := i, addr := c.dw 2, len := c.dw 6, dst := c.dw 4 }]
        nextTag := h.nextTag + 1 }).emit (.hostRead a.host.nextTag (c.dw 2) (c.dw 6))))) ∧
    (∀ i a r, Passes s c 0x0111 → c.dmaOk = true → c.rangeOk 2 = true → Accepts s c i a →
      r = a.moveParts g (c.dw 2) (c.dw 6) (fun a o b => (if b.isEmpty then a else a.emit (.hostWrite (c.dw 4 + o) b), none)) →
      Runs (.dmaD2h q d) s (r.1.endCopy i c none r.2)) ∧
    (∀ i a r t x, Passes s c 0x0112 → c.dmaOk = true → c.rangeOk 2 = true → c.rangeOk 4 = true → (s.det.replay && s.intoJob c) = false →
      Accepts s c i a →
      r = a.moveParts g (c.dw 2) (c.dw 6) (fun b o x => b.putParts g (c.dw 4 + o) (freeOverlap (c.dw 2) (c.dw 4) (c.dw 6) a.free o x)) →
      t = (if meets (c.dw 2) (c.dw 6) (c.dw 4) (c.dw 6) then { r.1 with free := r.1.free + c.dw 6 } else r.1) →
      x = t.memRead .hub 0 (c.dw 4) (if t.intoJob c ∧ r.2.isNone then c.dw 6 else 0) →
      Runs (.dmaD2d q d) s (t.endCopy i c (some x.2.1) r.2)) ∧
    (∀ i a r, Passes s c 0x0113 → c.dmaOk = true → c.rangeOk 4 = true → (s.det.replay && s.intoJob c) = false → Accepts s c i a →
      r = a.putParts g (c.dw 4) (c.pattern (c.dw 6)) → Runs (.memFill q d) s (r.1.endCopy i c (some (c.pattern (c.dw 6))) r.2)) ∧
    (∀ n w, Passes s c 0x0120 → parseWindow (wordsBytes ((from_ 2 8).map c.w)) = some (n, w) → c.zero 10 = true →
      (s.windowBusy c.windowNo = false →
        Runs (.windowSet q d) s ((s.updFab fun f => { f with cur := { f.cur with wins := tput f.cur.wins n w } }).ok c)) ∧
      (s.windowBusy c.windowNo = true → Runs (.windowSet q d) s s)) ∧
    (Passes s c 0x0121 → c.only 2 0x3FF = true → c.zero 3 = true →
      (s.windowBusy c.windowNo = false →
        Runs (.windowClear q d) s ((s.updFab fun f => { f with cur := { f.cur with wins := tdel f.cur.wins c.windowNo } }).ok c)) ∧
      (s.windowBusy c.windowNo = true → Runs (.windowClear q d) s s))) ∧
  (∀ (s : State) (i f : Nat) (c : Cmd) (b : Option (List Byte)), s.endCopy i c b (some f) = s.endMemError i f ∧
    (s.intoJob c = false → s.endCopy i c b none = s.doneLong i) ∧ s.endCopy i c none none = s.doneLong i) ∧
  (∀ (s : State) (i : Nat) (c : Cmd) (b : List Byte), s.intoJob c = true → b ≠ [] →
    s.endCopy i c (some b) none = (s.addInput 2 (c.n 1) 0 (c.dw 4) b).doneLong i)

/-- Commands of group 0x02 and L2P_SET: a program is loaded, and a job is attached, configured, launched, relaunched,
given work and detached. For a command c that passes the frame; u and b are the state and the bytes that reading its
structure gives. (1) PROG_LOAD puts the bundles in the named cores' stores and extends the program digest. (2)
JOB_ATTACH takes partition and node: LOADED. (3) JOB_CONFIG of a LOADED job, or of a HELD one
without a change of what a job keeps, installs the block. (4) JOB_LAUNCH starts every core that is not retired, with
VFLAGS cleared, E at E_INIT, CLEAN 0 and a gather due: RUN. (5) JOB_DETACH is ACCEPTED and resets the job's
queues. (6) CORE_RELAUNCH restarts the STOPPED cores; VFLAGS stay. (7) WORK_POST posts a good entry to an ENABLED CWQ of its
session. (8) L2P_SET installs the table. -/
def Obligations.JobCommandsComplete : Prop :=
  (∀ (s : State) (q : Nat) (d : Desc) (c : Cmd), c = cmdOf s q d →
    (∀ u b i a, Passes s c 0x0200 → c.only 5 0x07FF07FF = true → c.only 6 0x03FF01FF = true → c.only 7 1 = true → c.zero 8 = true → c.n 4 % 32 = 0 →
      32 * c.f 5 10 0 + c.n 4 ≤ 65536 → 1 ≤ c.f 6 25 16 → c.f 6 8 0 + c.f 6 25 16 ≤ 512 → Reads s c u b → Accepts u c i a →
      ∃ t, (t = (from_ (c.f 6 8 0) (c.f 6 25 16)).foldl (fun (x : State) k => x.updCore k fun y => y.load (c.f 5 10 0) (c.f 5 26 16) b)
          (if c.bit 7 0 then a else a.newProgram)) ∧
        Runs (.progLoad q d) s ((t.updDet fun x => { x with prog := x.prog ++ b }).doneLong i)) ∧
    (Passes s c 0x0210 → c.only 2 0xFFF = true → c.f 2 11 0 ≠ 0 → c.only 3 0x7FFF = true → c.f 3 14 0 < 24576 → c.zero 4 = true → s.train.js = .idle →
      ∃ t, (t = ((s.updTrain fun x => { Train.init with sid := s.sidOf c, aborts := x.aborts, pend := x.pend, replHnd := x.replHnd, repl := x.repl }).updFab
          fun f => { f with part := c.f 2 11 0, lnode := c.f 3 14 0 }).updHost fun h => { h with job := none }) ∧
        Runs (.jobAttach q d) s ((t.setJob .loaded 0).ok c)) ∧
    (∀ u b j, Passes s c 0x0211 → s.ownsJob c = true → (s.train.js = .loaded ∨ s.train.js = .held) → c.zero 5 = true → 256 ≤ c.n 4 → c.n 4 ≤ 768 →
      Reads s c u b → parseJob b = some j → u.ceqBad c j.seqCeq = none →
      (u.train.js = .held → ∃ o, u.host.job = some o ∧ o.fixed j = true) → Runs (.jobConfig q d) s ((u.install j).ok c)) ∧
    (∀ j, Passes s c 0x0212 → s.ownsJob c = true → c.only 5 0x17FFF = true → c.f 5 14 0 ≠ 0 → c.f 5 14 0 ≤ 24576 → c.zero 6 = true → s.train.js = .loaded →
      s.host.job = some j → (c.bit 5 16 = true → s.train.tab.isSome = true) →
      ∃ t, (t = s.updTrain fun x => x.launch (c.f 5 14 0) (Desc.dword c.d 2) (c.w 4) j.eInit (c.bit 5 16)) ∧ t.train.e = j.eInit ∧
        t.train.clean = 0 ∧ t.train.gather = true ∧ Runs (.jobLaunch q d) s ((t.launchAll.setJob .run 0).ok c)) ∧
    (∀ i a, Passes s c 0x0213 → c.zero 2 = true → s.train.js ≠ .idle → s.ownsJob c = true → Accepts s c i a →
      Runs (.jobDetach q d) s (a.beginReset (a.resetTargets c.opc c.d)).settle) ∧
    (Passes s c 0x0214 → s.ownsJob c = true → c.zero 2 = true → s.train.launched = true →
      Runs (.coreRelaunch q d) s ((allCores.foldl (fun (a : State) k => if (a.core k).st = .stopped then a.launchCore k else a) s).ok c)) ∧
    (∀ u b t, Passes s c 0x0220 → c.n 4 = 64 → c.only 5 0x1FFF = true → c.zero 6 = true → (s.que (c.f 5 12 0)).typ = 3 → Reads s c u b →
      (u.que (c.f 5 12 0)).sid = u.sidOf c → entryCheck (Desc.word (bytesWords b) 0) = none → (u.que (c.f 5 12 0)).st = 1 →
      (u.que (c.f 5 12 0)).dbc = false → u.postEntry (c.f 5 12 0) (bytesWords b) = some t → Runs (.workPost q d) s (t.ok c)) ∧
    (∀ u b, Passes s c 0x0300 → s.ownsJob c = true → (s.train.js = .idle ∨ s.train.js = .loaded) → c.n 4 = 49152 → c.zero 5 = true → Reads s c u b →
      Runs (.l2pSet q d) s ((u.updFab fun f => { f with l2p := l2pOf 0 b }).ok c))) ∧
  (∀ (s : State) (k : Nat), k < 512 → (s.core k).retired = false → (s.core k).retiring = false →
    ((s.launchAll).core k).st = .run ∧ ((s.launchAll).core k).pc = (s.core k).entry ∧ ((s.launchAll).core k).vflags = 0#8 ∧
    ((s.launchAll).core k).step = s.train.step ∧ ((s.launchCore k).core k).st = .run ∧ ((s.launchCore k).core k).vflags = (s.core k).vflags)

/-- Commands of groups 0x03 and 0x04: table sets, fences, pass sets, comb selection, readmission, tree plans and weights
act and answer. For a command c that passes the frame; u and b as reading its structure gives. (1) FAB_TABLES of a
set that R197 and R200 allow, for a named watershed or for a barrier on a tree pair, becomes the shadow set of the
next epoch with its switch point and cleared counts. (2) FAB_FENCE fences one LID, or every LID of a partition, hard
or soft as asked. (3) FAB_UNFENCE starts the readmission of the FENCED LIDs that it names and ends with DONE. (4)
PASS_PLAN writes the sets that R228 allows. (5) PASS_CONFIG sets the rotation interval and (6) selects an OK comb
input. (7) PORT_READMIT starts the readmission. (8) TREE_PLAN puts entries that R255 allows under census. (9)
VC_WEIGHTS sets the weights outside an attempt, and keeps them for its next boundary in one (log entry 194). (10) A
pass set other than the active one is written at once, and its VER advances; the active one's entries go to its
shadow. (11) A readmitted LID is DOWN; on a READY port the port soaks again. -/
def Obligations.FabricCommandsComplete : Prop :=
  (∀ (s : State) (q : Nat) (d : Desc) (c : Cmd), c = cmdOf s q d →
    (∀ u b t i a (z : State), Passes s c 0x0301 → s.ownsJob c = true → c.only 5 0x31 = true → (c.bit 5 0 = false → c.f 5 5 4 = 0) →
      (c.bit 5 0 = true → c.n 6 = 0) → c.zero 7 = true →
      256 ≤ c.n 4 → c.n 4 ≤ 34560 → Reads s c u b → parseTables u.fab.cur b = some t → u.tablesOk t = true → u.fab.old = none → u.fab.shadow = none →
      u.votingNow = false → Accepts u c i a →
      z = (a.updFab fun f => { f with
        shadow := some t, shadowEp := (a.fab.curEp + 1) % 4, shadowSw := c.bit 5 0, shadowAt := if c.bit 5 0 then c.f 5 5 4 else c.n 6, shadowHnd := i
        inj := tput f.inj ((a.fab.curEp + 1) % 4) 0, dlv := tput f.dlv ((a.fab.curEp + 1) % 4) 0
        lids := f.lids.map fun k => (k.1, { k.2 with acc := tput k.2.acc ((a.fab.curEp + 1) % 4) 0, txa := tput k.2.txa ((a.fab.curEp + 1) % 4) 0 }) }) →
      (c.bit 5 0 = false → Runs (.fabTables q d) s z) ∧
      (c.bit 5 0 = true → u.outsideStep = true →
        Runs (.fabTables q d) s (z.updTrain fun x => { x with votes := x.votes ++ [barEntry x.vseq.toNat (c.f 5 5 4)] }))) ∧
    (∀ i a b ls, Passes s c 0x0302 → c.fenceOk 0x37F = true → Accepts s c i a → ls = a.fenceLids c →
      b = (if c.bit 2 8 then a.updFab fun f => { f with fenced := setIns f.fenced (c.f 3 11 0) } else a) →
      (ls = [] → Runs (.fabFence q d) s (b.doneLong i)) ∧
      (ls ≠ [] → Runs (.fabFence q d) s (ls.foldl (fun (x : State) l => if c.bit 2 9 then x.hardFence l else x.softFence l true)
        (ls.foldl (fun (x : State) l => x.updLid l fun k => { k with fenceHnd := some i }) b)))) ∧
    (∀ i a b, Passes s c 0x0303 → c.fenceOk 0x17F = true → (c.bit 2 8 = false → (s.lid (c.f 2 6 0)).st = .fenced) → Accepts s c i a →
      b = (if c.bit 2 8 then a.updFab fun f => { f with fenced := setDel f.fenced (c.f 3 11 0) } else a) →
      Runs (.fabUnfence q d) s (((s.fenceLids c).foldl (fun (x : State) l => if (x.lid l).st = .fenced then x.readmitLid l else x) b).doneLong i)) ∧
    (∀ u b sets, Passes s c 0x0310 → c.only 5 0xFF = true → sets = (List.range 8).filter (fun n => c.bit 5 n) → sets ≠ [] → c.zero 6 = true →
      c.n 4 = 512 * sets.length → Reads s c u b → (∀ i, i < sets.length → zeroBytes b (512 * i + 408) 104 = true) →
      u.passOk (passEntries sets b) sets = true → (u.light.swPend = true → u.light.pendSet ∉ sets) →
      Runs (.passPlan q d) s ((sets.foldl (fun (a : State) n => a.writeSet (passEntries sets b) n) u).ok c)) ∧
    (Passes s c 0x0311 → c.only 2 7 = true → c.only 3 0xFFFF = true → c.zero 4 = true →
      (c.bit 2 0 = false → c.bit 2 2 = true → c.f 3 15 0 ≤ 3600 →
        Runs (.passConfig q d) s ((s.updLight fun b => { b with rotInt := c.f 3 15 0 }).ok c)) ∧
      (c.bit 2 0 = true → c.f 2 1 1 = 1 → c.bit 2 2 = false → s.outsideStep = true → (s.train.js = .run → s.train.train = true) →
        s.light.bSt = 1 → s.light.sel = 0 → Runs (.passConfig q d) s ((s.combSwitch 1).ok c))) ∧
    (∀ i a x, Passes s c 0x0312 → c.only 2 7 = true → c.f 2 2 0 ≤ 5 → c.zero 3 = true → x = s.port (c.f 2 2 0) →
      x.st ≠ .soak → x.st ≠ .apr → x.st ≠ .search → x.hnd = none → x.broken = false → (s.light.aSt = 1 ∨ s.light.bSt = 1) → Accepts s c i a →
      Runs (.portReadmit q d) s ((a.readmitPort (c.f 2 2 0)).updPort (c.f 2 2 0) fun y => { y with hnd := some i })) ∧
    (∀ u b p x y i a plan, Passes s c 0x0400 → s.ownsJob c = true → c.only 5 0xF = true → (List.range 4).filter (fun n => c.bit 5 n) = [p] → c.zero 6 = true →
      c.n 4 = 32 → Reads s c u b → parseTree (b.drop 0) = some x → parseTree (b.drop 16) = some y → u.treeOk x = true → u.treeOk y = true →
      splitOk x y = true → plan = tputAll u.coll.plan [(2 * p, x), (2 * p + 1, y)] → ringsApart plan = true → tget TreeEnt.none plan (2 * p) = x →
      tget TreeEnt.none plan (2 * p + 1) = y → u.coll.newPlan = none → (∀ r ∈ u.coll.runs, r.tp ≠ p) → u.votingNow = false → Accepts u c i a →
      Runs (.treePlan q d) s ((((a.updColl fun z => { z with newPlan := some (plan, i), census := [], censusDn := [] }).postSlots a).censusUp
        (2 * p)).censusUp (2 * p + 1))) ∧
    (Passes s c 0x0401 → c.only 2 0x3F = true → c.zero 5 = true →
      (s.outsideStep = true → Runs (.vcWeights q d) s ((s.setWeights (c.f 2 5 0) (Desc.dword c.d 3)).ok c)) ∧
      (s.outsideStep = false → Runs (.vcWeights q d) s ((s.updFab fun f =>
        { f with vcwNext := tputAll f.vcwNext (((List.range 6).filter (nbit (c.f 2 5 0) ·)).map (·, Desc.dword c.d 3)) }).ok c)))) ∧
  (∀ (s : State) (t : Tab W32) (n : Nat),
    (n ≠ s.light.actSet → (s.writeSet t n).light.ver = tupd 0 s.light.ver n (fun v => (v + 1) % 8) ∧
      (s.writeSet t n).light.actSet = s.light.actSet) ∧
    (n = s.light.actSet → (s.writeSet t n).light.sets = s.light.sets ∧ (s.writeSet t n).light.ver = s.light.ver)) ∧
  (∀ (s : State) (l : Nat), (s.port (s.lidPort l)).st ≠ .ready →
    s.readmitLid l = s.updLid l fun k => { k with st := .down, fenceCyc := none }) ∧
  (∀ (s : State) (l : Nat), (s.port (s.lidPort l)).st = .ready → ((s.readmitLid l).lid l).st = .down ∧
    ((s.readmitLid l).port (s.lidPort l)).st = .soak ∧ ((s.readmitLid l).port (s.lidPort l)).pend = true ∧
    ((s.readmitLid l).port (s.lidPort l)).rot = 0)

/-- STAGE_TABLE, CKPT, CKPT_SEAL, REPLACE, DRAIN, ROLLBACK, REPLAY and CERTIFY act and answer. For a command c of the
job's own session that passes the frame. (1) STAGE_TABLE of a LOADED or HELD job, outside a vote, installs a table
that R279 and R282 allow; one that they refuse answers their status and DETAIL0. (2) CKPT of a job that has
committed streams its image through the group that it names, 4 where it names none, and remembers the step. (3)
CKPT_SEAL waits for its watershed. (4) REPLACE and (5) DRAIN on a device that keeps its node wait for theirs; (6)
both on Y with a table start to fill it. (7) ROLLBACK and (8) REPLAY of a standing job wait for their image. (9)
CERTIFY waits for the boundary between attempts, or begins in it. -/
def Obligations.StepStateCommandsComplete : Prop :=
  ∀ (s : State) (q : Nat) (d : Desc) (c : Cmd), c = cmdOf s q d → s.ownsJob c = true →
    (∀ u b, Passes s c 0x0500 → (s.train.js = .loaded ∨ s.train.js = .held) → s.votingNow = false → c.zero 5 = true → 128 ≤ c.n 4 →
      c.n 4 ≤ 32768 → Reads s c u b →
      (∀ t, u.checkTable b = .inl t → Runs (.stageTable q d) s ((u.updTrain fun y => { y with tab := some t }).ok c)) ∧
      (∀ x, u.checkTable b = .inr x → Runs (.stageTable q d) s (u.reply c x.1 (BitVec.ofNat 32 x.2) 0#32 0#32 0#32))) ∧
    (∀ t x i a g, Passes s c 0x0510 → c.only 4 0xF = true → (c.f 4 3 0 = 0 ∨ c.f 4 3 0 = 4 ∨ 7 ≤ c.f 4 3 0) → c.zero 5 = true →
      g = (if c.f 4 3 0 = 0 then 4 else c.f 4 3 0) → s.stepped = some t → s.target (c.dw 2) = some x →
      s.train.step ≠ 0#64 → s.train.ckpt = none → Accepts s c i a →
      Runs (.ckpt q d) s ((a.streamImage g t x.1 x.2).updTrain fun y => { y with ckpt := some (y.step.toNat - 1, i), cstate := 1 })) ∧
    (∀ t, Passes s c 0x0511 → c.zero 5 = true → s.stepped = some t → s.votingNow = false → s.sealPasses (c.dw 2) = false →
      Runs (.ckptSeal q d) s ((s.updTrain fun t => { t with
        pend := t.pend ++ [{ kind := 0, vseq := c.n 4, n := 0, y := 0, s := c.dw 2, stby := 0, hnd := 0 }] }).ok c)) ∧
    (∀ t i a, Passes s c 0x0520 → c.moveOk = true → s.votingNow = false → c.n 3 ≠ s.fab.phys → c.zero 6 = true → s.stepped = some t → Accepts s c i a →
      Runs (.replace q d) s ((a.putStby c).updTrain fun y => { y with pend := y.pend ++ [c.moves 1 i] })) ∧
    (∀ t i a r, Passes s c 0x0520 → c.moveOk = true → s.votingNow = false → c.n 3 = s.fab.phys → s.train.js = .loaded → s.host.job.isSome = true →
      c.zero 11 = true → c.addrOk 8 = true → (s.target (c.dw 6)).isSome = true → 128 ≤ c.n 10 → c.n 10 ≤ 32768 →
      r = s.memRead .hub 0 (c.dw 8) (c.n 10) → r.2.2.2 = none → r.1.checkTable r.2.1 = .inl t → Accepts r.1 c i a →
      Runs (.replace q d) s (a.beginFill c t i false)) ∧
    (∀ i a, Passes s c 0x0521 → c.moveOk = true → c.only 6 0xF = true → (c.f 6 3 0 = 0 ∨ 7 ≤ c.f 6 3 0) → c.zero 7 = true → s.votingNow = false →
      Accepts s c i a →
      (∀ t, c.n 3 ≠ s.fab.phys → s.stepped = some t → Runs (.drain q d) s (a.beginMove c i true)) ∧
      (∀ t, c.n 3 = s.fab.phys → s.train.tab = some t → s.train.js = .loaded → s.host.job.isSome = true →
        Runs (.drain q d) s (a.beginFill c t i true))) ∧
    (∀ i a, Passes s c 0x0522 → c.zero 4 = true → s.standing = true → (s.target (c.dw 2)).isSome = true → s.train.rollHnd = none → s.det.rhnd = 0 →
      Accepts s c i a → Runs (.rollback q d) s (a.updTrain fun y => { y with rollHnd := some i })) ∧
    (∀ i a, Passes s c 0x0900 → c.only 6 1 = true → c.zero 9 = true → (c.f 6 0 0 = 0 → c.dw 7 = 0) →
      (c.f 6 0 0 = 1 → (s.target (c.dw 7)).isSome = true) → s.standing = true →
      (s.target (c.dw 2)).isSome = true → s.train.rollHnd = none → s.det.rhnd = 0 → Accepts s c i a →
      Runs (.replay q d) s ((a.updTrain fun y => if y.launched then y else { y with n := a.jobN, fresh := true }).updDet fun y =>
        { y with tstop := Desc.dword c.d 4, source := c.f 6 0 0, rhnd := i })) ∧
    (∀ t i a, Passes s c 0x0901 → c.addrOk 2 = true → c.dw 2 + c.dw 4 ≤ 2 ^ 40 → c.addrOk 8 = true → c.dw 8 % 256 = 0 → c.zero 10 = true →
      s.stepped = some t → s.train.ws ≠ .unresolved → s.det.cert = none → Accepts s c i a →
      Runs (.certify q d) s ((a.updDet fun y => { y with cert := some (i, c.dw 2, c.dw 4, Desc.dword c.d 6, c.dw 8) }).startCert))

/-- Watershed, hold, resume and power commands act and answer. For a command c that passes the frame; the first six of
the job's own session. (1) WS_QUERY of the current VSEQ seals it and answers WSTATE and the outcome. (2) WS_RESOLVE
of a sealed VSEQ that has opened, whatever its state, takes the outcome given where it has none, and answers OK or
BAD_STATE as it agrees or not with the one that it has. (3) CFG_WATERSHED opens its watershed once none is open.
(4) JOB_HOLD of a job at rest holds it with cause 5, (5) in an attempt it waits for the outcome. (6) JOB_RESUME of a
job HELD at rest returns it to RUN, and before the rest waits for it. (7) PWR_LIMIT of 900 to 1,600 W sets its master's limit and answers EFF_LIM. (8)
PWR_MODE and (9) SET_PSTATE ask for their mode. (10) PWR_SHARE without EN leaves the
group; with EN it joins one of G W, with the share that it has where that fits and a free one otherwise (log entry
43). (11) THERM_LIMIT sets
offsets up to 20. -/
def Obligations.StepControlAndPowerCommandsComplete : Prop :=
  ∀ (s : State) (q : Nat) (d : Desc) (c : Cmd), c = cmdOf s q d →
    (s.ownsJob c = true →
      (Passes s c 0x0530 → c.zero 3 = true → s.train.js ≠ .idle → c.w 2 = s.train.vseq →
        Runs (.wsQuery q d) s ((s.updTrain fun t => { t with sealed_ := true }).okWith c s.wsDetail)) ∧
      (Passes s c 0x0531 → c.only 3 3 = true → (c.bit 3 0 && c.bit 3 1) = false → c.zero 4 = true → s.train.js ≠ .idle → c.w 2 = s.train.vseq →
        s.train.sealed_ = true →
        (s.train.out = none → s.train.fresh = false →
          Runs (.wsResolve q d) s ((s.dropVote.takeOutcome (c.bit 3 0) (c.bit 3 1) (c.bit 3 1) false).ok c)) ∧
        (s.train.out = some (c.bit 3 0, c.bit 3 1) → Runs (.wsResolve q d) s (s.ok c)) ∧
        (∀ o, s.train.out = some o → o ≠ (c.bit 3 0, c.bit 3 1) → Runs (.wsResolve q d) s (s.badState c))) ∧
      (∀ t i a, Passes s c 0x0532 → c.only 2 3 = true → c.zero 3 = true → s.stepped = some t → (s.tree (c.f 2 1 0) 0).valid = true →
        (s.tree (c.f 2 1 0) 1).valid = true → s.train.cfgHnd = none → Accepts s c i a →
        Runs (.cfgWatershed q d) s (a.updTrain fun t => { t with cfgHnd := some i }).startCfg) ∧
      (Passes s c 0x0540 → c.zero 2 = true → s.train.js = .run →
        (s.outsideStep = true → s.train.atRest = true → Runs (.jobHold q d) s ((s.setJob .held 5).ok c)) ∧
        (s.outsideStep = false → Runs (.jobHold q d) s ((s.updTrain fun t => { t with wantHold := true, wantRun := false }).ok c))) ∧
      (Passes s c 0x0541 → c.zero 2 = true → s.train.js = .held →
        ((s.between && s.train.atRest) = true → Runs (.jobResume q d) s ((s.setJob .run 0).ok c)) ∧
        ((s.between && s.train.atRest) = false → Runs (.jobResume q d) s ((s.updTrain fun t => { t with wantRun := true }).ok c)))) ∧
    (Passes s c 0x0601 → c.only 2 0xFFFF = true → c.zero 3 = true → 900 ≤ c.f 2 15 0 → c.f 2 15 0 ≤ 1600 →
      (c.master = 2 ∨ s.power.mode ≠ 0 ∨ 1505 ≤ c.f 2 15 0) →
      ∃ t, t = (s.updPower fun p => if c.tray then { p with trayCeil := c.f 2 15 0 } else { p with hostLim := c.f 2 15 0 }).limitChanged s.power.effLim ∧
        Runs (.pwrLimit q d) s (t.okWith c t.power.effLim)) ∧
    (Passes s c 0x0602 → c.only 2 3 = true → c.only 3 0xFF = true → c.zero 4 = true → c.f 2 1 0 = 1 →
      (c.f 3 7 0 = 0 ∨ (120 ≤ c.f 3 7 0 ∧ c.f 3 7 0 ≤ s.power.fmax)) → Runs (.pwrMode q d) s ((s.askMode (1, c.fset s.power, 0)).ok c)) ∧
    (Passes s c 0x0602 → c.only 2 3 = true → c.only 3 0xFF = true → c.zero 4 = true → c.f 2 1 0 = 0 → s.power.ffcap = true →
      1505 ≤ s.power.effLim → Runs (.pwrMode q d) s ((s.askMode (0, c.fset s.power, 0)).ok c)) ∧
    (Passes s c 0x0600 → c.only 2 7 = true → c.zero 3 = true →
      Runs (.setPstate q d) s ((s.askMode (2, s.power.fset, c.f 2 2 0)).okWith c (10 * min (pstateClk (c.f 2 2 0)) s.power.fmax))) ∧
    (Passes s c 0x0603 → c.only 2 7 = true → c.bit 2 0 = false → c.bit 2 1 = false → c.bit 2 2 = false → c.only 5 0x3F3F = true → c.zero 6 = true →
      Runs (.pwrShare q d) s (((s.updPower fun p =>
        { p with balEn := false, balShare := 0, leader := false, members := 0, g := 0, slack := 0, reps := [],
                 ranked := false, decs := [], incs := [], freed := 0 }).limitChanged s.power.effLim).ok c)) ∧
    (∀ n g b keep, Passes s c 0x0603 → c.only 2 7 = true → c.bit 2 0 = true → c.bit 2 1 = false → c.bit 2 2 = false → c.only 5 0x3F3F = true →
      c.zero 6 = true → n = s.shareMembers → g = c.n 3 → b = c.balWords → 900 * n ≤ g → g ≤ s.ceilSum → b.1 ≤ 100 → 900 ≤ b.2 → b.2 ≤ 1600 →
      keep = (s.power.balEn && decide (s.power.balShare * n ≤ g)) →
      Runs (.pwrShare q d) s ((((if keep then s else s.tick).updPower fun p =>
        { p with balEn := true, g := g, balStep := b.1, balMin := b.2, balShare := if keep then s.power.balShare else s.joinShare g n
                 members := n, leader := s.leaderSlot == s.fab.phys % 128 }).limitChanged s.power.effLim).ok c)) ∧
    (Passes s c 0x0610 → c.only 2 0xFFFFFF = true → c.zero 3 = true → c.f 2 7 0 ≤ 20 → c.f 2 15 8 ≤ 20 → c.f 2 23 16 ≤ 20 →
      Runs (.thermLimit q d) s ((s.updPower fun p => { p with silOfs := c.f 2 7 0, memOfs := c.f 2 15 8, optOfs := c.f 2 23 16 }).ok c))

/-- FLT_READ, FLT_CLEAR, HEALTH_READ, LINK_COUNT, UNIT_READMIT and FLT_WINDOWS act and answer. For a command c that
passes the frame. (1) FLT_READ copies the FLT_ block to memory, (2) in FATAL to the read buffer, with the byte count
in DETAIL2. (3) FLT_CLEAR clears VALID and OVERFLOW of FLT_FIRST with COVF on bit 0, of every FLT_DIE_i on bit 1,
and nothing else. (4) HEALTH_READ copies the ledger entries from the wanted number on, as many as fit, and answers
their count and the newest number, (5) in FATAL up to 64 KiB of them to the buffer. (6) LINK_COUNT answers ACC and
TXA of a LID and epoch. (7) UNIT_READMIT of a retired unit waits while a job of attempts is in RUN mid-attempt; (8)
else each core is tested: where all pass, every core returns, a READMIT entry is written, and the answer is OK;
where one fails, BAD_STATE. What a test finds is a free value. (9) FLT_WINDOWS sets N and T and clears the window's
counts. -/
def Obligations.FaultCommandsComplete : Prop :=
  ∀ (s : State) (q : Nat) (d : Desc) (c : Cmd), c = cmdOf s q d →
    (∀ t, Passes s c 0x0700 → c.zero 4 = true → s.flt.fatal = false → c.addrOk 2 = true → s.memPut .hub 0 (c.dw 2) s.fltBytes = (t, none) →
      Runs (.fltRead q d) s (t.ok c)) ∧
    (Passes s c 0x0700 → c.zero 4 = true → s.flt.fatal = true →
      Runs (.fltRead q d) s ((s.updHost fun h => { h with fbuf := cellStore [] 0 (s.fltBytes.take 65536) }).reply c 0 0#32 0#32
        (BitVec.ofNat 32 (s.fltBytes.take 65536).length) 0#32)) ∧
    (Passes s c 0x0701 → c.only 2 3 = true → c.zero 3 = true →
      ∃ f, Runs (.fltClear q d) s ((s.updFlt fun _ => f).ok c) ∧
        f.first = (if c.bit 2 0 then { s.flt.first with valid := false, ovf := false } else s.flt.first) ∧
        f.covf = (if c.bit 2 0 then false else s.flt.covf) ∧
        f.dies = (if c.bit 2 1 then s.flt.dies.map (fun e => (e.1, { e.2 with valid := false, ovf := false })) else s.flt.dies) ∧
        f = { s.flt with first := f.first, covf := f.covf, dies := f.dies }) ∧
    (∀ t es, Passes s c 0x0702 → c.n 4 % 32 = 0 → c.zero 6 = true → s.flt.fatal = false → c.addrOk 2 = true →
      es = (s.flt.ledger.filter fun e => decide (e.seq ≥ c.n 5)).take (c.n 4 / 32) → s.memPut .hub 0 (c.dw 2) (es.flatMap Ledg.bytes) = (t, none) →
      Runs (.healthRead q d) s (t.reply c 0 (BitVec.ofNat 32 es.length) s.newestSeq 0#32 0#32).tick) ∧
    (∀ es, Passes s c 0x0702 → c.n 4 % 32 = 0 → c.zero 6 = true → s.flt.fatal = true →
      es = (s.flt.ledger.filter fun e => decide (e.seq ≥ c.n 5)).take (min (c.n 4) 65536 / 32) →
      Runs (.healthRead q d) s ((s.updHost fun h => { h with fbuf := cellStore [] 0 (es.flatMap Ledg.bytes) }).reply c 0
        (BitVec.ofNat 32 es.length) s.newestSeq (BitVec.ofNat 32 (es.flatMap Ledg.bytes).length) 0#32).tick) ∧
    (∀ a t, Passes s c 0x0703 → c.only 2 0x37F = true → c.zero 3 = true → c.f 2 6 0 ≤ 95 →
      a = tget 0 (s.lid (c.f 2 6 0)).acc (c.f 2 9 8) → t = tget 0 (s.lid (c.f 2 6 0)).txa (c.f 2 9 8) →
      Runs (.linkCount q d) s (s.reply c 0 (half a false) (half a true) (half t false) (half t true))) ∧
    (∀ cs, Passes s c 0x0710 → c.only 2 0x3FFFF000 = true → c.zero 3 = true → cs = readmitCores (c.w 2) → cs ≠ [] → cs.all s.unitOut = true →
      s.train.js ≠ .rebuild → s.train.js ≠ .pending →
      (s.train.js = .run → s.train.train = true → (s.between && s.train.atRest) = false →
        Runs (.unitReadmit q d) s (s.updFlt fun x => { x with readmits := x.readmits ++ [{ q := c.q, d := c.d, sqhead := c.hd }] })) ∧
      ((s.train.js ≠ .run ∨ s.train.train = false ∨ (s.between && s.train.atRest) = true) →
        Runs (.unitReadmit q d) s (if (s.testCores cs).2 then
          ((cs.foldl State.returnCore (s.testCores cs).1).ledg 2 (bitsOf (c.w 2) 29 24) (bitsOf (c.w 2) 23 22) (bitsOf (c.w 2) 21 12) []).ok c
          else (s.testCores cs).1.badState c))) ∧
    (Passes s c 0x0720 → c.only 2 0xF = true → c.only 3 0xFFFF = true → c.zero 5 = true → c.f 2 3 0 ≤ 10 → c.f 3 15 0 ≠ 0 → c.n 4 ≠ 0 →
      c.n 4 ≤ 2592000000 →
      ∃ t, t = (s.updFlt fun f => { f with
          wins := tput f.wins (c.f 2 3 0) (c.f 3 15 0, c.n 4), cnts := f.cnts.filter fun e => e.1.1 != c.f 2 3 0 }) ∧
        Runs (.fltWindows q d) s (if c.f 2 3 0 = 5 then
          (t.updHbm fun h => { h with stks := h.stks.map fun e => (e.1, { e.2 with rows := [] }) }).ok c else t.ok c))

/-- FW_STAGE, FW_STAGE_COMPLETE, FW_ACTIVATE, ATTEST and DBG_UNLOCK act and answer. For a command c that passes the
frame. (1) FW_STAGE puts the image in the bank that is not running, not yet valid, and is ACCEPTED. (2)
FW_STAGE_COMPLETE then ends it: DONE with the bank staged where MAGIC, versions, SVN, key slot, length and
signatures are good, else AUTH_FAIL with the bank invalid and cause 0x70. (3) FW_ACTIVATE of a staged bank names it
in the boot selector, with the next sequence number. (4) ATTEST writes digest, SVN, fused counter and nonce with
their signature, and remembers the nonce. (5) DBG_UNLOCK with a token good for the serial number and the issued
nonce unlocks the session; (6) a failed token answers AUTH_FAIL. The sizes of (1) and the layout of (4) are the
model's, assumptions 46 and the stage limits of the log. -/
def Obligations.FirmwareCommandsComplete : Prop :=
  (∀ (s : State) (q : Nat) (d : Desc) (c : Cmd), c = cmdOf s q d →
    (∀ u b i a, Passes s c 0x0800 → 512 ≤ c.n 4 → c.n 4 ≤ 2 ^ 26 → c.zero 5 = true → Reads s c u b → u.mod.stHnd = none → Accepts u c i a →
      Runs (.fwStage q d) s (a.updMod fun m => { m with stHnd := some i, staged := 2, imgs := tput m.imgs (1 - m.bank) b })) ∧
    (Passes s c 0x0801 → c.zero 2 = true → s.mod.staged = 1 →
      Runs (.fwActivate q d) s ((s.updMod fun m => { m with sel := 1 - m.bank, selSeq := m.selSeq + 1, pend := true }).ok c)) ∧
    (∀ n m t, Passes s c 0x0810 → c.addrOk 2 = true → c.zero 12 = true → n = wordsBytes ((from_ 4 8).map c.w) →
      m = s.imageDigest ++ natLe s.mod.svn 1 ++ natLe s.mod.svnFuse 1 ++ n → s.memPut .hub 0 (c.dw 2) (m ++ sized 96 (Config.sign m)) = (t, none) →
      Runs (.attest q d) s ((t.updHost fun h => { h with nonce := some n }).ok c)) ∧
    (∀ u b n, Passes s c 0x0820 → c.n 4 ≠ 0 → c.zero 5 = true → Reads s c u b → u.host.nonce = some n →
      (Config.tokenGood b (serialBytes ++ n) = true →
        Runs (.dbgUnlock q d) s ((u.updHost fun h => { h with sess := tput h.sess (u.sidOf c) { u.sess (u.sidOf c) with unlocked := true } }).ok c)) ∧
      (Config.tokenGood b (serialBytes ++ n) = false → Runs (.dbgUnlock q d) s ((u.authReport 0x0820).deny c 0x10F))) ∧
    (∀ u b, Passes s c 0x0820 → c.n 4 ≠ 0 → c.zero 5 = true → Reads s c u b → u.host.nonce = none →
      Runs (.dbgUnlock q d) s ((u.authReport 0x0820).deny c 0x10F))) ∧
  (∀ (s : State) (good : Bool) (i : Nat), s.mod.stHnd = some i →
    ∃ t, t = (s.updMod fun m => { m with stHnd := none, staged := if imageOk (tget [] s.mod.imgs (1 - s.mod.bank)) s.mod.svnFuse good then 1 else 2 }) ∧
      Runs (.fwStageComplete good) s (if imageOk (tget [] s.mod.imgs (1 - s.mod.bank)) s.mod.svnFuse good then t.doneLong i
        else (t.authReport 0x0800).finishLong i 0x10F 0#32 0#32 0#32 0#32)) ∧
  (∀ (b : List Byte) (fuse : Nat) (good : Bool), imageOk b fuse good = true ↔
    (good = true ∧ b.take 6 = [0x46#8, 0x57#8, 0x49#8, 0x4D#8, 1#8, 2#8] ∧ fuse ≤ fieldLe b 6 1 ∧ fieldLe b 6 1 ≤ 63 ∧ fieldLe b 7 1 ≤ 1 ∧
      fieldLe b 8 4 + 512 = b.length))

/-- In FATAL only NOP, DEV_INFO, FLT_READ, HEALTH_READ and the tray's DEV_RESET are carried out; PERST_N resets the
endpoint only. In FATAL, whatever the arbiter takes from a queue: (1) a command whose opcode is none of NOP,
DEV_INFO, FLT_READ, HEALTH_READ and DEV_RESET leaves the command queue and does nothing but complete with BAD_STATE,
an opcode of no rule and a vendor opcode included. (2) DEV_RESET from a host session completes with DENIED in the
same way, and so does one from the admin queue, which Table 12-7 does not list for it. (3) NOP, DEV_INFO, FLT_READ
and HEALTH_READ, and (4) DEV_RESET from the tray manager, are carried out by their own rule, where no reserved bit
of word 0 is set, the version is 0 and Table 12-7 lists the command's master. (5) PERST_N resets the PCIe endpoint
and changes nothing else but its own level. -/
def Obligations.FatalLimitsTheCommands : Prop :=
  (∀ (s : State) (c : Cmd), s.flt.fatal = true →
    (c.opc ∉ [0x0000, 0x0003, 0x0014, 0x0700, 0x0702] → s.admitCmd c = .next ((s.takeCmd c).deny c 0x104)) ∧
    (c.opc = 0x0014 → c.master ≠ 2 → s.admitCmd c = .next ((s.takeCmd c).deny c 0x107)) ∧
    (∀ ms, c.opc ∈ [0x0000, 0x0003, 0x0700, 0x0702] → c.f 0 31 28 = 0 → c.f 0 27 22 = 0 → c.f 0 19 16 = 0 → opcMasters c.opc = some ms → c.master ∈ ms →
      ((s.sess (s.sidOf c)).v13 = true → c.master = 0 → opc13 c.opc = true) →
      ∃ run, ruleOf c.opc = some run ∧ s.admitCmd c = .next (run c (s.takeCmd c))) ∧
    (c.opc = 0x0014 → c.master = 2 → c.f 0 31 28 = 0 → c.f 0 27 22 = 0 → c.f 0 19 16 = 0 → s.admitCmd c = .next (runDevReset c (s.takeCmd c)))) ∧
  (∀ s : State, s.flt.fatal = true → s.mod.perst = false →
    Runs .perstAssert s ((s.updMod fun m => { m with perst := true }).updHost HostIf.endpoint))

/-- COMMAND_ADMIT takes one command a cycle; of two that meet the loser goes first and the winner next. The arbiter with
nothing fetched does nothing. With a command of one master alone, it takes that command from its queue and carries
it out as the command's own row does: a rule of Table 12-7 on what the frame lets pass, BAD_OPCODE for an opcode of
no rule, the refusal's status for what the frame refuses. With a command of each master, SES_ARB counts the tie, the
losing command is carried out, and in the next cycle the winning one, whatever else is fetched by then: the tray
wins with group 0x06, DEV_RESET and DOMAIN_RESET, the host with every other command. The example of R355: of
JOB_RESUME and JOB_HOLD that meet, the tray's JOB_HOLD goes first. -/
def Obligations.CommandsAreAdmittedInTurn : Prop :=
  (∀ s : State, s.hostCand = none → s.trayCand = none → Runs .commandAdmit s s) ∧
  (∀ (s t : State) (c : Cmd), (s.hostCand = some c ∧ s.trayCand = none ∨ s.hostCand = none ∧ s.trayCand = some c) → t = s.takeCmd c → vendorOpc c.opc = false →
    (∀ run, ruleOf c.opc = some run → t.refusal c = none → Runs .commandAdmit s (run c t)) ∧
    (∀ x d, t.refusal c = some (x, d) → Runs .commandAdmit s (t.reply c x d 0#32 0#32 0#32))) ∧
  (∀ (s : State) (h t : Cmd), s.hostCand = some h → s.trayCand = some t → s.host.tieNext = 0 →
    ∃ win lose u, (win = if t.opc / 256 = 6 ∨ t.opc = 0x0014 ∨ t.opc = 0x0013 then t else h) ∧ (lose = if win = t then h else t) ∧
      u = (s.updHost fun x => { x with ties := satAdd 16 x.ties 1 }) ∧
      (∀ run, ruleOf lose.opc = some run → (u.takeCmd lose).refusal lose = none → vendorOpc lose.opc = false →
        Runs .commandAdmit s ((run lose (u.takeCmd lose)).updHost fun x => { x with tieNext := if win.q = 8190 then 2 else 1 }))) ∧
  (∀ (s : State) (h t : Cmd), s.hostCand = some h → s.trayCand = some t →
    (s.host.tieNext = 1 → exec .commandAdmit s = s.admitCmd h) ∧ (s.host.tieNext = 2 → exec .commandAdmit s = s.admitCmd t)) ∧
  (∀ o : Nat, trayWins o = true ↔ (o / 256 = 6 ∨ o = 0x0014 ∨ o = 0x0013)) ∧
  trayWins 0x0540 = false ∧ trayWins 0x0601 = true

/-- A vendor opcode is DENIED in a locked session, and stops in an unlocked one, where no rule gives its effect. R348
and R428 open the opcodes 0x7F00 to 0x7FFF to a session that completed DBG_UNLOCK, and give them no effect there.
For a vendor opcode that passes the frame: (1) in a session that has not unlocked it completes with DENIED; (2) in
one that has, the model stops with the refusal vendorEffect. What the frame refuses (3) completes with its status. -/
def Obligations.VendorOpcodesNeedAnUnlock : Prop :=
  ∀ (s : State) (q : Nat) (d : Desc) (c : Cmd), c = cmdOf s q d → q < 8192 → vendorOpc c.opc = true → s.hsqOpen q = true → s.inTurn c = true →
    (s.refusal c = none → (s.sess (s.sidOf c)).unlocked = false → Runs (.vendorOpcode q d) s (s.deny c 0x107)) ∧
    (s.refusal c = none → (s.sess (s.sidOf c)).unlocked = true → exec (.vendorOpcode q d) s = .refused .vendorEffect) ∧
    (∀ x e, s.refusal c = some (x, e) → Runs (.vendorOpcode q d) s (s.reply c x e 0#32 0#32 0#32))

/-- Power samples, shares, clock changes, droop events and daily trims. (1) A 10 µs sample raises PEAK, sets AVG1S and
the fast path above 1,850 W, counts EXCUR where the 100 µs average exceeds EFF_LIM, keeps voltage and current, and
shares the budget; (2) above 1,600 W over 1 s in FIXED mode the device goes to CAPPED at 1.80 GHz without FFCAP,
reports cause 0x52 and posts 0x0006. (3) A share takes the measured powers and shares the budget. (4) At a boundary
a pending change sets the mode and the clock, none above FMAX: FIXED with FMAX below 1.80 GHz becomes CAPPED. (5) A droop of an island not stretched stretches it and counts. (6) It
recovers after 64 cycles near setpoint. (7) The daily trim checks every die with its measurements: (8) 8 % of slack changes
nothing but MARGIN, below it VTRIM rises a step, at +75 mV FMAX falls 10 MHz and the check repeats with the next
measurement. -/
def Obligations.PowerIsMeasuredAndShared : Prop :=
  (∀ (s : State) (w a v i avg : Nat), ∃ t, (t = ((s.updPower fun p =>
      { p with peak := min 65535 (max p.peak w), avg1s := min 65535 avg, fast := decide (w > 1850),
               excur := if a > p.effLim then satAdd 8 p.excur 1 else p.excur }).updMod fun m =>
      { m with vin := min 65535 v, iin := min 65535 i }).shareBudget) ∧ t.power.peak = min 65535 (max s.power.peak w) ∧
    t.power.avg1s = min 65535 avg ∧ t.power.excur = (if a > s.power.effLim then satAdd 8 s.power.excur 1 else s.power.excur) ∧
    (¬ (s.power.mode = 0 ∧ 1600 < avg) → Runs (.inputPowerSample w a avg v i) s t) ∧
    (s.power.mode = 0 → 1600 < avg → Runs (.inputPowerSample w a avg v i) s
      ((((t.updPower fun p => { (p.setMode (1, 180, 0)) with ffcap := false }).report (rep 1 9 0 3 0x52 avg)).postDev 0x0006 0#32 0#32 0#32).shareBudget))) ∧
  (∀ (s : State) (b : Nat) (l m c : DomRead), ∃ t, Runs (.budgetShare b l m c) s t ∧ t.power.pbase = b ∧ t.power.cpw = min 1023 c.meas ∧
    t.power.memw = min 1023 m.meas ∧ t.power.lnkw = min 1023 l.meas ∧ tget (0, 0) t.power.coef 0 = (c.stat, c.dyn) ∧ t = { s with power := t.power }) ∧
  (∀ (s : State) (x : Nat × Nat × Nat), s.power.next = some x → s.boundary = true → ∃ t, Runs .clockModeChange s t ∧ t.power.next = none ∧
    t.power.mode = (if x.1 = 0 ∧ s.power.fmax < 180 then 1 else x.1) ∧ t.power.fcur = (if t.power.mode = 0 then 180
        else if t.power.mode = 1 then min (if x.1 = 0 then 180 else x.2.1) s.power.fmax else min (pstateClk x.2.2) s.power.fmax) ∧ t = { s with power := t.power }) ∧
  (∀ (s : State) (i : Nat), i < 12 → s.power.stretched.contains i = false → ∃ t, Runs (.droopDetect i) s t ∧ t.power.stretched = setIns s.power.stretched i ∧
    t.power.droop = satAdd 16 s.power.droop 1 ∧ tget 0 t.power.ddroop i = satAdd 8 (tget 0 s.power.ddroop i) 1 ∧
    tget 0 t.flt.dayDroop i = satAdd 32 (tget 0 s.flt.dayDroop i) 1 ∧ t = { s with power := t.power, flt := t.flt, train := t.train }) ∧
  (∀ (s : State) (i n : Nat), i < 12 → s.power.stretched.contains i = true → 64 ≤ n →
    Runs (.droopRecover i n) s (s.updPower fun p => { p with stretched := setDel p.stretched i })) ∧
  (∀ (s : State) (k : List (List Nat)), s.mod.rails = true → s.boundary = true → k.length = 12 →
    Runs (.trimDaily k) s ((k.zipIdx.foldl (fun (a : State) x => a.trimStep x.2 x.1) s).fmaxSettle)) ∧
  (∀ (s : State) (i k : Nat) (l : List Nat) (t : State), t = s.trimStep i [k] → s.trimStep i [] = s ∧ tget 0 t.power.margin i = min 255 k ∧
    (8 ≤ k → s.trimStep i (k :: l) = t ∧ t.power.vtrim = s.power.vtrim ∧ t.power.dfmax = s.power.dfmax) ∧
    (k < 8 → tget 0 s.power.vtrim i < 30 → s.trimStep i (k :: l) = t ∧ tget 0 t.power.vtrim i = tget 0 s.power.vtrim i + 1 ∧
      t.power.dfmax = s.power.dfmax) ∧
    (k < 8 → 30 ≤ tget 0 s.power.vtrim i → s.trimStep i (k :: l) = t.trimStep i l ∧ tget 0 t.power.dfmax i = tget 0 s.power.dfmax i - 1 ∧
      t.power.vtrim = s.power.vtrim))

/-- Levels follow priority, stay between MINL and 64, and the load they draw stays within the budget but for the
rounding of one level. The allocation of R363, in 1/6400 W, with static power S and dynamic power D of each domain.
(1) Every domain of the order gets one level from MINL to 64, and a domain without dynamic power gets 64. (2) Where
the budget covers every domain at MINL, the levels together draw no more than the budget but for the one level that
a round-up to cover a demand may add: K / 64 W, for the largest dynamic power K. (3) With budget to spare for full
power of all, every level is 64. (4) The levels of R364's example are 26, 49 and 48. (5) In
FIXED mode with EFF_LIM at or above 1,505 W every gate stands at 64, after the fast path too; elsewhere the fast path
puts every gate at 0 (which of the two rules wins is the model's reading, log entry 102). -/
def Obligations.BudgetIsSharedInPriorityOrder : Prop :=
  (∀ (p : Power) (ph : Nat) (b : Int) (l : List Nat), p.minl ≤ 64 → (p.alloc ph b l).map (·.1) = l ∧
    (∀ x ∈ p.alloc ph b l, p.minl ≤ x.2 ∧ x.2 ≤ 64 ∧ ((tget (0, 0) p.coef x.1).2 = 0 → x.2 = 64))) ∧
  (∀ (p : Power) (ph : Nat) (b : Int) (l : List Nat) (k : Nat), p.minl ≤ 64 → (∀ d ∈ l, (tget (0, 0) p.coef d).2 ≤ k) →
    ((l.map fun d => (6400 * (tget (0, 0) p.coef d).1 + 100 * (tget (0, 0) p.coef d).2 * p.minl : Int)).sum ≤ b) →
    ((p.alloc ph b l).map fun x => (6400 * (tget (0, 0) p.coef x.1).1 + 100 * (tget (0, 0) p.coef x.1).2 * x.2 : Int)).sum ≤ b + 100 * k) ∧
  (∀ (p : Power) (ph : Nat) (b : Int) (l : List Nat), p.minl ≤ 64 →
    (∀ d ∈ l, 8 * ((tget (0, 0) p.coef d).1 + (tget (0, 0) p.coef d).2) ≤ p.demandOf ph d) →
    ((l.map fun d => (6400 * ((tget (0, 0) p.coef d).1 + (tget (0, 0) p.coef d).2) : Int)).sum ≤ b) → ∀ x ∈ p.alloc ph b l, x.2 = 64) ∧
  (∀ p : Power, p.minl = 8 → p.prio = 0x24 → p.coef = [(0, (120, 600)), (1, (90, 380)), (2, (100, 50))] →
    p.demand = [(16, 5760), (17, 3040), (18, 960)] → p.effLim = 1400 → p.pbase = 215 → p.fast = false → p.mode = 1 →
    ((p.share 2).gate 32).pwr = 26 ∧ ((p.share 2).gate 16).pwr = 49 ∧ ((p.share 2).gate 0).pwr = 48) ∧
  (∀ (p : Power) (ph : Nat), ∀ k ∈ gateKeys, (p.mode = 0 → 1505 ≤ p.effLim → ((p.share ph).gate k).pwr = 64) ∧
    (p.mode ≠ 0 ∨ p.effLim < 1505 → p.fast = true → ((p.share ph).gate k).pwr = 0))

/-- Temperatures move the thermal levels, a trip ends all work, and a coolant stop runs its sequence. (1) A reading
keeps TJ and the highest TJ, and (2) a first reading at the trip threshold sets every gate level to 0 and reports a
fatal cause 0x51. (3) At or above throttle, a die's level falls by 8 but not below MINL; (4) 3 °C below it rises by
1 up to 64. (5) COOLANT_OK falls: a device without main rails waits. (6) It rises: a low pulse that ran no stop
counts as a glitch. (7) Low for 100 µs, the stop runs: alert, event 0x0006, cores stopped, LIDs fenced, rings
parked, cause 0x50, rails off. (8) High for 5 s with every die below 60 °C sets EXIT_OK. -/
def Obligations.TemperatureAndCoolantGovernTheGates : Prop :=
  (∀ (s : State) (i x : Nat), i < 31 → ∃ t, Runs (.thermalSample i x) s t ∧ tget 0 t.power.tj i = min 255 x ∧
    tget 0 t.power.tjmax i = max (min 255 x) (tget 0 s.power.tjmax i) ∧
    ((s.power.thrOf i).2.2 ≤ x → tget 0 s.power.tj i < (s.power.thrOf i).2.2 → t.power.trip = true ∧ t.power.next = none ∧
      (∀ k ∈ gateKeys, (t.power.gate k).eff = 0) ∧ t.train.errSince = true) ∧
    (x < (s.power.thrOf i).2.2 → t.power.trip = s.power.trip ∧ t.power.gates = s.power.gates)) ∧
  (∀ (s : State) (i : Nat), i < 31 → (s.power.thrOf i).2.1 ≤ tget 0 s.power.tj i →
    Runs (.throttleStepDown i) s ((s.updPower fun p =>
      { p with thm := tput p.thm i (if p.minl < tget 64 p.thm i then max p.minl (tget 64 p.thm i - 8) else tget 64 p.thm i) }).settleGates)) ∧
  (∀ (s : State) (i : Nat), i < 31 → tget 0 s.power.tj i + 3 ≤ (s.power.thrOf i).2.1 →
    Runs (.throttleStepUp i) s ((s.updPower fun p => { p with thm := tput p.thm i (min 64 (tget 64 p.thm i + 1)) }).settleGates)) ∧
  (∀ (s : State) (k : Nat), k ∈ gateKeys → s.power.mode ≠ 0 → ∃ g, g = s.settleGates.power.gate k ∧ g.thm = s.power.thmOf k ∧ g.eff ≤ g.thm ∧
    g.eff ≤ (s.power.gate k).pwr ∧ (s.power.coolStop = true ∨ s.power.trip = true ∨ s.flt.fatal = true → g.eff = 0)) ∧
  (∀ s : State, s.power.coolOk = true → ∃ t, t = (s.updPower fun p => { p with coolOk := false, exitOk := false }) ∧
    Runs .coolantOkFall s (if s.mod.rails then t else t.updMod fun m => { m with coolWait := true })) ∧
  (∀ s : State, s.power.coolOk = false → Runs .coolantOkRise s (s.updPower fun p =>
    { p with coolOk := true, glitch := if s.mod.rails && !p.coolStop then satAdd 8 p.glitch 1 else p.glitch })) ∧
  (∀ (s : State) (us : Nat), s.power.coolOk = false → 100 ≤ us → s.mod.rails = true → s.power.coolStop = false → s.power.trip = false →
    ∃ u, u = ((((s.updPower fun p => { p with coolStop := true, alert := true, next := none }).postDev 0x0006 0#32 0#32 0#32).settleGates.stopCores.fenceAll
        false).parkAll).report (rep 2 9 0 3 0x50 0) ∧ Runs (.coolantStop us) s (u.railsOff true)) ∧
  (∀ (s : State) (sec : Nat), s.power.coolOk = true → 5 ≤ sec → (∀ i < 31, tget 0 s.power.tj i < 60) →
    Runs (.coolantExitReady sec) s (s.updPower fun p => { p with exitOk := true }))

/-- The leader ranks reports and sends DECs, then INCs; members apply them and answer. (1) The leader keeps a member's
report. (2) After 5 ms, or once every member has reported, it ranks: the DECs of the new shares are sent, its own
share acts at once, and the INCs wait. (3) A member applies a DEC not above its share, and (4) an INC not below it,
and answers ACK with the share applied. (5) An ACK that frees a DEC's watts removes it, and after the last the INCs
go that acknowledged watts pay for; (6) so they do after 10 ms. The leader is the lowest slot of the job in the rack
(assumption 31, the model's reading). -/
def Obligations.RackSharesMove : Prop :=
  (∀ (s : State) (slot v sl a sh ce : Nat), s.power.balEn = true → s.power.leader = true → s.rackSlots.contains slot = true →
    (s.power.ranked = false ∨ s.power.repVseq ≠ v) →
    Runs (.balanceReportReceive slot v sl a sh ce) s (s.updPower fun p => p.addReport v { slot := slot, slack := sl, avg := a, share := sh, ceil_ := ce })) ∧
  (∀ (s : State) (us : Nat), s.power.balEn = true → s.power.leader = true → s.power.ranked = false → s.power.reps ≠ [] →
    (5000 ≤ us ∨ s.power.reps.length = s.power.members) → Runs (.balanceWaitExpiry us) s s.rank) ∧
  (∀ (s : State) (v sh : Nat), s.power.balEn = true → sh ≤ s.power.balShare →
    ∃ t, t = (s.updPower fun p => { p with balShare := sh }).limitChanged s.power.effLim ∧ t.power.balShare = sh ∧
      Runs (.balanceDec v sh) s (t.sendBalance t.leaderSlot 4 v 0 0 sh)) ∧
  (∀ (s : State) (v sh : Nat), s.power.balEn = true → s.power.balShare ≤ sh →
    ∃ t, t = (s.updPower fun p => { p with balShare := sh }).limitChanged s.power.effLim ∧ t.power.balShare = sh ∧
      Runs (.balanceInc v sh) s (t.sendBalance t.leaderSlot 4 v 0 0 sh)) ∧
  (∀ (s : State) (slot v sh w : Nat) (r : BalRep), s.power.balEn = true → s.power.leader = true → s.power.repVseq = v →
    s.power.decs.find? (fun d => d.1 == slot) = some (slot, w) → r ∈ s.power.reps → r.slot = slot → sh + w ≤ r.share →
    Runs (.balanceAck slot v sh) s ((s.updPower fun p => { p with decs := p.decs.erase (slot, w), freed := p.freed + w }).sendIncsIfFree)) ∧
  (∀ (s : State) (us : Nat), s.power.balEn = true → s.power.leader = true → 10000 ≤ us → Runs (.balanceAckTimeout us) s s.sendIncs)

/-- What the members with the smallest slack take is what those with the largest give; no giver falls below BAL_MIN and
no taker rises above its ceiling. For any reports, BAL_STEP, BAL_MIN and turn: the watts taken are the watts given,
so that the shares' sum stays as it was; a quarter of the reporters give, a quarter takes, and no report is in both;
a giver gives at most BAL_STEP and keeps at least BAL_MIN; a taker stays within its TRAY_CEIL; no giver has less
slack than a taker. -/
def Obligations.BalancingConservesWatts : Prop :=
  ∀ (l : List BalRep) (step least turn : Nat),
    ((newShares l step least turn).1.map (·.2)).sum = ((newShares l step least turn).2.map (·.2)).sum ∧
    (newShares l step least turn).1.length = l.length / 4 ∧ (newShares l step least turn).2.length = l.length / 4 ∧
    ((newShares l step least turn).1.map (·.1) ++ (newShares l step least turn).2.map (·.1)).Subperm l ∧
    (∀ g ∈ (newShares l step least turn).1, g.2 ≤ step ∧ min g.1.share least ≤ g.1.share - g.2) ∧
    (∀ t ∈ (newShares l step least turn).2, t.1.share + t.2 ≤ max t.1.ceil_ t.1.share) ∧
    (∀ g ∈ (newShares l step least turn).1, ∀ t ∈ (newShares l step least turn).2, t.1.slack ≤ g.1.slack)

/-- The collector, reactions, coalescing holds, the fatal capture, the ledger and the watchdogs. (1) COLLECTOR_TAKE
takes a FATAL report before all else: FATAL, FAULT_N, the power-cycle request, every gate at 0, the event posted,
LIDs fenced, rings parked. (2) It leaves an ACTIVE report alone, (3) takes a CONTAINED report next and starts its
reaction, (4) a CORRECTED one last: posted, its key held for 1 s. (5) A contained reaction ends once its cores'
operations have: the cores are retired and the event is posted. (6) After 1 s a key's held reports are posted
together, and an empty hold ends. (7) The fatal capture and its ledger entry are written, then the shutdown's steps
3 to 5 run. (8) A waiting ledger entry is written with the next number. (9) Each day 31 entries wait and a new day
begins. (10) The control complex's watchdog is fatal; another resets the device. -/
def Obligations.FaultReportsAreHandled : Prop :=
  (∀ (s : State) (r : Report) (l : List Report), s.flt.fatal = false → s.flt.pendFatal = r :: l → ∃ u : State, u.flt.fatal = true ∧ u.flt.faultN = true ∧
    u.flt.pwrCyc = true ∧ u.flt.active = some r ∧ u.power.next = none ∧ (∀ k ∈ gateKeys, (u.power.gate k).eff = 0) ∧
    u = { s with flt := u.flt, power := u.power } ∧ Runs .collectorTake s (((u.postFault r).fenceAll false).parkAll)) ∧
  (∀ s : State, s.flt.fatal = true ∨ (s.flt.pendFatal = [] ∧ s.flt.active ≠ none) → Runs .collectorTake s s) ∧
  (∀ (s : State) (r : Report) (l : List Report), s.flt.fatal = false → s.flt.pendFatal = [] → s.flt.active = none → s.flt.pendCont = r :: l →
    Runs .collectorTake s ((s.updFlt fun f => { f with active := some r, pendCont := l }).react r)) ∧
  (∀ (s : State) (r : Report) (l : List Report), s.flt.fatal = false → s.flt.pendFatal = [] → s.flt.active = none → s.flt.pendCont = [] →
    s.flt.pendCe = r :: l → Runs .collectorTake s ((s.updFlt fun f =>
      { f with pendCe := l, heldCe := f.heldCe.filter (fun h => (h.1, h.2.1, h.2.2.1) != r.key) ++ [(r.key.1, r.key.2.1, r.key.2.2, none)] }).postFault r)) ∧
  (∀ (s : State) (r : Report), s.flt.active = some r → s.flt.fatal = false → (s.reactCores r).all s.coreDone = true →
    Runs .containedReactionDone s ((((s.reactCores r).foldl (fun (a : State) c => a.finishRetire c r.cause) s).updFlt fun f => { f with active := none }).postFault r)) ∧
  (∀ (s : State) (a b c ms : Nat) (o : Option Report), s.flt.heldCe.find? (fun h => (h.1, h.2.1, h.2.2.1) == (a, b, c)) = some (a, b, c, o) → 1000 ≤ ms →
    s.flt.fatal = false → Runs (.coalesceHoldExpiry a b c ms) s (match o with
      | some r => (s.updFlt fun f => { f with heldCe := f.heldCe.filter (fun h => (h.1, h.2.1, h.2.2.1) != (a, b, c)) ++ [(a, b, c, none)] }).postFault r
      | none => s.updFlt fun f => { f with heldCe := f.heldCe.erase (a, b, c, o) })) ∧
  (∀ (s : State) (r : Report) (w : Bool), s.flt.active = some r → s.flt.fatal = true → s.mod.sdStep < 5 → s.mod.pf = 0 →
    ∃ u, u = (if w then s.writeJrec 2 16 0 0 else s) ∧ Runs (.fatalCaptureWritten w) s
      (((u.writeEntry
          { typ := 9, die := r.die, sub := r.sub, unit := r.unit, time := u.mod.onSec + u.now / 1000000, seq := 0,
            body := natLe r.word.toNat 4 ++ natLe r.info 6 ++ natLe (b2n w) 1 ++ List.replicate 5 0#8 }).updMod fun m =>
        { m with resetAfter := false }).shutStep3.shutEnd)) ∧
  (∀ (s : State) (e : Ledg) (l : List Ledg), s.flt.ledgq = e :: l → s.mod.standby = true → s.mod.pf = 0 → s.flt.ledger.length < ledgerRoom →
    Runs .ledgerEntryWrite s ((s.writeJrec 1 1 0 0).updFlt fun f =>
      { f with ledgq := l, ledger := f.ledger ++ [{ e with seq := f.ledgSeq }], ledgSeq := f.ledgSeq + 1 })) ∧
  (∀ s : State, s.mod.standby = true → ∃ q, q.length = 31 ∧ (∀ e ∈ q, e.typ = 10 ∧ e.body.length = 16 ∧ e.time = s.mod.onSec + s.now / 1000000) ∧
    Runs .dailyLedger s (s.updFlt fun f => { f with ledgq := f.ledgq ++ q, dayTj := [], dayDroop := [] })) ∧
  (∀ s : State, s.mod.standby = true → s.flt.fatal = false → Runs (.hubWatchdog true) s (s.report (rep 3 9 0 3 0x59 0)) ∧
    Runs (.hubWatchdog false) s (if 1 ≤ s.mod.sdStep ∧ s.mod.sdStep < 5 then s.updMod fun m => { m with resetAfter := true } else s.resetRun))

/-- The hot-swap gate trips, retries and latches; start-up runs from the input to READY. (1) 96 A opens the conducting
gate, (2) so do more than 48 A for 6 ms in ON, (3) a ramp not at 90 % in 20 ms, (4) more than 62.0 V for 10 µs. Each
trip is counted, kept by its kind and reported with cause 0x61; the fourth latches the gate with 0x62, and with the
main rails up a trip is an input failure. (5) A second after a trip the gate ramps again; (6) 60 s in ON clear the
count; (7) a latched gate's input below 20 V for 1 s takes the power. (8) At 40.0 V the hub boots from the bank that
passes, else it stays at PHASE 1. (9) A gate without a trip ramps after 100 ms; (10) its ramp brings up bus, store,
NODE_ID and journals: PHASE 2. (11) With 60 J the rails rise, and without a fatal finding start-up goes on to READY:
PHASE 7, step 11, event 0x0001 to the tray. -/
def Obligations.GateTripsAndStartUp : Prop :=
  (∀ (s t : State) (k : Nat), t = s.tripGate k → s.mod.rails = false → t.mod.hs = (if 3 ≤ s.mod.retries then 4 else 0) ∧ t.mod.lastTrip = k ∧
    t.mod.retries = min 3 (s.mod.retries + 1) ∧ t.train.errSince = true) ∧
  (∀ (s : State) (a : Nat), s.gateOn = true → 96 ≤ a → Runs (.hotswapFastTrip a) s (s.tripGate 1)) ∧
  (∀ (s : State) (a ms : Nat), s.powered = true → s.mod.hs = 2 → 48 < a → 6 ≤ ms → Runs (.hotswapSlowTrip a ms) s (s.tripGate 2)) ∧
  (∀ (s : State) (ms pct : Nat), s.powered = true → (s.mod.hs = 1 ∨ s.mod.hs = 3) → 20 ≤ ms → pct < 90 → Runs (.rampTimeout ms pct) s (s.tripGate 2)) ∧
  (∀ (s : State) (v us : Nat), s.gateOn = true → 6200 < v → 10 ≤ us →
    Runs (.overvoltageTrip v us) s ((s.updMod fun m => { m with vin := min 65535 v }).tripGate 3)) ∧
  (∀ (s : State) (ms : Nat), s.powered = true → s.mod.hs = 0 → 0 < s.mod.retries → 1000 ≤ ms → Runs (.tripRetry ms) s (s.updMod fun m => { m with hs := 3 })) ∧
  (∀ (s : State) (sec : Nat), s.powered = true → s.mod.hs = 2 → 60 ≤ sec → Runs (.tripCountClear sec) s (s.updMod fun m => { m with retries := 0 })) ∧
  (∀ (s : State) (v ms : Nat), s.mod.hs = 4 → v < 2000 → 1000 ≤ ms → Runs (.inputCycled v ms) s (s.powerOff 0)) ∧
  (∀ (s : State) (v : Nat) (a b : FwBank), 4000 ≤ v → s.mod.step = 0 → s.mod.hold = 0 → s.mod.pf = 0 → ∃ t, Runs (.startupInputUp v a b) s t ∧
    t.mod.standby = true ∧ t.mod.vin = min 65535 v ∧ t.host.phase = 1 ∧ t.host.ready = s.host.ready ∧ t.mod.svnFuse = max s.mod.svnFuse (Config.svnFuse % 64) ∧
    (∀ i, ({ s.mod with svnFuse := t.mod.svnFuse } : Module).bootBank a b = some i → t.mod.step = 3 ∧ t.mod.bank = i ∧ t.mod.sel = i ∧
      t.mod.svn = (if i = 0 then a else b).svn ∧ t.mod.fwver = (if i = 0 then a else b).fwver) ∧
    (({ s.mod with svnFuse := t.mod.svnFuse } : Module).bootBank a b = none → t.mod.step = 2)) ∧
  (∀ (s : State) (ms n : Nat) (f : ScanFind) (v c : Nat), 100 ≤ ms → s.mod.standby = true → 3 ≤ s.mod.step → s.mod.pf = 0 → s.mod.hs = 0 → s.mod.retries = 0 →
    Runs (.startupGateRamp ms n f v c) s (s.updMod fun m => { m with hs := 1, step := max 4 m.step })) ∧
  (∀ (s : State) (ms n : Nat) (f : ScanFind) (v c : Nat), 100 ≤ ms → s.mod.standby = true → 3 ≤ s.mod.step → s.mod.step ≤ 4 → s.mod.pf = 0 →
    (s.mod.hs = 1 ∨ s.mod.hs = 2 ∨ s.mod.hs = 3) → ∃ t, Runs (.startupGateRamp ms n f v c) s t ∧ t.mod.hs = 2 ∧ t.mod.step = 5 ∧ t.host.phase = 2 ∧
      t.fab.phys = n % 65536 ∧ t.mod.nodebad = !nodeExists (n % 65536) ∧ (v ≤ 1200 → t.mod.cap = min 255 c) ∧ t.mod.euse = storeEnergy t.mod.cap v) ∧
  (∀ (s : State) (f : StartFind), s.mayRise = true → ∃ u t, u = (s.startRails f).startFloor f ∧ Runs (.startupMainRails f) s t ∧ t.mod.rails = true ∧
    (u.flt.pendFatal ≠ [] → t = u ∧ t.host.ready = s.host.ready) ∧
    (u.flt.pendFatal = [] → t.host.ready = true ∧ t.host.phase = 7 ∧ t.mod.step = 11 ∧ (8191, recEvent 1 0#32 0#32 0#32) ∈ t.host.recs))

/-- Input failures, the flush, the supervisor's hold, the hold-up store and sector erases. (1) An input failure latches
cause 0x60, sets HOLDING and every gate to 0, stops the cores, takes the rails down and plans the flush; (2) during
a hold it only ends the hold. (3) A flush unit with energy for it and a marker is written, after the last one the
rails go off with result 1; (4) one without gives TRUNC and result 2, (5) the first below the marker's energy
nothing and result 3. (6) 40.0 V for 100 ms give the bus back. (7) The supervisor's hold ends after its time and
start-up follows. (8) In service and (9) while charging the store's state follows its measure: WORN below 1.10 F.
(10) A store below 60 J after 10 s sets BELOW_MIN with cause 0x64. (11) A sector erase counts for its journal, and a
failed one reports 0x6A; (12) none runs while the store holds the bus. -/
def Obligations.PowerFailureRunsItsTable : Prop :=
  (∀ (s : State) (k v us : Nat), s.mod.hold = 0 → s.powered = true → s.inputBad k v us = true → ∃ t, Runs (.inputFailure k v us) s t ∧
    t.mod.ss = 2 ∧ t.mod.pf = 3 ∧ t.mod.rails = false ∧ t.mod.vin = min 65535 v ∧ t.mod.flDone = 0 ∧ t.mod.flPlan = t.mod.units.length ∧
    t.mod.units.head? = some (3, 1) ∧ t.floor.ram = Ram.empty ∧ t.hbm.ram = Ram.empty ∧ (∀ k ∈ gateKeys, (t.power.gate k).eff = 0) ∧ t.train.errSince = true) ∧
  (∀ (s : State) (v us : Nat), 0 < s.mod.hold → v < 3800 → 20 ≤ us →
    Runs (.inputFailure 0 v us) s (s.updMod fun m => { m with vin := min 65535 v, hold := 0 })) ∧
  (∀ (s : State) (v k n : Nat) (l : List (Nat × Nat)), s.mod.units = (k, n) :: l → s.mod.pf = 3 →
    (unitCost n + eTrunc ≤ storeE4 s.mod.cap v → ∃ t, t = ((s.writeUnit k).updMod fun m => { m with units := l, flDone := m.flDone + 1 }) ∧
      Runs (.flushUnit v) s (if l.isEmpty then t.flushEnd 1 else t)) ∧
    (storeE4 s.mod.cap v < unitCost n + eTrunc → (eTrunc ≤ storeE4 s.mod.cap v ∨ s.mod.flDone ≠ 0) →
      Runs (.flushUnit v) s ((s.writeJrec 5 0 s.mod.flDone s.mod.flPlan).flushEnd 2)) ∧
    (storeE4 s.mod.cap v < eTrunc → s.mod.flDone = 0 → Runs (.flushUnit v) s (s.flushEnd 3))) ∧
  (∀ (s : State) (v ms : Nat), s.mod.ss = 2 → 4000 ≤ v → 100 ≤ ms → Runs (.inputReturn v ms) s (s.updMod fun m => { m with vin := min 65535 v, ss := 0 })) ∧
  (∀ (s : State) (v ms : Nat), (s.mod.hold = 1 ∧ 100 ≤ ms ∧ 4000 ≤ v ∨ s.mod.hold = 2 ∧ 1000 ≤ ms) →
    Runs (.supervisorHoldEnd v ms) s (s.updMod fun m => { m with hold := 0, standby := true, vin := min 65535 v })) ∧
  (∀ (s : State) (c v : Nat), s.powered = true → s.mod.step = 11 → ∃ t, Runs (.storeMeasure c v) s t ∧ t.mod.cap = min 255 c ∧
    t.mod.ss = (if c < 110 then 3 else 0) ∧ t.mod.euse = storeEnergy (min 255 c) v) ∧
  (∀ (s : State) (v : Nat), s.powered = true → 5 ≤ s.mod.step → 1600 ≤ v →
    Runs (.storeCharged v) s (s.updMod fun m => { m with ss := if m.cap < 110 then 3 else 1, euse := storeEnergy m.cap v })) ∧
  (∀ (s : State) (e sec : Nat), s.powered = true → s.mod.step = 5 → e < 600 → 10 ≤ sec →
    Runs (.storeBelowMin e sec) s ((s.updMod fun m => { m with ss := 4, euse := e }).report (rep 2 9 0 9 0x64 e))) ∧
  (∀ (s : State) (n j : Nat), sectorJournal n = some j → s.powered = true →
    (s.mod.ss ≠ 2 → Runs (.sectorErase n false) s (s.updMod fun m => { m with erased := m.erased.mapIdx fun i x => if i = j then x + 1 else x }) ∧
      Runs (.sectorErase n true) s (s.report (rep 2 9 0 9 0x6A (65536 * n)))) ∧
    (s.mod.ss = 2 → ∀ f, Runs (.sectorErase n f) s s))

/-- Any planned flush costs at most 45.4 J, so a store at 60 J writes every unit of it. (1) The flush that an input
failure plans has 1 to 48 units, POWERFAIL first, and none has more than 16 data pages. (2) Its units and the marker
together cost at most 45.4 J and 250 mJ. (3) A store of 60 J at the measured capacitance stands above that with 3.7
J spent on steps 2 and 3. (4) Before the main rails rise the plan is the POWERFAIL record alone. (5) After an
orderly shutdown's step 5 it holds neither counters nor a capture. (6) A flush unit that finds energy for the rest
of the plan and the marker is written, and the plan goes on with the rest. -/
def Obligations.FlushFitsTheStore : Prop :=
  (∀ s : State, s.flushPlan.length ≤ 48 ∧ s.flushPlan.head? = some (3, 1) ∧ (∀ u ∈ s.flushPlan, u.2 ≤ 16) ∧
    (s.flushPlan.map fun u => unitCost u.2).sum ≤ 454000000 ∧
    (s.mod.rails = false → s.mod.step < 7 → s.flushPlan = [(3, 1)]) ∧ (s.mod.sdStep = 5 → ∀ u ∈ s.flushPlan, u.1 ≠ 4 ∧ u.1 ≠ 2)) ∧
  (∀ c v : Nat, c ≤ 255 → 600 ≤ storeEnergy c v → 454000000 + eTrunc + 37000000 ≤ storeE4 c v) ∧
  (∀ (s : State) (v : Nat) (u : Nat × Nat) (l : List (Nat × Nat)), s.mod.units = u :: l → l ≠ [] → s.mod.pf = 3 →
    ((u :: l).map fun x => unitCost x.2).sum + eTrunc ≤ storeE4 s.mod.cap v → ∃ t, Runs (.flushUnit v) s t ∧ t.mod.units = l ∧ t.mod.flDone = s.mod.flDone + 1)

/-- Quiesce, button and latch ask for shutdowns, which proceed in steps; short presses and the latch are reported. (1)
QUIESCE_REQ_N low for 1 ms is accepted as the tray's shutdown, with JOB_HOLD, (2) and takes over a button's wait.
(3) A press of 5 s asks for the button's shutdown, (4) before step 3 cancels it, (5) and a press below 5 s only
counts. (6) A press below 2 s toggles LOCATE with INFO 1. (7) An opened latch is reported with INFO 2, and after 2 s
its shutdown is accepted; (8) closing reports INFO 3. (9) Step 3 follows the end of the cause's wait: gates 0, cores
stopped, LIDs fenced; (10) steps 4 and 5 once no LID drains: rings parked, the journal written, rails off,
SAFE_TO_REMOVE (the rings park with step 4: log entry 199). (11) The tray's wait ends after 10 s. (12) A level below
1 ms asks for nothing. (13) The tray's wait ends once no step runs, the button's once neither a step nor a rebuild
does, and the latch waits for nothing. -/
def Obligations.ShutdownsAndPanelEvents : Prop :=
  (∀ (s : State) (us : Nat), s.shutOpen = true → 1000 ≤ us → Runs (.quiesceRequest us) s (((s.updMod fun m =>
    { m with quiesce := true, sdCause := 1, sdStep := 1, shut := true }).report (rep 1 9 0 9 0x69 4)).holdJob)) ∧
  (∀ (s : State) (us : Nat), s.mod.sdStep = 1 → s.mod.sdCause = 2 → 1000 ≤ us →
    Runs (.quiesceRequest us) s ((s.updMod fun m => { m with quiesce := true, sdCause := 1 }).holdJob)) ∧
  (∀ (s : State) (ms : Nat), s.shutOpen = true → 5000 ≤ ms → Runs (.buttonLongPress ms) s ((s.updMod fun m =>
    { m with btn := satAdd 8 m.btn 1, sdCause := 2, sdStep := 1, shut := true }).report (rep 1 9 0 9 0x69 4))) ∧
  (∀ (s : State) (ms : Nat), s.powered = true → s.mod.sdStep = 1 → s.mod.sdCause = 2 → 5000 ≤ ms →
    Runs (.buttonLongPress ms) s (s.updMod fun m => { m with btn := satAdd 8 m.btn 1, sdCause := 0, sdStep := 0, shut := false })) ∧
  (∀ (s : State) (ms : Nat), s.powered = true → 2000 ≤ ms → ms < 5000 → Runs (.buttonLongPress ms) s (s.updMod fun m => { m with btn := satAdd 8 m.btn 1 })) ∧
  (∀ (s : State) (ms : Nat), s.powered = true → ms < 2000 → Runs (.buttonShortPress ms) s
    ((s.updMod fun m => { m with btn := satAdd 8 m.btn 1, locate := !m.locate }).report (rep 1 9 0 9 0x69 1))) ∧
  (∀ (s : State) (ms : Nat), s.mod.latch = false → s.powered = true → ∃ t, t = (s.updMod fun m => { m with latch := true }).report (rep 1 9 0 9 0x69 2) ∧
    (ms < 2000 → Runs (.latchOpen ms) s t) ∧ (2000 ≤ ms → t.shutOpen = true → Runs (.latchOpen ms) s
      ((t.updMod fun m => { m with sdCause := 3, sdStep := 1, shut := true }).report (rep 1 9 0 9 0x69 4)))) ∧
  (∀ s : State, s.mod.latch = true → s.powered = true → Runs .latchClose s ((s.updMod fun m => { m with latch := false }).report (rep 1 9 0 9 0x69 3))) ∧
  (∀ s : State, s.mod.sdStep = 1 → s.powered = true → s.waitOver = true →
    Runs .shutdownProceed s ((s.updMod fun m => { m with sdStep := 3 }).settleGates.stopCores.fenceAll true)) ∧
  (∀ s : State, s.mod.sdStep = 3 → s.powered = true → s.drained = true → s.mod.resetAfter = false → ∃ t, Runs .shutdownProceed s t ∧
    t = ((s.parkAll.flushLedger.flushCounters.railsOff false).updMod fun m => { m with sdStep := 5, safe := true, shut := true })) ∧
  (∀ (s : State) (ms : Nat), s.powered = true → s.mod.sdStep = 1 → s.mod.sdCause = 1 → 10000 ≤ ms → Runs (.shutdownWaitTimeout ms) s s.shutStep3) ∧
  (∀ (s : State) (us : Nat), us < 1000 → Runs (.quiesceRequest us) s (s.updMod fun m => { m with quiesce := decide (0 < us) })) ∧
  (∀ s : State, s.waitOver = (match s.mod.sdCause with
    | 1 => s.train.js != .run
    | 2 => s.train.js != .run && s.train.js != .rebuild
    | _ => true))

/-- State.reset and every device reset leave each block at the values that the spec gives. In State.reset, and in the
state that any device reset leaves: (1) every core is IDLE with bundles of 0 and an empty extent. (2) Scratchpad and
device memory hold nothing, no region is valid, RATE and DEPTH are those of Table 6-2 with full buckets. (3) Every
LID is DOWN, the tables are empty as epoch 0, the partition is 0, VC weights are those of Table 7-7. (4) Set 0 of
the pass sets is valid and active and no other is. (5) Every counter is 0, engines idle, tree plan entries invalid,
no vote. (6) JSTATE IDLE, WSTATE NONE, STEP, VSEQ, SLOT, E, CLEAN, HEAD and TAIL 0, no stage table, no sealed
checkpoint. (7) No replay, mismatch or divergence. (8) READY 0, admin queues off. (9) Limits 1,600 W, no balancing,
PRIO LINK, MEMORY, COMPUTE, MINL 8, gates at 64, no learned demand. (10) Latches and pending lists clear, windows at
their defaults with no counts. -/
def Obligations.ResetLeavesTheGivenValues : Prop :=
  ∀ s t : State, (t = State.reset ∨ t = s.resetRun) →
    (∀ c, (t.core c).st = .idle ∧ (t.core c).extent = 0 ∧ (t.core c).imem = [] ∧ (t.core c).pc = 0) ∧
    (t.floor.ram = Ram.empty ∧ t.hbm.ram = Ram.empty ∧ t.hbm.rgns = [] ∧ (t.grp 0).rate = 0 ∧ (t.grp 0).depth = 64 ∧ (t.grp 1).rate = 6000 ∧
      (t.grp 3).rate = 130 ∧ (t.grp 3).depth = 256 ∧ (t.grp 5).rate = 1000 ∧ (t.grp 6).rate = 20 ∧ (t.grp 15).rate = 0 ∧
      ∀ g < 16, (t.grp g).level = (t.grp g).depth * 1024 * 5) ∧
    ((∀ l, (t.lid l).st = .down ∧ (t.lid l).vcw = vcwReset ∧ (t.lid l).crcErr = 0) ∧ t.fab.curEp = 0 ∧ t.fab.cur = TabSet.empty ∧ t.fab.stby = [] ∧
      t.fab.part = 0) ∧
    (t.light.valid = 1#8 ∧ t.light.actSet = 0 ∧ t.light.swPend = false) ∧
    ((∀ n, t.ctr n = 0#48) ∧ (∀ e, t.eng e = Eng.init) ∧ (∀ a b, (t.tree a b).valid = false) ∧ t.coll.vVseq = 0#32 ∧ t.coll.vValid = false) ∧
    (t.train.js = .idle ∧ t.train.ws = .none_ ∧ t.train.step = 0#64 ∧ t.train.vseq = 0#32 ∧ t.train.slot = 0 ∧ t.train.e = 0 ∧ t.train.clean = 0 ∧
      t.train.tab = none ∧ t.train.head = 0 ∧ t.train.tail = 0 ∧ t.train.sealStep = 0#64 ∧ t.train.ckpt = none) ∧
    (t.det.replay = false ∧ t.det.mismatch = false ∧ t.det.diverge = false ∧ t.det.recs = 0 ∧ t.det.expPend = 0) ∧
    (t.host.ready = false ∧ t.host.aqEn = false ∧ t.host.sqb = 0#64 ∧ t.host.cqb = 0#64 ∧ t.host.b4base = 0 ∧ t.host.ties = 0) ∧
    (t.power.trayCeil = 1600 ∧ t.power.hostLim = 1600 ∧ t.power.effLim = 1600 ∧ t.power.balEn = false ∧ t.power.order = [2, 1, 0] ∧ t.power.minl = 8 ∧
      (∀ k, t.power.gate k = Gate.full) ∧ t.power.demand = [] ∧ t.power.silOfs = 0 ∧ t.power.memOfs = 0 ∧ t.power.optOfs = 0) ∧
    (t.flt.active = none ∧ t.flt.pendCont = [] ∧ t.flt.pendCe = [] ∧ t.flt.pendFatal = [] ∧ t.flt.tie = 0 ∧ t.flt.first = Latch.empty ∧ t.flt.dies = [] ∧
      t.flt.cnts = [] ∧ t.win 0 = (8, 1000) ∧ t.win 6 = (16, 3600000) ∧ t.win 10 = (10000, 1000))
end

