-- ==== Sys2Proof/Laws/State.lean ====
section
/-! SUPPORT. What each updater of a part of the state leaves in each field of the state, and what the tables and
register files read after a write. -/

namespace Sys2Proof.Machine

/-! ## Tables -/

/-- A key just written reads the value written. -/
@[simp] theorem tget_tput_same {α : Type} (d : α) (t : Tab α) (k : Nat) (v : α) : tget d (tput t k v) k = v := by
  induction t with
  | nil => simp [tput, tget]
  | cons e t ih =>
    obtain ⟨j, w⟩ := e
    simp only [tput]
    split
    · simp [tget]
    · split
      · simp [tget]
      · rename_i h _
        simp only [tget, if_neg (fun h' : j = k => h h'.symm)]
        exact ih

/-- A write leaves every other key as it was. -/
theorem tget_tput_ne {α : Type} (d : α) (t : Tab α) {k j : Nat} (v : α) (h : j ≠ k) :
    tget d (tput t k v) j = tget d t j := by
  induction t with
  | nil => simp [tput, tget, Ne.symm h]
  | cons e t ih =>
    obtain ⟨i, w⟩ := e
    simp only [tput]
    split
    · rename_i hk; subst hk; simp [tget, Ne.symm h]
    · split
      · simp [tget, Ne.symm h]
      · simp only [tget]; rw [ih]

/-- A read after a write, at any key. -/
theorem tget_tput {α : Type} (d : α) (t : Tab α) (k j : Nat) (v : α) :
    tget d (tput t k v) j = if j = k then v else tget d t j := by
  split
  · rename_i h; subst h; simp
  · rename_i h; exact tget_tput_ne d t v h

@[simp] theorem tget_tupd_same {α : Type} (d : α) (t : Tab α) (k : Nat) (f : α → α) :
    tget d (tupd d t k f) k = f (tget d t k) := by simp [tupd]

theorem tget_tupd {α : Type} (d : α) (t : Tab α) (k j : Nat) (f : α → α) :
    tget d (tupd d t k f) j = if j = k then f (tget d t k) else tget d t j := by simp [tupd, tget_tput]

/-! ## Parts of the state -/

@[simp] theorem State.updFloor_pending (s : State) (f : Floor → Floor) : (s.updFloor f).pending = s.pending := rfl
@[simp] theorem State.updFloor_now (s : State) (f : Floor → Floor) : (s.updFloor f).now = s.now := rfl
@[simp] theorem State.updFloor_free (s : State) (f : Floor → Floor) : (s.updFloor f).free = s.free := rfl
@[simp] theorem State.updFloor_outs (s : State) (f : Floor → Floor) : (s.updFloor f).outs = s.outs := rfl
@[simp] theorem State.updFloor_cores (s : State) (f : Floor → Floor) : (s.updFloor f).cores = s.cores := rfl
@[simp] theorem State.updFloor_floor (s : State) (f : Floor → Floor) : (s.updFloor f).floor = f s.floor := rfl
@[simp] theorem State.updFloor_hbm (s : State) (f : Floor → Floor) : (s.updFloor f).hbm = s.hbm := rfl
@[simp] theorem State.updFloor_fab (s : State) (f : Floor → Floor) : (s.updFloor f).fab = s.fab := rfl
@[simp] theorem State.updFloor_light (s : State) (f : Floor → Floor) : (s.updFloor f).light = s.light := rfl
@[simp] theorem State.updFloor_coll (s : State) (f : Floor → Floor) : (s.updFloor f).coll = s.coll := rfl
@[simp] theorem State.updFloor_train (s : State) (f : Floor → Floor) : (s.updFloor f).train = s.train := rfl
@[simp] theorem State.updFloor_det (s : State) (f : Floor → Floor) : (s.updFloor f).det = s.det := rfl
@[simp] theorem State.updFloor_host (s : State) (f : Floor → Floor) : (s.updFloor f).host = s.host := rfl
@[simp] theorem State.updFloor_power (s : State) (f : Floor → Floor) : (s.updFloor f).power = s.power := rfl
@[simp] theorem State.updFloor_flt (s : State) (f : Floor → Floor) : (s.updFloor f).flt = s.flt := rfl
@[simp] theorem State.updFloor_mod (s : State) (f : Floor → Floor) : (s.updFloor f).mod = s.mod := rfl

@[simp] theorem State.updHbm_pending (s : State) (f : Hbm → Hbm) : (s.updHbm f).pending = s.pending := rfl
@[simp] theorem State.updHbm_now (s : State) (f : Hbm → Hbm) : (s.updHbm f).now = s.now := rfl
@[simp] theorem State.updHbm_free (s : State) (f : Hbm → Hbm) : (s.updHbm f).free = s.free := rfl
@[simp] theorem State.updHbm_outs (s : State) (f : Hbm → Hbm) : (s.updHbm f).outs = s.outs := rfl
@[simp] theorem State.updHbm_cores (s : State) (f : Hbm → Hbm) : (s.updHbm f).cores = s.cores := rfl
@[simp] theorem State.updHbm_floor (s : State) (f : Hbm → Hbm) : (s.updHbm f).floor = s.floor := rfl
@[simp] theorem State.updHbm_hbm (s : State) (f : Hbm → Hbm) : (s.updHbm f).hbm = f s.hbm := rfl
@[simp] theorem State.updHbm_fab (s : State) (f : Hbm → Hbm) : (s.updHbm f).fab = s.fab := rfl
@[simp] theorem State.updHbm_light (s : State) (f : Hbm → Hbm) : (s.updHbm f).light = s.light := rfl
@[simp] theorem State.updHbm_coll (s : State) (f : Hbm → Hbm) : (s.updHbm f).coll = s.coll := rfl
@[simp] theorem State.updHbm_train (s : State) (f : Hbm → Hbm) : (s.updHbm f).train = s.train := rfl
@[simp] theorem State.updHbm_det (s : State) (f : Hbm → Hbm) : (s.updHbm f).det = s.det := rfl
@[simp] theorem State.updHbm_host (s : State) (f : Hbm → Hbm) : (s.updHbm f).host = s.host := rfl
@[simp] theorem State.updHbm_power (s : State) (f : Hbm → Hbm) : (s.updHbm f).power = s.power := rfl
@[simp] theorem State.updHbm_flt (s : State) (f : Hbm → Hbm) : (s.updHbm f).flt = s.flt := rfl
@[simp] theorem State.updHbm_mod (s : State) (f : Hbm → Hbm) : (s.updHbm f).mod = s.mod := rfl

@[simp] theorem State.updFab_pending (s : State) (f : Fab → Fab) : (s.updFab f).pending = s.pending := rfl
@[simp] theorem State.updFab_now (s : State) (f : Fab → Fab) : (s.updFab f).now = s.now := rfl
@[simp] theorem State.updFab_free (s : State) (f : Fab → Fab) : (s.updFab f).free = s.free := rfl
@[simp] theorem State.updFab_outs (s : State) (f : Fab → Fab) : (s.updFab f).outs = s.outs := rfl
@[simp] theorem State.updFab_cores (s : State) (f : Fab → Fab) : (s.updFab f).cores = s.cores := rfl
@[simp] theorem State.updFab_floor (s : State) (f : Fab → Fab) : (s.updFab f).floor = s.floor := rfl
@[simp] theorem State.updFab_hbm (s : State) (f : Fab → Fab) : (s.updFab f).hbm = s.hbm := rfl
@[simp] theorem State.updFab_fab (s : State) (f : Fab → Fab) : (s.updFab f).fab = f s.fab := rfl
@[simp] theorem State.updFab_light (s : State) (f : Fab → Fab) : (s.updFab f).light = s.light := rfl
@[simp] theorem State.updFab_coll (s : State) (f : Fab → Fab) : (s.updFab f).coll = s.coll := rfl
@[simp] theorem State.updFab_train (s : State) (f : Fab → Fab) : (s.updFab f).train = s.train := rfl
@[simp] theorem State.updFab_det (s : State) (f : Fab → Fab) : (s.updFab f).det = s.det := rfl
@[simp] theorem State.updFab_host (s : State) (f : Fab → Fab) : (s.updFab f).host = s.host := rfl
@[simp] theorem State.updFab_power (s : State) (f : Fab → Fab) : (s.updFab f).power = s.power := rfl
@[simp] theorem State.updFab_flt (s : State) (f : Fab → Fab) : (s.updFab f).flt = s.flt := rfl
@[simp] theorem State.updFab_mod (s : State) (f : Fab → Fab) : (s.updFab f).mod = s.mod := rfl

@[simp] theorem State.updLight_pending (s : State) (f : Light → Light) : (s.updLight f).pending = s.pending := rfl
@[simp] theorem State.updLight_now (s : State) (f : Light → Light) : (s.updLight f).now = s.now := rfl
@[simp] theorem State.updLight_free (s : State) (f : Light → Light) : (s.updLight f).free = s.free := rfl
@[simp] theorem State.updLight_outs (s : State) (f : Light → Light) : (s.updLight f).outs = s.outs := rfl
@[simp] theorem State.updLight_cores (s : State) (f : Light → Light) : (s.updLight f).cores = s.cores := rfl
@[simp] theorem State.updLight_floor (s : State) (f : Light → Light) : (s.updLight f).floor = s.floor := rfl
@[simp] theorem State.updLight_hbm (s : State) (f : Light → Light) : (s.updLight f).hbm = s.hbm := rfl
@[simp] theorem State.updLight_fab (s : State) (f : Light → Light) : (s.updLight f).fab = s.fab := rfl
@[simp] theorem State.updLight_light (s : State) (f : Light → Light) : (s.updLight f).light = f s.light := rfl
@[simp] theorem State.updLight_coll (s : State) (f : Light → Light) : (s.updLight f).coll = s.coll := rfl
@[simp] theorem State.updLight_train (s : State) (f : Light → Light) : (s.updLight f).train = s.train := rfl
@[simp] theorem State.updLight_det (s : State) (f : Light → Light) : (s.updLight f).det = s.det := rfl
@[simp] theorem State.updLight_host (s : State) (f : Light → Light) : (s.updLight f).host = s.host := rfl
@[simp] theorem State.updLight_power (s : State) (f : Light → Light) : (s.updLight f).power = s.power := rfl
@[simp] theorem State.updLight_flt (s : State) (f : Light → Light) : (s.updLight f).flt = s.flt := rfl
@[simp] theorem State.updLight_mod (s : State) (f : Light → Light) : (s.updLight f).mod = s.mod := rfl

@[simp] theorem State.updColl_pending (s : State) (f : Coll → Coll) : (s.updColl f).pending = s.pending := rfl
@[simp] theorem State.updColl_now (s : State) (f : Coll → Coll) : (s.updColl f).now = s.now := rfl
@[simp] theorem State.updColl_free (s : State) (f : Coll → Coll) : (s.updColl f).free = s.free := rfl
@[simp] theorem State.updColl_outs (s : State) (f : Coll → Coll) : (s.updColl f).outs = s.outs := rfl
@[simp] theorem State.updColl_cores (s : State) (f : Coll → Coll) : (s.updColl f).cores = s.cores := rfl
@[simp] theorem State.updColl_floor (s : State) (f : Coll → Coll) : (s.updColl f).floor = s.floor := rfl
@[simp] theorem State.updColl_hbm (s : State) (f : Coll → Coll) : (s.updColl f).hbm = s.hbm := rfl
@[simp] theorem State.updColl_fab (s : State) (f : Coll → Coll) : (s.updColl f).fab = s.fab := rfl
@[simp] theorem State.updColl_light (s : State) (f : Coll → Coll) : (s.updColl f).light = s.light := rfl
@[simp] theorem State.updColl_coll (s : State) (f : Coll → Coll) : (s.updColl f).coll = f s.coll := rfl
@[simp] theorem State.updColl_train (s : State) (f : Coll → Coll) : (s.updColl f).train = s.train := rfl
@[simp] theorem State.updColl_det (s : State) (f : Coll → Coll) : (s.updColl f).det = s.det := rfl
@[simp] theorem State.updColl_host (s : State) (f : Coll → Coll) : (s.updColl f).host = s.host := rfl
@[simp] theorem State.updColl_power (s : State) (f : Coll → Coll) : (s.updColl f).power = s.power := rfl
@[simp] theorem State.updColl_flt (s : State) (f : Coll → Coll) : (s.updColl f).flt = s.flt := rfl
@[simp] theorem State.updColl_mod (s : State) (f : Coll → Coll) : (s.updColl f).mod = s.mod := rfl

@[simp] theorem State.updTrain_pending (s : State) (f : Train → Train) : (s.updTrain f).pending = s.pending := rfl
@[simp] theorem State.updTrain_now (s : State) (f : Train → Train) : (s.updTrain f).now = s.now := rfl
@[simp] theorem State.updTrain_free (s : State) (f : Train → Train) : (s.updTrain f).free = s.free := rfl
@[simp] theorem State.updTrain_outs (s : State) (f : Train → Train) : (s.updTrain f).outs = s.outs := rfl
@[simp] theorem State.updTrain_cores (s : State) (f : Train → Train) : (s.updTrain f).cores = s.cores := rfl
@[simp] theorem State.updTrain_floor (s : State) (f : Train → Train) : (s.updTrain f).floor = s.floor := rfl
@[simp] theorem State.updTrain_hbm (s : State) (f : Train → Train) : (s.updTrain f).hbm = s.hbm := rfl
@[simp] theorem State.updTrain_fab (s : State) (f : Train → Train) : (s.updTrain f).fab = s.fab := rfl
@[simp] theorem State.updTrain_light (s : State) (f : Train → Train) : (s.updTrain f).light = s.light := rfl
@[simp] theorem State.updTrain_coll (s : State) (f : Train → Train) : (s.updTrain f).coll = s.coll := rfl
@[simp] theorem State.updTrain_train (s : State) (f : Train → Train) : (s.updTrain f).train = f s.train := rfl
@[simp] theorem State.updTrain_det (s : State) (f : Train → Train) : (s.updTrain f).det = s.det := rfl
@[simp] theorem State.updTrain_host (s : State) (f : Train → Train) : (s.updTrain f).host = s.host := rfl
@[simp] theorem State.updTrain_power (s : State) (f : Train → Train) : (s.updTrain f).power = s.power := rfl
@[simp] theorem State.updTrain_flt (s : State) (f : Train → Train) : (s.updTrain f).flt = s.flt := rfl
@[simp] theorem State.updTrain_mod (s : State) (f : Train → Train) : (s.updTrain f).mod = s.mod := rfl

@[simp] theorem State.updDet_pending (s : State) (f : Det → Det) : (s.updDet f).pending = s.pending := rfl
@[simp] theorem State.updDet_now (s : State) (f : Det → Det) : (s.updDet f).now = s.now := rfl
@[simp] theorem State.updDet_free (s : State) (f : Det → Det) : (s.updDet f).free = s.free := rfl
@[simp] theorem State.updDet_outs (s : State) (f : Det → Det) : (s.updDet f).outs = s.outs := rfl
@[simp] theorem State.updDet_cores (s : State) (f : Det → Det) : (s.updDet f).cores = s.cores := rfl
@[simp] theorem State.updDet_floor (s : State) (f : Det → Det) : (s.updDet f).floor = s.floor := rfl
@[simp] theorem State.updDet_hbm (s : State) (f : Det → Det) : (s.updDet f).hbm = s.hbm := rfl
@[simp] theorem State.updDet_fab (s : State) (f : Det → Det) : (s.updDet f).fab = s.fab := rfl
@[simp] theorem State.updDet_light (s : State) (f : Det → Det) : (s.updDet f).light = s.light := rfl
@[simp] theorem State.updDet_coll (s : State) (f : Det → Det) : (s.updDet f).coll = s.coll := rfl
@[simp] theorem State.updDet_train (s : State) (f : Det → Det) : (s.updDet f).train = s.train := rfl
@[simp] theorem State.updDet_det (s : State) (f : Det → Det) : (s.updDet f).det = f s.det := rfl
@[simp] theorem State.updDet_host (s : State) (f : Det → Det) : (s.updDet f).host = s.host := rfl
@[simp] theorem State.updDet_power (s : State) (f : Det → Det) : (s.updDet f).power = s.power := rfl
@[simp] theorem State.updDet_flt (s : State) (f : Det → Det) : (s.updDet f).flt = s.flt := rfl
@[simp] theorem State.updDet_mod (s : State) (f : Det → Det) : (s.updDet f).mod = s.mod := rfl

@[simp] theorem State.updHost_pending (s : State) (f : HostIf → HostIf) : (s.updHost f).pending = s.pending := rfl
@[simp] theorem State.updHost_now (s : State) (f : HostIf → HostIf) : (s.updHost f).now = s.now := rfl
@[simp] theorem State.updHost_free (s : State) (f : HostIf → HostIf) : (s.updHost f).free = s.free := rfl
@[simp] theorem State.updHost_outs (s : State) (f : HostIf → HostIf) : (s.updHost f).outs = s.outs := rfl
@[simp] theorem State.updHost_cores (s : State) (f : HostIf → HostIf) : (s.updHost f).cores = s.cores := rfl
@[simp] theorem State.updHost_floor (s : State) (f : HostIf → HostIf) : (s.updHost f).floor = s.floor := rfl
@[simp] theorem State.updHost_hbm (s : State) (f : HostIf → HostIf) : (s.updHost f).hbm = s.hbm := rfl
@[simp] theorem State.updHost_fab (s : State) (f : HostIf → HostIf) : (s.updHost f).fab = s.fab := rfl
@[simp] theorem State.updHost_light (s : State) (f : HostIf → HostIf) : (s.updHost f).light = s.light := rfl
@[simp] theorem State.updHost_coll (s : State) (f : HostIf → HostIf) : (s.updHost f).coll = s.coll := rfl
@[simp] theorem State.updHost_train (s : State) (f : HostIf → HostIf) : (s.updHost f).train = s.train := rfl
@[simp] theorem State.updHost_det (s : State) (f : HostIf → HostIf) : (s.updHost f).det = s.det := rfl
@[simp] theorem State.updHost_host (s : State) (f : HostIf → HostIf) : (s.updHost f).host = f s.host := rfl
@[simp] theorem State.updHost_power (s : State) (f : HostIf → HostIf) : (s.updHost f).power = s.power := rfl
@[simp] theorem State.updHost_flt (s : State) (f : HostIf → HostIf) : (s.updHost f).flt = s.flt := rfl
@[simp] theorem State.updHost_mod (s : State) (f : HostIf → HostIf) : (s.updHost f).mod = s.mod := rfl

@[simp] theorem State.updPower_pending (s : State) (f : Power → Power) : (s.updPower f).pending = s.pending := rfl
@[simp] theorem State.updPower_now (s : State) (f : Power → Power) : (s.updPower f).now = s.now := rfl
@[simp] theorem State.updPower_free (s : State) (f : Power → Power) : (s.updPower f).free = s.free := rfl
@[simp] theorem State.updPower_outs (s : State) (f : Power → Power) : (s.updPower f).outs = s.outs := rfl
@[simp] theorem State.updPower_cores (s : State) (f : Power → Power) : (s.updPower f).cores = s.cores := rfl
@[simp] theorem State.updPower_floor (s : State) (f : Power → Power) : (s.updPower f).floor = s.floor := rfl
@[simp] theorem State.updPower_hbm (s : State) (f : Power → Power) : (s.updPower f).hbm = s.hbm := rfl
@[simp] theorem State.updPower_fab (s : State) (f : Power → Power) : (s.updPower f).fab = s.fab := rfl
@[simp] theorem State.updPower_light (s : State) (f : Power → Power) : (s.updPower f).light = s.light := rfl
@[simp] theorem State.updPower_coll (s : State) (f : Power → Power) : (s.updPower f).coll = s.coll := rfl
@[simp] theorem State.updPower_train (s : State) (f : Power → Power) : (s.updPower f).train = s.train := rfl
@[simp] theorem State.updPower_det (s : State) (f : Power → Power) : (s.updPower f).det = s.det := rfl
@[simp] theorem State.updPower_host (s : State) (f : Power → Power) : (s.updPower f).host = s.host := rfl
@[simp] theorem State.updPower_power (s : State) (f : Power → Power) : (s.updPower f).power = f s.power := rfl
@[simp] theorem State.updPower_flt (s : State) (f : Power → Power) : (s.updPower f).flt = s.flt := rfl
@[simp] theorem State.updPower_mod (s : State) (f : Power → Power) : (s.updPower f).mod = s.mod := rfl

@[simp] theorem State.updFlt_pending (s : State) (f : Flt → Flt) : (s.updFlt f).pending = s.pending := rfl
@[simp] theorem State.updFlt_now (s : State) (f : Flt → Flt) : (s.updFlt f).now = s.now := rfl
@[simp] theorem State.updFlt_free (s : State) (f : Flt → Flt) : (s.updFlt f).free = s.free := rfl
@[simp] theorem State.updFlt_outs (s : State) (f : Flt → Flt) : (s.updFlt f).outs = s.outs := rfl
@[simp] theorem State.updFlt_cores (s : State) (f : Flt → Flt) : (s.updFlt f).cores = s.cores := rfl
@[simp] theorem State.updFlt_floor (s : State) (f : Flt → Flt) : (s.updFlt f).floor = s.floor := rfl
@[simp] theorem State.updFlt_hbm (s : State) (f : Flt → Flt) : (s.updFlt f).hbm = s.hbm := rfl
@[simp] theorem State.updFlt_fab (s : State) (f : Flt → Flt) : (s.updFlt f).fab = s.fab := rfl
@[simp] theorem State.updFlt_light (s : State) (f : Flt → Flt) : (s.updFlt f).light = s.light := rfl
@[simp] theorem State.updFlt_coll (s : State) (f : Flt → Flt) : (s.updFlt f).coll = s.coll := rfl
@[simp] theorem State.updFlt_train (s : State) (f : Flt → Flt) : (s.updFlt f).train = s.train := rfl
@[simp] theorem State.updFlt_det (s : State) (f : Flt → Flt) : (s.updFlt f).det = s.det := rfl
@[simp] theorem State.updFlt_host (s : State) (f : Flt → Flt) : (s.updFlt f).host = s.host := rfl
@[simp] theorem State.updFlt_power (s : State) (f : Flt → Flt) : (s.updFlt f).power = s.power := rfl
@[simp] theorem State.updFlt_flt (s : State) (f : Flt → Flt) : (s.updFlt f).flt = f s.flt := rfl
@[simp] theorem State.updFlt_mod (s : State) (f : Flt → Flt) : (s.updFlt f).mod = s.mod := rfl

@[simp] theorem State.updMod_pending (s : State) (f : Module → Module) : (s.updMod f).pending = s.pending := rfl
@[simp] theorem State.updMod_now (s : State) (f : Module → Module) : (s.updMod f).now = s.now := rfl
@[simp] theorem State.updMod_free (s : State) (f : Module → Module) : (s.updMod f).free = s.free := rfl
@[simp] theorem State.updMod_outs (s : State) (f : Module → Module) : (s.updMod f).outs = s.outs := rfl
@[simp] theorem State.updMod_cores (s : State) (f : Module → Module) : (s.updMod f).cores = s.cores := rfl
@[simp] theorem State.updMod_floor (s : State) (f : Module → Module) : (s.updMod f).floor = s.floor := rfl
@[simp] theorem State.updMod_hbm (s : State) (f : Module → Module) : (s.updMod f).hbm = s.hbm := rfl
@[simp] theorem State.updMod_fab (s : State) (f : Module → Module) : (s.updMod f).fab = s.fab := rfl
@[simp] theorem State.updMod_light (s : State) (f : Module → Module) : (s.updMod f).light = s.light := rfl
@[simp] theorem State.updMod_coll (s : State) (f : Module → Module) : (s.updMod f).coll = s.coll := rfl
@[simp] theorem State.updMod_train (s : State) (f : Module → Module) : (s.updMod f).train = s.train := rfl
@[simp] theorem State.updMod_det (s : State) (f : Module → Module) : (s.updMod f).det = s.det := rfl
@[simp] theorem State.updMod_host (s : State) (f : Module → Module) : (s.updMod f).host = s.host := rfl
@[simp] theorem State.updMod_power (s : State) (f : Module → Module) : (s.updMod f).power = s.power := rfl
@[simp] theorem State.updMod_flt (s : State) (f : Module → Module) : (s.updMod f).flt = s.flt := rfl
@[simp] theorem State.updMod_mod (s : State) (f : Module → Module) : (s.updMod f).mod = f s.mod := rfl

@[simp] theorem State.updCore_pending (s : State) (c : Nat) (f : Cor → Cor) : (s.updCore c f).pending = s.pending := rfl
@[simp] theorem State.updCore_now (s : State) (c : Nat) (f : Cor → Cor) : (s.updCore c f).now = s.now := rfl
@[simp] theorem State.updCore_free (s : State) (c : Nat) (f : Cor → Cor) : (s.updCore c f).free = s.free := rfl
@[simp] theorem State.updCore_outs (s : State) (c : Nat) (f : Cor → Cor) : (s.updCore c f).outs = s.outs := rfl
@[simp] theorem State.updCore_floor (s : State) (c : Nat) (f : Cor → Cor) : (s.updCore c f).floor = s.floor := rfl
@[simp] theorem State.updCore_hbm (s : State) (c : Nat) (f : Cor → Cor) : (s.updCore c f).hbm = s.hbm := rfl
@[simp] theorem State.updCore_fab (s : State) (c : Nat) (f : Cor → Cor) : (s.updCore c f).fab = s.fab := rfl
@[simp] theorem State.updCore_light (s : State) (c : Nat) (f : Cor → Cor) : (s.updCore c f).light = s.light := rfl
@[simp] theorem State.updCore_coll (s : State) (c : Nat) (f : Cor → Cor) : (s.updCore c f).coll = s.coll := rfl
@[simp] theorem State.updCore_train (s : State) (c : Nat) (f : Cor → Cor) : (s.updCore c f).train = s.train := rfl
@[simp] theorem State.updCore_det (s : State) (c : Nat) (f : Cor → Cor) : (s.updCore c f).det = s.det := rfl
@[simp] theorem State.updCore_host (s : State) (c : Nat) (f : Cor → Cor) : (s.updCore c f).host = s.host := rfl
@[simp] theorem State.updCore_power (s : State) (c : Nat) (f : Cor → Cor) : (s.updCore c f).power = s.power := rfl
@[simp] theorem State.updCore_flt (s : State) (c : Nat) (f : Cor → Cor) : (s.updCore c f).flt = s.flt := rfl
@[simp] theorem State.updCore_mod (s : State) (c : Nat) (f : Cor → Cor) : (s.updCore c f).mod = s.mod := rfl
@[simp] theorem State.emit_pending (s : State) (o : Out) : (s.emit o).pending = s.pending := rfl
@[simp] theorem State.emit_now (s : State) (o : Out) : (s.emit o).now = s.now := rfl
@[simp] theorem State.emit_free (s : State) (o : Out) : (s.emit o).free = s.free := rfl
@[simp] theorem State.emit_cores (s : State) (o : Out) : (s.emit o).cores = s.cores := rfl
@[simp] theorem State.emit_floor (s : State) (o : Out) : (s.emit o).floor = s.floor := rfl
@[simp] theorem State.emit_hbm (s : State) (o : Out) : (s.emit o).hbm = s.hbm := rfl
@[simp] theorem State.emit_fab (s : State) (o : Out) : (s.emit o).fab = s.fab := rfl
@[simp] theorem State.emit_light (s : State) (o : Out) : (s.emit o).light = s.light := rfl
@[simp] theorem State.emit_coll (s : State) (o : Out) : (s.emit o).coll = s.coll := rfl
@[simp] theorem State.emit_train (s : State) (o : Out) : (s.emit o).train = s.train := rfl
@[simp] theorem State.emit_det (s : State) (o : Out) : (s.emit o).det = s.det := rfl
@[simp] theorem State.emit_host (s : State) (o : Out) : (s.emit o).host = s.host := rfl
@[simp] theorem State.emit_power (s : State) (o : Out) : (s.emit o).power = s.power := rfl
@[simp] theorem State.emit_flt (s : State) (o : Out) : (s.emit o).flt = s.flt := rfl
@[simp] theorem State.emit_mod (s : State) (o : Out) : (s.emit o).mod = s.mod := rfl
@[simp] theorem State.emit_outs (s : State) (o : Out) : (s.emit o).outs = s.outs ++ [o] := rfl
@[simp] theorem State.tick_pending (s : State) : s.tick.pending = s.pending := rfl
@[simp] theorem State.tick_now (s : State) : s.tick.now = s.now := rfl
@[simp] theorem State.tick_outs (s : State) : s.tick.outs = s.outs := rfl
@[simp] theorem State.tick_cores (s : State) : s.tick.cores = s.cores := rfl
@[simp] theorem State.tick_floor (s : State) : s.tick.floor = s.floor := rfl
@[simp] theorem State.tick_hbm (s : State) : s.tick.hbm = s.hbm := rfl
@[simp] theorem State.tick_fab (s : State) : s.tick.fab = s.fab := rfl
@[simp] theorem State.tick_light (s : State) : s.tick.light = s.light := rfl
@[simp] theorem State.tick_coll (s : State) : s.tick.coll = s.coll := rfl
@[simp] theorem State.tick_train (s : State) : s.tick.train = s.train := rfl
@[simp] theorem State.tick_det (s : State) : s.tick.det = s.det := rfl
@[simp] theorem State.tick_host (s : State) : s.tick.host = s.host := rfl
@[simp] theorem State.tick_power (s : State) : s.tick.power = s.power := rfl
@[simp] theorem State.tick_flt (s : State) : s.tick.flt = s.flt := rfl
@[simp] theorem State.tick_mod (s : State) : s.tick.mod = s.mod := rfl
@[simp] theorem State.tick_free (s : State) : s.tick.free = s.free + 1 := rfl

/-! ## Numbered units -/

/-- Core `d` after an update of core `c`. -/
theorem State.core_updCore (s : State) (c d : Nat) (f : Cor → Cor) :
    (s.updCore c f).core d = if d = c then f (s.core c) else s.core d := by
  simp only [State.core, State.updCore, tget_tupd]
@[simp] theorem State.core_updCore_same (s : State) (c : Nat) (f : Cor → Cor) : (s.updCore c f).core c = f (s.core c) := by
  simp [State.core_updCore]
theorem State.lid_updLid (s : State) (l m : Nat) (f : Lid → Lid) :
    (s.updLid l f).lid m = if m = l then f (s.lid l) else s.lid m := by
  simp only [State.lid, State.updLid, State.updFab, tget_tupd]
@[simp] theorem State.lid_updLid_same (s : State) (l : Nat) (f : Lid → Lid) : (s.updLid l f).lid l = f (s.lid l) := by
  simp [State.lid_updLid]
theorem State.port_updPort (s : State) (p q : Nat) (f : Port → Port) :
    (s.updPort p f).port q = if q = p then f (s.port p) else s.port q := by
  simp only [State.port, State.updPort, State.updLight, tget_tupd]
@[simp] theorem State.port_updPort_same (s : State) (p : Nat) (f : Port → Port) : (s.updPort p f).port p = f (s.port p) := by
  simp [State.port_updPort]
@[simp] theorem State.line_updLine_same (s : State) (p w : Nat) (f : Line → Line) :
    (s.updLine p w f).line p w = f (s.line p w) := by
  simp [State.line, State.updLine, State.updLight]
theorem State.stack_updStack (s : State) (n m : Nat) (f : Stack → Stack) :
    (s.updStack n f).stack m = if m = n then f (s.stack n) else s.stack m := by
  simp only [State.stack, State.updStack, State.updHbm, tget_tupd]
@[simp] theorem State.stack_updStack_same (s : State) (n : Nat) (f : Stack → Stack) : (s.updStack n f).stack n = f (s.stack n) := by
  simp [State.stack_updStack]
@[simp] theorem State.bank_updBank_same (s : State) (r b : Nat) (f : Bank → Bank) : (s.updBank r b f).bank r b = f (s.bank r b) := by
  simp [State.bank, State.updBank, State.updFloor]
@[simp] theorem State.terr_updTerr_same (s : State) (t : Nat) (f : Terr → Terr) : (s.updTerr t f).terr t = f (s.terr t) := by
  simp [State.terr, State.updTerr, State.updFloor]
@[simp] theorem State.bond_updBond_same (s : State) (c : Nat) (f : Bond → Bond) : (s.updBond c f).bond c = f (s.bond c) := by
  simp [State.bond, State.updBond, State.updFloor]
@[simp] theorem State.group_updGroup_same (s : State) (c g : Nat) (f : Group → Group) : (s.updGroup c g f).group c g = f (s.group c g) := by
  simp [State.group, State.updGroup, State.updFloor]
theorem State.que_updQue (s : State) (q r : Nat) (f : QEnt → QEnt) :
    (s.updQue q f).que r = if r = q then f (s.que q) else s.que r := by
  simp only [State.que, State.updQue, State.updHost, tget_tupd]
@[simp] theorem State.que_updQue_same (s : State) (q : Nat) (f : QEnt → QEnt) : (s.updQue q f).que q = f (s.que q) := by
  simp [State.que_updQue]
theorem State.eng_updEng (s : State) (e d : Nat) (f : Eng → Eng) :
    (s.updEng e f).eng d = if d = e then f (s.eng e) else s.eng d := by
  simp only [State.eng, State.updEng, State.updColl, tget_tupd]

end Sys2Proof.Machine
end

