-- ==== Sys2Proof/Laws/Device.lean ====
section
/-! SUPPORT. Device memory: what a write leaves of the region table, and when a range is written whole. -/

namespace Sys2Proof.Machine

/-! ## The region table -/

@[simp] theorem State.report_rgns (s : State) (r : Report) : (s.report r).hbm.rgns = s.hbm.rgns := by
  unfold State.report; split <;> rfl
@[simp] theorem State.ledg_rgns (s : State) (a b c d : Nat) (bs : List Byte) : (s.ledg a b c d bs).hbm.rgns = s.hbm.rgns := rfl
@[simp] theorem State.updStack_rgns (s : State) (n : Nat) (f : Stack → Stack) : (s.updStack n f).hbm.rgns = s.hbm.rgns := rfl
@[simp] theorem State.updGrp_rgns (s : State) (n : Nat) (f : RGrp → RGrp) : (s.updGrp n f).hbm.rgns = s.hbm.rgns := rfl
@[simp] theorem State.winPut_rgns (s : State) (w i : Nat) : (s.winPut w i).hbm.rgns = s.hbm.rgns := rfl
@[simp] theorem State.markRow_rgns (s : State) (st row : Nat) : (s.markRow st row).hbm.rgns = s.hbm.rgns := by
  unfold State.markRow; dsimp only; split <;> rfl
@[simp] theorem State.rowEvent_rgns (s : State) (st row : Nat) : (s.rowEvent st row).hbm.rgns = s.hbm.rgns := by
  unfold State.rowEvent; dsimp only; split
  · exact s.markRow_rgns st row
  · rfl
@[simp] theorem State.failStack_rgns (s : State) (st : Nat) : (s.failStack st).hbm.rgns = s.hbm.rgns := by
  unfold State.failStack; split
  · rfl
  · simp

/-- Reading a unit, whatever its check finds, leaves the region table as it is. -/
theorem State.unitRead_rgns (s : State) (st so info : Nat) (e : Ecc) : (s.unitRead st so info e).1.hbm.rgns = s.hbm.rgns := by
  unfold State.unitRead
  split
  · dsimp only; split <;> exact s.report_rgns _
  · cases e
    · rfl
    · simp only [State.hbmFixed, State.rowEvent_rgns, State.report_rgns, State.updHbm_hbm, State.updStack_rgns]
    · simp only [State.hbmBad, State.winEvent]
      split <;> simp only [State.failStack_rgns, State.winPut_rgns, State.markRow_rgns, State.report_rgns, State.updHbm_hbm, State.updStack_rgns]

/-- Writing a unit leaves the region table as it is. -/
theorem State.unitWrite_rgns (s : State) (st so info : Nat) (data : List Byte) (mask spoil : List Bool) :
    (s.unitWrite st so info data mask spoil).hbm.rgns = s.hbm.rgns := by
  unfold State.unitWrite
  split
  · simp
  · rfl

/-- Translation follows the region table alone. -/
theorem State.rgnAt_congr {s t : State} (h : t.hbm.rgns = s.hbm.rgns) (a : Nat) : t.rgnAt a = s.rgnAt a := by
  simp only [State.rgnAt, h]

/-- An admission that finds its entry changes nothing and follows the region table alone. -/
theorem State.admitUnit_of_rgnAt {s t : State} {who : Requester} {part a : Nat} {p : Nat × Nat × Nat}
    (h : s.rgnAt a = t.rgnAt a) (hs : (s.admitUnit who part a).2 = some p) : t.admitUnit who part a = (t, some p) := by
  unfold State.admitUnit at hs ⊢
  rw [← h]
  cases hr : s.rgnAt a with
  | none => simp [hr] at hs
  | some e =>
    simp only [hr] at hs ⊢
    split at hs
    · simp at hs
    · rename_i hc; simp only [hc]; simpa using hs

/-- Where every unit of a range is admitted, the range is written whole, through any group. -/
theorem State.memWriteG_fits (s : State) (g : Nat) (who : Requester) (part a : Nat) (bs : List Byte) (sp : List Bool)
    (h : (unitsOf a bs.length).all (fun u => (s.admitUnit who part u).2.isSome) = true) :
    (s.memWriteG g who part a bs sp).2 = none := by
  unfold State.memWriteG
  simp only [List.all_eq_true] at h
  generalize hl : (unitsOf a bs.length).zipIdx = l
  have hm : ∀ u ∈ l, (s.admitUnit who part u.1).2.isSome = true := by
    intro u hu; subst hl
    exact h u.1 (by have := List.mem_zipIdx hu; simp at this; obtain ⟨h1, h2⟩ := this; rw [h2]; exact List.getElem_mem _)
  clear hl h
  dsimp only
  suffices H : ∀ acc : State × Option Nat, acc.1.hbm.rgns = s.hbm.rgns → acc.2 = none → (List.foldl _ acc l).2 = none from
    H (s, none) rfl rfl
  induction l with
  | nil => intro acc _ h2; exact h2
  | cons u l ih =>
    intro acc h1 h2
    obtain ⟨p, hp⟩ := Option.isSome_iff_exists.mp (hm u (by simp))
    have ha := State.admitUnit_of_rgnAt (t := acc.1) (State.rgnAt_congr h1 u.1).symm hp
    rw [List.foldl_cons]
    apply ih (fun v hv => hm v (by simp [hv]))
    · simp only [ha]; rw [State.unitWrite_rgns]; split
      · simpa using h1
      · rw [State.unitRead_rgns]; simpa using h1
    · simp only [ha]; exact h2

/-- A write of clean bytes to units that are admitted is whole. -/
theorem State.memPut_fits (s : State) (who : Requester) (part a : Nat) (bs : List Byte)
    (h : (unitsOf a bs.length).all (fun u => (s.admitUnit who part u).2.isSome) = true) : (s.memPut who part a bs).2 = none :=
  s.memWriteG_fits _ who part a bs [] h

end Sys2Proof.Machine
end

