-- ==== Sys2Proof/Laws/Floor.lean ====
section
/-! SUPPORT. What the shared operations that send requests can do: those of a core's lines (05 R129 to R137) change the floor alone,
those to the counter unit (09 R250) the counter unit alone. -/

namespace Sys2Proof.Machine

/-! ## The floor -/

/-- A request that enters the floor changes the floor alone. -/
theorem State.enter_floor (s : State) (q : BankReq) (c m : Nat) : ∃ f, s.enter q c m = s.updFloor f := by
  unfold State.enter
  split
  · exact ⟨_, rfl⟩
  · exact ⟨_, rfl⟩

theorem State.updFloor_updFloor (s : State) (f g : Floor → Floor) : (s.updFloor f).updFloor g = s.updFloor fun x => g (f x) := rfl

/-- Requests that are sent while credits last change the floor alone. -/
theorem State.pump_floor (n : Nat) : ∀ (s : State) (key : Nat), ∃ f, State.pump n s key = s.updFloor f := by
  induction n with
  | zero => exact fun s _ => ⟨id, rfl⟩
  | succ n ih =>
    intro s key
    unfold State.pump
    split
    · exact ⟨id, rfl⟩
    · rename_i q r _
      dsimp only
      split
      · obtain ⟨f, hf⟩ := State.enter_floor
          (s.updFloor fun f => { f with outq := tput f.outq key r
                                        spent := (q.credits (key / 4) (key % 2)).foldl (fun t k => tupd 0 t k (· + 1)) f.spent })
          q (key / 4) (key % 2)
        rw [hf, State.updFloor_updFloor]
        obtain ⟨g, hg⟩ := ih (s.updFloor fun x => f
          { x with outq := tput x.outq key r
                   spent := (q.credits (key / 4) (key % 2)).foldl (fun t k => tupd 0 t k (· + 1)) x.spent }) key
        exact ⟨_, hg.trans (State.updFloor_updFloor ..)⟩
      · exact ⟨id, rfl⟩

/-- The line requests of a core's unit change the floor alone. -/
theorem State.sendReqs_floor (s : State) (c m : Nat) (l : List BankReq) : ∃ f, s.sendReqs c m l = s.updFloor f := by
  unfold State.sendReqs State.pumpAll
  obtain ⟨f, hf⟩ := State.pump_floor _ (s.updFloor fun f => l.foldl (fun f q =>
    { f with outq := tupd [] f.outq (4 * c + (if regionOf q.word = c then 0 else 2) + m) fun l => l ++ [q] }) f) (4 * c + m)
  dsimp only
  rw [hf, State.updFloor_updFloor]
  obtain ⟨g, hg⟩ := State.pump_floor _ (s.updFloor _) (4 * c + 2 + m)
  exact ⟨_, hg.trans (State.updFloor_updFloor ..)⟩

/-! ## The counter unit -/

/-- A request to the counter unit changes the counter unit alone, and only its queue. -/
theorem State.ctrAsk_coll (s : State) (src : CtrSrc) (n : Nat) (op : CtrOp) :
    s.ctrAsk src n op = s.updColl fun c => { c with reqs := c.reqs ++ [{ src := src, age := s.hubNow, ctr := n, op := op }] } := rfl

/-- TRG asks for its counter where it names one. -/
@[simp] theorem State.ctrTrg_none (s : State) (src : CtrSrc) : s.ctrTrg src none = s := rfl
theorem State.ctrTrg_coll (s : State) (src : CtrSrc) (t : Option Nat) : ∃ f, s.ctrTrg src t = s.updColl f := by
  cases t with
  | none => exact ⟨id, rfl⟩
  | some n => exact ⟨_, State.ctrAsk_coll s src n _⟩

end Sys2Proof.Machine
end

