-- ==== Sys2Proof/Laws/Frames.lean ====
section
/-! SUPPORT. The check of a frame: its CRC field is compared with the CRC-32C of the 260 bytes before it. -/

namespace Sys2Proof.Machine

@[simp] theorem natLe_length (x n : Nat) : (natLe x n).length = n := by
  induction n generalizing x with
  | zero => rfl
  | succ n ih => simp [natLe, ih]

/-- The bytes of a number give it back modulo 2^(8n). -/
theorem leNat_natLe (x n : Nat) : leNat (natLe x n) = x % 2 ^ (8 * n) := by
  induction n generalizing x with
  | zero => simp [natLe, leNat, Nat.mod_one]
  | succ n ih =>
    have e : 2 ^ (8 * (n + 1)) = 256 * 2 ^ (8 * n) := by rw [show 8 * (n + 1) = 8 + 8 * n by omega, Nat.pow_add]
    simp only [natLe, leNat, ih, BitVec.toNat_ofNat, e, Nat.mod_mul]

/-- One byte keeps the CRC register below 2^32. -/
theorem crc32cByte_lt (r : Nat) (b : Byte) (h : r < 2 ^ 32) : crc32cByte r b < 2 ^ 32 := by
  have step : ∀ x : Nat, x < 2 ^ 32 → (if x % 2 = 1 then Nat.xor (x / 2) 0x82F63B78 else x / 2) < 2 ^ 32 := by
    intro x hx
    split
    · exact Nat.xor_lt_two_pow (show x / 2 < 2 ^ 32 by omega) (by decide)
    · omega
  have all : ∀ (l : List Nat) (x : Nat), x < 2 ^ 32 →
      l.foldl (fun x _ => if x % 2 = 1 then Nat.xor (x / 2) 0x82F63B78 else x / 2) x < 2 ^ 32 := by
    intro l
    induction l with
    | nil => intro x hx; exact hx
    | cons a l ih => intro x hx; exact ih _ (step x hx)
  refine all _ _ (Nat.xor_lt_two_pow h ?_)
  have := b.isLt
  omega

/-- The CRC fits its field. -/
theorem crc32c_lt (bs : List Byte) : crc32c bs < 2 ^ 32 := by
  have all : ∀ (l : List Byte) (x : Nat), x < 2 ^ 32 → l.foldl crc32cByte x < 2 ^ 32 := by
    intro l
    induction l with
    | nil => intro x hx; exact hx
    | cons a l ih => intro x hx; exact ih _ (crc32cByte_lt x a hx)
  exact Nat.xor_lt_two_pow (all bs _ (by decide)) (by decide)

/-- A 260-byte body with the CRC field `x` is good when `x` is the body's CRC modulo 2^32. -/
theorem frameGood_append (b : List Byte) (x : Nat) (h : b.length = 260) :
    frameGood (b ++ natLe x 4) = decide (x % 2 ^ 32 = crc32c b) := by
  have h1 : (b ++ natLe x 4).take 260 = b := by rw [← h, List.take_left]
  have h2 : fieldLe (b ++ natLe x 4) 260 4 = x % 2 ^ 32 := by
    simp only [fieldLe]
    rw [← h, List.drop_left, List.take_of_length_le (by simp), leNat_natLe]
  simp only [frameGood, h1, h2]
  rfl

/-- A cell takes 256 bytes. -/
@[simp] theorem Cell.bytes_length (c : Cell) : c.bytes.length = 256 := by
  simp only [Cell.bytes, List.length_append, natLe_length, List.length_take, List.length_replicate]
  omega

/-- A frame formed from a cell is good. -/
theorem frameGood_frameBytes (c : Cell) (seq ack : Nat) : frameGood (frameBytes c seq ack) = true := by
  simp only [frameBytes]
  rw [frameGood_append _ _ (by simp), decide_eq_true_eq]
  exact Nat.mod_eq_of_lt (crc32c_lt _)

/-- A frame whose CRC field is off by one is not good. -/
theorem frameGood_off (b : List Byte) (h : b.length = 260) : frameGood (b ++ natLe (crc32c b + 1) 4) = false := by
  rw [frameGood_append _ _ h, decide_eq_false_iff_not]
  have := crc32c_lt b
  omega

end Sys2Proof.Machine
end

