-- ==== Sys2Proof/Laws/Memory.lean ====
section
/-! SUPPORT. The laws of the byte memories and of the stores with spoil marks: a read after a write, and that every
memory operation keeps the canonical form. -/

namespace Sys2Proof.Machine

/-- A canonical memory above `lo` is canonical above any smaller bound. -/
theorem cellsFrom_mono {a b : Nat} (h : a ≤ b) {m : List Host.Cell} (hm : cellsFrom b m = true) : cellsFrom a m = true := by
  cases m with
  | nil => rfl
  | cons e m =>
    obtain ⟨j, v⟩ := e
    simp only [cellsFrom, Bool.and_eq_true, decide_eq_true_eq, bne_iff_ne] at hm ⊢
    exact ⟨⟨by omega, hm.1.2⟩, hm.2⟩

/-- A byte written reads back. -/
@[simp] theorem cellGet_cellPut_same (m : List Host.Cell) (a : Nat) (v : Byte) (lo : Nat) (hm : cellsFrom lo m = true) :
    cellGet (cellPut m a v) a = v := by
  induction m generalizing lo with
  | nil => by_cases h : v = 0#8 <;> simp [cellPut, cellGet, h]
  | cons e m ih =>
    obtain ⟨j, w⟩ := e
    simp only [cellsFrom, Bool.and_eq_true, decide_eq_true_eq, bne_iff_ne] at hm
    have below : ∀ (m : List Host.Cell) (b : Nat), a < b → cellsFrom b m = true → cellGet m a = 0#8 := by
      intro m
      induction m with
      | nil => intros; rfl
      | cons e m ih =>
        intro b hb hc
        obtain ⟨i, u⟩ := e
        simp only [cellsFrom, Bool.and_eq_true, decide_eq_true_eq, bne_iff_ne] at hc
        simp only [cellGet, if_neg (show ¬ i = a by omega)]
        exact ih (i + 1) (by omega) hc.2
    simp only [cellPut]
    split
    · rename_i h; subst h
      split
      · rename_i hv; rw [hv]; exact below m (a + 1) (by omega) hm.2
      · simp [cellGet]
    · split
      · split
        · rename_i hv; rw [hv]
          simp only [cellGet, if_neg (show ¬ j = a by omega)]
          exact below m (j + 1) (by omega) hm.2
        · simp [cellGet]
      · simp only [cellGet, if_neg (show ¬ j = a by omega)]
        exact ih (j + 1) hm.2

/-- A write leaves every other byte as it was. -/
theorem cellGet_cellPut_ne (m : List Host.Cell) {a b : Nat} (v : Byte) (h : b ≠ a) :
    cellGet (cellPut m a v) b = cellGet m b := by
  induction m with
  | nil => by_cases hv : v = 0#8 <;> simp [cellPut, cellGet, hv, Ne.symm h]
  | cons e m ih =>
    obtain ⟨j, w⟩ := e
    simp only [cellPut]
    split
    · rename_i hj; subst hj
      split <;> simp [cellGet, Ne.symm h]
    · split
      · split <;> simp [cellGet, Ne.symm h]
      · simp only [cellGet]; rw [ih]

/-- A write above a bound keeps the canonical form above it. -/
theorem cellsFrom_cellPut (m : List Host.Cell) (lo a : Nat) (v : Byte) (h : lo ≤ a) (hm : cellsFrom lo m = true) :
    cellsFrom lo (cellPut m a v) = true := by
  induction m generalizing lo with
  | nil => by_cases hv : v = 0#8 <;> simp [cellPut, cellsFrom, hv, h]
  | cons e m ih =>
    obtain ⟨j, w⟩ := e
    have hm' := hm
    simp only [cellsFrom, Bool.and_eq_true, decide_eq_true_eq, bne_iff_ne] at hm
    simp only [cellPut]
    split
    · rename_i hj; subst hj
      split
      · exact cellsFrom_mono (by omega) hm.2
      · rename_i hv; simp [cellsFrom, h, hm.2, hv]
    · split
      · split
        · exact hm'
        · rename_i hv
          simp only [cellsFrom, Bool.and_eq_true, decide_eq_true_eq, bne_iff_ne]
          exact ⟨⟨h, hv⟩, ⟨by omega, hm.1.2⟩, hm.2⟩
      · simp only [cellsFrom, Bool.and_eq_true, decide_eq_true_eq, bne_iff_ne]
        exact ⟨hm.1, ih (j + 1) (by omega) hm.2⟩

/-- A byte write keeps the canonical form. -/
theorem cellPut_wf {m : List Host.Cell} (a : Nat) (v : Byte) (hm : Memory.wf m = true) : Memory.wf (cellPut m a v) = true :=
  cellsFrom_cellPut m 0 a v (Nat.zero_le a) hm

/-- Storing bytes keeps the canonical form. -/
theorem cellStore_wf {m : List Host.Cell} (a : Nat) (bs : List Byte) (hm : Memory.wf m = true) :
    Memory.wf (cellStore m a bs) = true := by
  induction bs generalizing m a with
  | nil => exact hm
  | cons b bs ih => exact ih (a + 1) (cellPut_wf a b hm)

/-- Storing bytes leaves every byte outside them as it was. -/
theorem cellGet_cellStore_out (m : List Host.Cell) (a : Nat) (bs : List Byte) (x : Nat) (h : x < a ∨ a + bs.length ≤ x) :
    cellGet (cellStore m a bs) x = cellGet m x := by
  induction bs generalizing m a with
  | nil => rfl
  | cons b bs ih =>
    simp only [List.length_cons] at h
    simp only [cellStore]
    rw [ih (cellPut m a b) (a + 1) (by omega), cellGet_cellPut_ne m b (by omega)]

/-- Bytes stored read back. -/
theorem cellGet_cellStore_in (m : List Host.Cell) (a : Nat) (bs : List Byte) (hm : Memory.wf m = true) (i : Nat)
    (h : i < bs.length) : cellGet (cellStore m a bs) (a + i) = bs.getD i 0#8 := by
  induction bs generalizing m a i with
  | nil => simp at h
  | cons b bs ih =>
    simp only [cellStore]
    cases i with
    | zero =>
      rw [cellGet_cellStore_out _ _ _ _ (Or.inl (by omega))]
      simpa using cellGet_cellPut_same m a b 0 hm
    | succ i =>
      have := ih (cellPut m a b) (a + 1) (cellPut_wf a b hm) i (by simpa using h)
      simpa [Nat.add_assoc, Nat.add_comm 1 i] using this

/-! ## Rising sets -/

/-- What stands in a set after an insertion. -/
@[simp] theorem mem_setIns (l : List Nat) (k x : Nat) : x ∈ setIns l k ↔ x = k ∨ x ∈ l := by
  induction l with
  | nil => simp [setIns]
  | cons j l ih =>
    simp only [setIns]
    split
    · rename_i h; subst h; simp
    · split
      · simp
      · simp only [List.mem_cons, ih]; constructor <;> (rintro (h | h | h) <;> simp [h])

@[simp] theorem mem_setDel (l : List Nat) (k x : Nat) : x ∈ setDel l k ↔ x ∈ l ∧ x ≠ k := by simp [setDel]

/-- What stands in a set after a bit is set or cleared. -/
theorem mem_setTo (l : List Nat) (k x : Nat) (b : Bool) : x ∈ setTo l k b ↔ (x = k ∧ b = true) ∨ (x ≠ k ∧ x ∈ l) := by
  cases b <;> by_cases h : x = k <;> simp [setTo, h]

/-- An insertion keeps a set rising. -/
theorem setIns_rising (l : List Nat) (k : Nat) (h : l.Pairwise (· < ·)) : (setIns l k).Pairwise (· < ·) := by
  induction l with
  | nil => simp [setIns]
  | cons j l ih =>
    rw [List.pairwise_cons] at h
    simp only [setIns]
    split
    · rw [List.pairwise_cons]; exact h
    · split
      · rw [List.pairwise_cons, List.pairwise_cons]
        refine ⟨?_, h⟩
        intro x hx
        rcases List.mem_cons.1 hx with rfl | hx
        · assumption
        · exact Nat.lt_trans ‹k < j› (h.1 x hx)
      · rw [List.pairwise_cons]
        refine ⟨?_, ih h.2⟩
        intro x hx
        rcases (mem_setIns l k x).1 hx with rfl | hx
        · omega
        · exact h.1 x hx

theorem setTo_rising (l : List Nat) (k : Nat) (b : Bool) (h : l.Pairwise (· < ·)) : (setTo l k b).Pairwise (· < ·) := by
  cases b
  · exact h.filter _
  · exact setIns_rising l k h

/-! ## Stores with spoil marks -/

/-- A word write keeps a store's canonical form. -/
theorem Ram.setWord_wf (r : Ram) (w : Nat) (v : W32) (sp : Bool) (h : r.wf = true) : (r.setWord w v sp).wf = true := by
  simp only [Ram.wf, Bool.and_eq_true, decide_eq_true_eq] at h ⊢
  exact ⟨cellStore_wf _ _ h.1, setTo_rising _ _ _ h.2⟩

/-- A byte write keeps a store's canonical form. -/
theorem Ram.setByte_wf (r : Ram) (a : Nat) (v : Byte) (sp : Bool) (h : r.wf = true) : (r.setByte a v sp).wf = true := by
  simp only [Ram.wf, Bool.and_eq_true, decide_eq_true_eq] at h ⊢
  refine ⟨cellPut_wf _ _ h.1, ?_⟩
  cases sp
  · exact h.2
  · exact setIns_rising _ _ h.2

/-- A spoil mark keeps a store's canonical form. -/
theorem Ram.setSpoil_wf (r : Ram) (w : Nat) (sp : Bool) (h : r.wf = true) : (r.setSpoil w sp).wf = true := by
  simp only [Ram.wf, Bool.and_eq_true, decide_eq_true_eq] at h ⊢
  exact ⟨h.1, setTo_rising _ _ _ h.2⟩

/-- Writing words keeps a store's canonical form. -/
theorem Ram.store_wf (r : Ram) (w : Nat) (xs : List (W32 × Bool)) (h : r.wf = true) : (r.store w xs).wf = true := by
  induction xs generalizing r w with
  | nil => exact h
  | cons x xs ih => exact ih _ _ (r.setWord_wf w x.1 x.2 h)

/-- A word written leaves every byte outside it as it was. -/
theorem Ram.byte_setWord_out (r : Ram) (w : Nat) (v : W32) (sp : Bool) (a : Nat) (h : a / 4 ≠ w) :
    (r.setWord w v sp).byte a = r.byte a := by
  simp only [Ram.byte, Ram.setWord]
  apply cellGet_cellStore_out
  simp only [wordBytes, natLe, List.length_cons, List.length_nil]
  omega

/-- A byte written leaves every other byte as it was. -/
theorem Ram.byte_setByte_out (r : Ram) (a b : Nat) (v : Byte) (sp : Bool) (h : b ≠ a) : (r.setByte a v sp).byte b = r.byte b :=
  cellGet_cellPut_ne _ _ h

/-- A word write leaves the spoil bit of every other word. -/
theorem Ram.spoilt_setWord_out (r : Ram) (w x : Nat) (v : W32) (sp : Bool) (h : x ≠ w) :
    (r.setWord w v sp).spoilt x = r.spoilt x := by
  unfold Ram.spoilt Ram.setWord
  rw [Bool.eq_iff_iff, List.contains_iff_mem, List.contains_iff_mem, mem_setTo]
  simp [h]

/-- A word write sets the word's spoil bit. -/
@[simp] theorem Ram.spoilt_setWord_same (r : Ram) (w : Nat) (v : W32) (sp : Bool) : (r.setWord w v sp).spoilt w = sp := by
  cases sp <;> simp [Ram.spoilt, Ram.setWord, setTo, setDel]

end Sys2Proof.Machine
end

