-- ==== Sys2Proof/Laws/Qcp.lean ====
section
/-! SUPPORT. The frame of QCP commands, said once: a command that passes it is its own rule's effect. -/

namespace Sys2Proof.Machine

/-- A command that passes the frame is carried out by its rule. -/
theorem qcpRow_runs {s : State} {o q : Nat} {d : Desc} (run : Cmd → State → State) (h : Passes s (cmdOf s q d) o) :
    qcpRow o q d s run = .next (run (cmdOf s q d) s) := by
  obtain ⟨hq, ho, hs, ht, hr⟩ := h
  have hq' : q < 8192 := hq
  have hs' : s.hsqOpen q = true := hs
  simp only [cmdOf] at ho ht hr
  simp only [qcpRow, unit, hq', if_true, when, ho, hs', ht, State.admitWith, hr, cmdOf]
  simp

/-- A long command that is accepted goes on with its handle. -/
theorem accepted_runs {s a : State} {c : Cmd} {i : Nat} (f : Nat → State → State) (h : Accepts s c i a) :
    s.accepted c f = f i a := by
  obtain ⟨h1, h2⟩ := h
  subst h2
  simp only [State.accepted, h1]
  rfl

/-- A structure that is well placed and readable is handed on. -/
theorem structure_runs {s u : State} {c : Cmd} {b : List Byte} (k : State → List Byte → State) (h : Reads s c u b) :
    s.structure_ c true k = k u b := by
  obtain ⟨h1, h2, h3, h4⟩ := h
  simp only [State.structure_, h1, h4, h2, h3]
  simp

end Sys2Proof.Machine
end

