-- ==== Sys2Proof/WellFormed.lean ====
section
/-! DEFINITION. Which commands name units and data that the block has (00 R6, R14): unit numbers within their ranges,
descriptors of sixteen words, frames and markers of their stated sizes. The meanings answer the fault noSuchUnit where a
unit number is outside its range. -/

namespace Sys2Proof

/-- The command names units that exist and data of the stated sizes. -/
def Instr.wf (i : Instr) : Bool :=
  match i with
  | .bundleIssue c _ _ => decide (c < 512)
  | .tAccessPerformed c _ => decide (c < 512)
  | .hgetHputComplete c _ => decide (c < 512)
  | .waitSatisfied c => decide (c < 512)
  | .waitTimeLimit c _ => decide (c < 512)
  | .getwTake c _ => decide (c < 512)
  | .balancingTake cs waits _ => cs.all (fun x => decide (x.1 < 512)) && waits.all (fun x => decide (x.1 < 512))
  | .coreSelftestSelect c _ => decide (c < 512)
  | .coreSelftestEnter c => decide (c < 512)
  | .coreSelftestStart c => decide (c < 512)
  | .coreSelftestPass c => decide (c < 512)
  | .coreSelftestFail c => decide (c < 512)
  | .coreSelftestCancel c _ => decide (c < 512)
  | .fldStart c => decide (c < 512)
  | .fldComplete c => decide (c < 512)
  | .mmaStart c a => decide (c < 512) && decide (a < 4)
  | .mmaComplete c a => decide (c < 512) && decide (a < 4)
  | .exactEmission c a => decide (c < 512) && decide (a < 4)
  | .emissionPerformed c a => decide (c < 512) && decide (a < 4)
  | .drnRead c a => decide (c < 512) && decide (a < 4)
  | .drnComplete c a => decide (c < 512) && decide (a < 4)
  | .emcPerform c a => decide (c < 512) && decide (a < 4)
  | .mclrAct c a => decide (c < 512) && decide (a < 4)
  | .bankAccess r b _ _ => decide (r < 512) && decide (b < 32)
  | .maintWriteback r b _ => decide (r < 512) && decide (b < 32)
  | .patrolScrub r b _ _ => decide (r < 512) && decide (b < 32)
  | .bankSelftestSlice r b _ _ _ => decide (r < 512) && decide (b < 32)
  | .meshFlitArrival stop plane out _ => decide (stop < 512) && decide (plane < 2) && decide (out < 5)
  | .bondTransferReceive c g x => decide (c < 519) && decide (g < 336) && x.lane.all (fun l => decide (l < 17)) && decide (x.words.length ≤ 4)
  | .bondReplay c g => decide (c < 519) && decide (g < 336)
  | .bondCreditReturn c k => decide (c < 519) && decide (k < 67)
  | .laneRetireSwitch c g => decide (c < 519) && decide (g < 336)
  | .hbmUnitRequest _ => true
  | .regulatorAdmit g _ => decide (g < 16)
  | .borrowAgeExpiry g _ => decide (g < 16)
  | .pcQueueAccept st pc _ => decide (st < 12) && decide (pc < 64)
  | .hbmRequestServe st pc _ _ _ => decide (st < 12) && decide (pc < 64)
  | .hbmAgeLimit st pc _ _ => decide (st < 12) && decide (pc < 64)
  | .hbmMaintWriteback st _ _ => decide (st < 12)
  | .hbmPatrolScrub st _ => decide (st < 12)
  | .hbmRefresh st _ => decide (st < 12)
  | .stackHotChange st _ => decide (st < 12)
  | .hbmSelftestSlice st pc _ _ _ _ _ _ _ => decide (st < 12) && decide (pc < 64)
  | .regionSetDrained n => decide (n < 64)
  | .cellInject _ _ => true
  | .frameSend lid _ => decide (lid < 96)
  | .controlFrameSend lid => decide (lid < 96)
  | .controlFrameDue lid _ => decide (lid < 96)
  | .frameReceive lid line _ bytes _ _ => decide (lid < 96) && decide (line < 17) && decide (bytes.length = 264)
  | .controlFrameReceive lid line bytes _ => decide (lid < 96) && decide (line < 17) && decide (bytes.length = 264)
  | .retryTimeout lid _ => decide (lid < 96)
  | .maskChangeReport lid => decide (lid < 96)
  | .lidTrainingStart lid => decide (lid < 96)
  | .lidTrainingComplete lid _ _ _ _ => decide (lid < 96)
  | .softFenceComplete lid => decide (lid < 96)
  | .softFenceTimeout lid _ => decide (lid < 96)
  | .reqMessageServe _ => true
  | .nrqWaitExpiry _ _ => true
  | .messageLostTimeout _ _ => true
  | .detseqBatchRelease q => decide (q < 8192)
  | .epochSum _ _ => true
  | .combMeasure a b found => decide (a.lines.length = 17) && decide (b.lines.length = 17) && found.all (fun f => decide (f.1 < 6))
  | .combAgedSwitch _ => true
  | .markerReceive p w bytes => decide (p < 6) && decide (w < 17) && decide (bytes.length = 16)
  | .markerAbsentTimeout p w _ => decide (p < 6) && decide (w < 17)
  | .ringLoopUpdate p w _ _ _ _ => decide (p < 6) && decide (w < 17)
  | .spareRotationStart p _ => decide (p < 6)
  | .rotationMaskAck p i => decide (p < 6) && decide (i < 17)
  | .rotationLineLeave p => decide (p < 6)
  | .rotationCalDone p => decide (p < 6)
  | .rotationSoakEnd p _ => decide (p < 6)
  | .aprLightLoss p _ => decide (p < 6)
  | .aprDeclare p _ => decide (p < 6)
  | .aprLightReturn p _ => decide (p < 6)
  | .soakEnd p line _ => decide (p < 6) && line.all (fun w => decide (w < 17))
  | .soakRepeat p line _ => decide (p < 6) && line.all (fun w => decide (w < 17))
  | .passSwitchDrained => true
  | .passSwitchRelease => true
  | .ringShiftDone => true
  | .passSwitchRecovered => true
  | .passSwitchLocked => true
  | .passLidTrainTimeout lid _ => decide (lid < 96)
  | .telemetryMeasure p _ _ _ _ => decide (p < 6)
  | .counterRequest b _ => decide (b < 16)
  | .tolEntryStart q => decide (q ≤ 8192)
  | .collCellSend tp tree _ => decide (tp < 16) && decide (tree < 2)
  | .collCellReceive lid => decide (lid < 96)
  | .voteRootTimeout tree _ => decide (tree < 2)
  | .collTimeout _ _ => true
  | .censusTimeout _ => true
  | .attemptStart _ => true
  | .gatherComplete => true
  | .unitPost => true
  | .unitComplete _ _ _ => true
  | .reduceDone => true
  | .updateComplete => true
  | .seqWaitTimeout _ => true
  | .mirrorWaitTimeout _ => true
  | .outcomeGraceTimeout _ => true
  | .attemptRest => true
  | .coreBoundaryTimeout c _ => decide (c < 512)
  | .ckptImageComplete _ => true
  | .rebuildImageLoaded _ => true
  | .rebuildRecordFetched _ => true
  | .rebuildRecordApplied => true
  | .drainImageChecked _ => true
  | .ingestComplete _ _ _ _ => true
  | .exportAck => true
  | .replayInputDeliver _ => true
  | .certifyHashComplete => true
  | .configRequest _ _ => true
  | .perstAssert => true
  | .perstRelease => true
  | .flr => true
  | .bar4Read _ _ _ => true
  | .bar4Write _ _ _ => true
  | .doorbellWrite q _ _ _ => decide (q < 8192)
  | .ceqDoorbell q _ _ _ => decide (q < 8192)
  | .commandAdmit => true
  | .completionRecordWrite q => decide (q < 8192)
  | .msixTimer q _ => decide (q < 8192)
  | .aqEnable _ => true
  | .aqDisable _ => true
  | .registerWrite _ _ _ => true
  | .w1cWrite _ _ _ => true
  | .rcFieldRead _ _ => true
  | .nop q d => decide (q < 8192) && decide (d.length = 16)
  | .sesOpen q d => decide (q < 8192) && decide (d.length = 16)
  | .sesClose q d => decide (q < 8192) && decide (d.length = 16)
  | .devInfo q d => decide (q < 8192) && decide (d.length = 16)
  | .queCreate q d => decide (q < 8192) && decide (d.length = 16)
  | .queDelete q d => decide (q < 8192) && decide (d.length = 16)
  | .queReset q d => decide (q < 8192) && decide (d.length = 16)
  | .domainReset q d => decide (q < 8192) && decide (d.length = 16)
  | .devReset q d => decide (q < 8192) && decide (d.length = 16)
  | .handleQuery q d => decide (q < 8192) && decide (d.length = 16)
  | .handleCancel q d => decide (q < 8192) && decide (d.length = 16)
  | .regionSet q d => decide (q < 8192) && decide (d.length = 16)
  | .memConfig q d => decide (q < 8192) && decide (d.length = 16)
  | .apertureSet q d => decide (q < 8192) && decide (d.length = 16)
  | .dmaH2d q d => decide (q < 8192) && decide (d.length = 16)
  | .dmaD2h q d => decide (q < 8192) && decide (d.length = 16)
  | .dmaD2d q d => decide (q < 8192) && decide (d.length = 16)
  | .memFill q d => decide (q < 8192) && decide (d.length = 16)
  | .windowSet q d => decide (q < 8192) && decide (d.length = 16)
  | .windowClear q d => decide (q < 8192) && decide (d.length = 16)
  | .netSend q d => decide (q < 8192) && decide (d.length = 16)
  | .netWrite q d => decide (q < 8192) && decide (d.length = 16)
  | .netGet q d => decide (q < 8192) && decide (d.length = 16)
  | .progLoad q d => decide (q < 8192) && decide (d.length = 16)
  | .jobAttach q d => decide (q < 8192) && decide (d.length = 16)
  | .jobConfig q d => decide (q < 8192) && decide (d.length = 16)
  | .jobLaunch q d => decide (q < 8192) && decide (d.length = 16)
  | .jobDetach q d => decide (q < 8192) && decide (d.length = 16)
  | .coreRelaunch q d => decide (q < 8192) && decide (d.length = 16)
  | .workPost q d => decide (q < 8192) && decide (d.length = 16)
  | .l2pSet q d => decide (q < 8192) && decide (d.length = 16)
  | .fabTables q d => decide (q < 8192) && decide (d.length = 16)
  | .fabFence q d => decide (q < 8192) && decide (d.length = 16)
  | .fabUnfence q d => decide (q < 8192) && decide (d.length = 16)
  | .passPlan q d => decide (q < 8192) && decide (d.length = 16)
  | .passConfig q d => decide (q < 8192) && decide (d.length = 16)
  | .portReadmit q d => decide (q < 8192) && decide (d.length = 16)
  | .treePlan q d => decide (q < 8192) && decide (d.length = 16)
  | .vcWeights q d => decide (q < 8192) && decide (d.length = 16)
  | .stageTable q d => decide (q < 8192) && decide (d.length = 16)
  | .ckpt q d => decide (q < 8192) && decide (d.length = 16)
  | .ckptSeal q d => decide (q < 8192) && decide (d.length = 16)
  | .replace q d => decide (q < 8192) && decide (d.length = 16)
  | .drain q d => decide (q < 8192) && decide (d.length = 16)
  | .rollback q d => decide (q < 8192) && decide (d.length = 16)
  | .wsQuery q d => decide (q < 8192) && decide (d.length = 16)
  | .wsResolve q d => decide (q < 8192) && decide (d.length = 16)
  | .cfgWatershed q d => decide (q < 8192) && decide (d.length = 16)
  | .jobHold q d => decide (q < 8192) && decide (d.length = 16)
  | .jobResume q d => decide (q < 8192) && decide (d.length = 16)
  | .setPstate q d => decide (q < 8192) && decide (d.length = 16)
  | .pwrLimit q d => decide (q < 8192) && decide (d.length = 16)
  | .pwrMode q d => decide (q < 8192) && decide (d.length = 16)
  | .pwrShare q d => decide (q < 8192) && decide (d.length = 16)
  | .thermLimit q d => decide (q < 8192) && decide (d.length = 16)
  | .fltRead q d => decide (q < 8192) && decide (d.length = 16)
  | .fltClear q d => decide (q < 8192) && decide (d.length = 16)
  | .healthRead q d => decide (q < 8192) && decide (d.length = 16)
  | .linkCount q d => decide (q < 8192) && decide (d.length = 16)
  | .unitReadmit q d => decide (q < 8192) && decide (d.length = 16)
  | .fltWindows q d => decide (q < 8192) && decide (d.length = 16)
  | .fwStage q d => decide (q < 8192) && decide (d.length = 16)
  | .fwActivate q d => decide (q < 8192) && decide (d.length = 16)
  | .attest q d => decide (q < 8192) && decide (d.length = 16)
  | .dbgUnlock q d => decide (q < 8192) && decide (d.length = 16)
  | .replay q d => decide (q < 8192) && decide (d.length = 16)
  | .certify q d => decide (q < 8192) && decide (d.length = 16)
  | .vendorOpcode q d => decide (q < 8192) && decide (d.length = 16)
  | .i3cSubmit _ => true
  | .i3cFetch => true
  | .i3cStatus => true
  | .i3cBufread _ _ => true
  | .i3cAddressAssign _ _ => true
  | .inputPowerSample _ _ _ _ _ => true
  | .budgetShare _ _ _ _ => true
  | .clockModeChange => true
  | .droopDetect i => decide (i < 12)
  | .droopRecover i _ => decide (i < 12)
  | .trimDaily _ => true
  | .thermalSample i temp => decide (i < 31) && decide (temp < 256)
  | .throttleStepDown i => decide (i < 31)
  | .throttleStepUp i => decide (i < 31)
  | .coolantOkFall => true
  | .coolantOkRise => true
  | .coolantStop _ => true
  | .coolantExitReady _ => true
  | .balanceReportReceive _ _ _ _ _ _ => true
  | .balanceWaitExpiry _ => true
  | .balanceDec _ _ => true
  | .balanceAck _ _ _ => true
  | .balanceAckTimeout _ => true
  | .balanceInc _ _ => true
  | .collectorTake => true
  | .containedReactionDone => true
  | .coalesceHoldExpiry _ _ _ _ => true
  | .fatalCaptureWritten _ => true
  | .ledgerEntryWrite => true
  | .dailyLedger => true
  | .inputFailure _ _ _ => true
  | .flushUnit _ => true
  | .inputReturn _ _ => true
  | .supervisorHoldEnd _ _ => true
  | .hotswapFastTrip _ => true
  | .hotswapSlowTrip _ _ => true
  | .rampTimeout _ _ => true
  | .overvoltageTrip _ _ => true
  | .tripRetry _ => true
  | .tripCountClear _ => true
  | .inputCycled _ _ => true
  | .storeMeasure _ _ => true
  | .storeBelowMin _ _ => true
  | .startupInputUp _ _ _ => true
  | .startupGateRamp _ _ _ _ _ => true
  | .startupMainRails _ => true
  | .sectorErase _ _ => true
  | .hubWatchdog _ => true
  | .quiesceRequest _ => true
  | .buttonLongPress _ => true
  | .buttonShortPress _ => true
  | .latchOpen _ => true
  | .latchClose => true
  | .shutdownProceed => true
  | .shutdownWaitTimeout _ => true
  | .hostReadCompletion _ _ => true
  | .fwStageComplete _ => true
  | .rollbackImageLoaded _ => true
  | .ethernetLinkOrFrameError port _ => decide (port < 4)
  | .pcieUncorrectableError _ => true
  | .storeCharged _ => true

end Sys2Proof
end

