-- ==== Sys2Proof/Tests/Slice0.lean ====
section
/-! SUPPORT. The model's own tests: small states that meet the hypotheses of each statement, and worked examples of the
spec. -/

namespace Sys2Proof.Tests
set_option Elab.async false

open Sys2Proof Sys2Proof.Machine

/-! ## States -/

/-- A job's configuration with the counters 0 to 63. -/
def tJob : JobCfg :=
  { detmode := 0, rec_ := 0, exportOn := false, dlb := false, group := 0, stepOnly := false, coreRg := 1, age := 2,
    ctrBase := 0, ctrN := 64, seqCeq := 1, waitLimit := 0, seed := 0#64, testInt := 600, hbmSlice := 50, nrqWait := 10,
    collTmo := 100, voteTmo := 100, outGrace := 100, mirrorWait := 100, waitTmo := 100, retryMax := 3, ovfMax := 3,
    nRaise := 2000, eInit := 0, ovfMask := 0#8, expTgt := 0, targets := [] }

/-- Core 3 runs a program whose first bundle has the S slot `a` and the T slot `t`. -/
def tRun (a t : W64) : State :=
  { State.reset with
    cores := [(3, { Cor.init with st := .run, extent := 2, imem := [(0, a.setWidth 256 ||| (t.setWidth 256 <<< 192))] })]
    host := { HostIf.init with job := some tJob } }

/-- WAIT on counter 7 with threshold s0; FENCE of scope 0; GETW into s1. -/
def tWait : W64 := BitVec.ofNat 64 (0x1B * 2 ^ 58 + 7 * 2 ^ 26)
def tFence : W64 := BitVec.ofNat 64 (0x20 * 2 ^ 58)
def tGetw : W64 := BitVec.ofNat 64 (0x28 * 2 ^ 58 + 1 * 2 ^ 53)

/-- ADD s5 ← s1 + 9, the same into s0, and TRAP. -/
def tAdd : W64 := BitVec.ofNat 64 (1 * 2 ^ 58 + 5 * 2 ^ 53 + 1 * 2 ^ 48 + 2 ^ 42 + 9)
def tAddS0 : W64 := BitVec.ofNat 64 (1 * 2 ^ 58 + 1 * 2 ^ 48 + 2 ^ 42 + 9)
def tTrap : W64 := BitVec.ofNat 64 (0x3E * 2 ^ 58 + 5)

/-- Sixteen stores are outstanding and the next bundle stores. -/
def tStore : TAcc :=
  { id := 0, top := 3, td := 1, base := 64, act := 0#64, stride := 0, idx := [], data := [(7#32, false)], trg := none, dev := 0, units := 1, todo := [], left := 0, got := [] }
/-- A load of s5 whose word has come. -/
def tLoaded : TAcc := { tStore with top := 1, td := 5, data := [], got := [(64, 9#32, false)] }
def tStalled : State :=
  (tRun 0#64 (BitVec.ofNat 64 (3 * 2 ^ 58))).updCore 3 fun k => { k with tacc := List.replicate 16 tStore }

/-- Core 3 waits on counter 7 for 0, with a limit of 5 µs. -/
def tWaiting : State := (tRun 0#64 tWait).updCore 3 fun k => { k with waiting := true, waitOn := some (7, 0), waitLimit := 5#32 }

/-- Core 3 is stalled in GETW; then with an entry posted on its slot 0, queue 100, in the scratchpad. -/
def tIdle : State := (tRun 0#64 tGetw).updCore 3 fun k => { k with idleq := true }
def tPosted : State :=
  tIdle.updQue 100 fun e => { e with typ := 3, st := 1, loc := 2, log2n := 4, base := 1024, tail := 1, core := 3, slot := 0 }

/-- Matrix operations and core 3 with one of them queued. -/
def tMOp (n : Nat) : MOp := { id := 0, raw := BitVec.ofNat 64 (n * 2 ^ 58 + 1 * 2 ^ 45), r1 := 0#64, r2 := 0#64, r3 := 0#64, home := 3, step := 0#64 }
def tOpq (n : Nat) : State := (tRun 0#64 0#64).updCore 3 fun k => k.updArr 0 fun x => { x with opq := [tMOp n] }
def tFldOp : MOp := { id := 0, raw := BitVec.ofNat 64 (0x01 * 2 ^ 58), r1 := 1#64, r2 := 0#64, r3 := 0#64, home := 3, step := 0#64 }
def tFld : State := (tRun 0#64 0#64).updCore 3 fun k => { k with fldq := [tFldOp] }
def tMmaOp : MOp := { id := 0, raw := BitVec.ofNat 64 (0x08 * 2 ^ 58), r1 := 1#64, r2 := 0#64, r3 := 0#64, home := 3, step := 0#64 }
def tMma : State := (tRun 0#64 0#64).updCore 3 fun k => k.updArr 0 fun x => { x with opq := [tMmaOp] }
def tMmaRun (e : Bool) : State := (tRun 0#64 0#64).updCore 3 fun k => k.updArr 0 fun x =>
  { x with mma := some { op := tMmaOp, k := 1, emit := e, done := true }, ringS := 2, ringFree := 2, issuedS := 2 }
def tEmit : EmitW := { id := 0, op := 0, base := 1024, words := [1#32], spoil := false, ctr := 7, left := 0 }
def tDrain : DrainW := { id := 0, base := 64, strd := 32, rows := [], codes := [], add := false, trg := none, phase := 2, left := 0, got := [] }

/-- Core 3 with array 0 changed. -/
def tArr (f : Arr → Arr) : State := (tMmaRun false).updCore 3 fun k => k.updArr 0 f

/-- A read of a line of bank 5 in home region 2, and a READY terrace 0 with scrub and self-test on. -/
def tLine : BankReq :=
  { port := .homeT, age := 9, write := false, aadd := false, word := 2 * 2 ^ 20 + 5 * 4, data := [], bmask := 0#16, spoil := 0#4, who := .t 3 0, src := 3 }
def tTerr : State := State.reset.updTerr 0 fun t => { t with ready := true, scrub := true, bist := true }

/-- Region 0: FINE, 576 GiB, partition 5 (the example of R159); core 3 reads a unit of it. -/
def tRegion : Region := { valid := true, map := 0, sel := 0, chan := 0, part := 5, size := 9216, base := 0, soff := 0 }
def tHbm : State := State.reset.updHbm fun h => { h with rgns := [(0, tRegion)] }
def tUnit : UnitReq :=
  { id := 1, who := .core 3, group := 0, addr := 0x12345660, write := false, data := [], mask := 0#32, spoil := 0#8, part := 5, input := 0, cyc := 10 }
def tHU : HUnit := { req := tUnit, st := 6, so := 0x1845C60, rgn := 0, gen := 0 }
def tWaitU : State := tHbm.updHbm fun h => { h with waitq := [tHU] }
def tOffer : State := tHbm.updHbm fun h => { h with offer := [tHU] }
def tServe : State := tHbm.updHbm fun h => { h with pcq := [(30, tHU)] }
def tStackOk : State := tHbm.updStack 6 fun k => { k with st := 1, scrub := true }

/-- A long command with handle 7 of the tray's queue, and a REGION_SET it started. -/
def tLong (opc : Nat) (d : Desc) : Long := { idx := 7, gen := 0, tag := 0x51#32, q := 8190, sid := 0, opc := opc, sqhead := 1, noirq := false, d := d }
def tSet : State :=
  (tHbm.updHbm fun h => { h with sets := [{ n := 0, hnd := 7, ent := tRegion, live := true }] }).updHost fun h => { h with longs := [tLong 0x100 []] }

/-- A SEND cell of partition 5 to queue 77, and LID 4 UP with that cell waiting on VC 0. -/
def tCell : Cell :=
  { src := 9, dest := 0, typ := 1, gen := 1, epoch := 0, vc := 0, qtag := 77, flags := 1#8, len := 17, part := 5, msgoff := 0,
    payload := List.replicate 17 3#8, rsv := false }
def tUp : State := State.reset.updLid 4 fun k =>
  { k with st := .up, w := 4, wmask := 15#17, repMask := 15#17, rmask := 15#17, peer := 9, part := 5, shared := 100, resv := [(0, 16)], outq := [(0, 0, tCell)] }
def tInj : InjReq := { vc := 0, dest := 12, typ := 1, qtag := 77, flags := 1#8, part := 5, msgoff := 0, payload := [1#8], lid := 4 }
def tCtl : List Byte :=
  frameBytes { tCell with dest := 0, typ := 0xF0, len := 80, flags := 0#8, payload := (tUp.lid 4).ctlPayload } 0 0
def tLink : State :=
  ((State.reset.updFab fun f => { f with cur := { f.cur with links := [(4, { port := 0, peer := 9, part := 5 })] } }).updLight fun b =>
    { b with sets := [(0, 0x00040009#32)] }).updPort 0 fun x => { x with st := .ready }

/-- Messages at a target: one served, one refused, one waiting; one sent; three completions held for queue 201. -/
def tIn : InMsg :=
  { lid := 4, cell := tCell, woff := 0, mlen := 1, rqtag := 2, orig := 0, data := [], done := 0, last := true, waits := false, buf := none,
    refuse := none, acked := false }
def tOutM : OutMsg := { slot := 1, typ := 1, q := 200, tag := 0x77#32, sqh := 3, dev := 0, len := 64, got := 0, sent := true, use := 0, part := 5 }
def tMsgs : State :=
  ((State.reset.updFab fun f => { f with
    inMsgs := [tIn, { tIn with refuse := some 0x103 }, { tIn with waits := true }, { tIn with refuse := some 0x103, acked := true }]
    outMsgs := [tOutM]
    holds := [{ q := 201, node := 7, tag := 1#32, len := 1, status := 2 }, { q := 201, node := 3, tag := 2#32, len := 1, status := 2 }, { q := 201, node := 5, tag := 3#32, len := 1, status := 2 }] }).updQue
      200 fun e => { e with typ := 4, bnone := false, bindq := 1 }).updQue 201 fun e => { e with typ := 5, bnone := false, bindq := 1, batch := 2 }
def tEpoch : State := State.reset.updFab fun f => { f with old := some TabSet.empty, oldEp := 2, inj := [(2, 5)], dlv := [(2, 2)] }

/-- A comb input that is OK; a device past start-up with input A OK. -/
def tComb : CombRead := { lines := List.replicate 17 900, total := 2130, fell3 := false, low10s := false }
def tLit : State :=
  (State.reset.updLight fun b => { b with aSt := 1 }).updMod fun m => { m with step := 11 }

/-- A marker of node 9 on line 3, built to Table 8-4; line 3 of port 0 drops in set 0 from node 9; the same line in CAL. -/
def tMark : List Byte :=
  let m : List Byte := natLe 0x5AC3 2 ++ natLe 9 2 ++ [3#8, BitVec.ofNat 8 (3 + 32)] ++ natLe 100 2 ++ natLe 1 2 ++ List.replicate 4 0#8
  m ++ natLe (crc16 m) 2
def tDrop : State :=
  (State.reset.updLight fun b => { b with sets := [(3, 0x00040009#32)] }).updLine 0 3 fun x => { x with rxr := .drop }
def tCal : State := State.reset.updLine 0 3 fun x => { x with rxr := .cal }
def tSoak : SoakRead := { ber7 := 1000, corr := 0, unc := 0, mism := 0, power := -2030 }

/-- Port 0, READY and soaked, whose line 0 drops and adds to the neighbour 9. -/
def tSpare (r : Nat) : State :=
  (State.reset.updLight fun b => { b with sets := [(0, 0x00040009#32)] }).updPort 0 fun x =>
    { x with st := .ready, nbr := some 9, soaked := true, rot := r }

/-- A PSW to set 3, at step `n`, drain counter 5, released at once. -/
def tPswEnt : Desc := [0x141#32, 0#32, 0#32, 0#32, 0#32, 0x00005003#32, 6#32, 0#32, 0#32]
def tPsw (n : Nat) : State := State.reset.updLight fun b => { b with swEnt := some (300, tPswEnt), swStep := n }

/-- The job of `tJob`, whose counters are 0 to 63. -/
def tOwner : State := State.reset.updHost fun h => { h with job := some tJob }

/-- List 300 on engine 2, in the scratchpad, with one entry of opcode `o` at its head; both trees of pair 0 valid with this
device as their root and no child. -/
def tTree : TreeEnt := { TreeEnt.none with valid := true, size := 1 }
def tTol (o : Nat) : State :=
  ((tOwner.updQue 300 fun e => { e with typ := 6, st := 1, loc := 2, log2n := 4, base := 0, tail := 1, eng := 2 }).updFloor
    fun f => { f with ram := f.ram.setWord 0 (BitVec.ofNat 32 o) false }).updColl fun c => { c with plan := [(0, tTree), (1, tTree)] }

/-- A SUM32 reduction of two elements on tree A of pair 0, at a leaf whose parent is LID 4. -/
def tRedEnt : Desc :=
  [0x441#32, 0#32, 0#32, 0#32, 0x00050000#32, BitVec.ofNat 32 (1 + 2 * 2 ^ 8 + 2 * 2 ^ 12), 0#32, 0#32, 64#32, 0#32, 0#32, 0#32, 2#32, 0#32, 0#32, 0#32]
def tElem : Elem := { bytes := [1#8, 2#8, 3#8, 4#8], spoil := false, marks := [] }
def tRedRun : CollRun :=
  { cid := 5, opc := 0x441, q := 300, eng := 2, ent := tRedEnt, tp := 0
    a := { TreeRun.init false false with c0 := [(0, tElem), (1, tElem)] }
    b := TreeRun.init false false, at_ := 0 }
def tRedDown : CollRun := { tRedRun with a := { tRedRun.a with dnq := [(0, { idx := 0, units := [tElem] })] } }
def tRed : State :=
  (((tUp.updLid 4 fun k => { k with resv := [(6, 16), (8, 16)], outq := [] }).updTrain fun t => { t with n := 2 }).updColl fun c =>
    { c with plan := [(0, { tTree with parent := 4, child0 := 4, rank := 1, size := 1 }), (1, tTree)], runs := [tRedRun] })
def tSlot : CSlot := { tp := 0, tree := 0, ring := 2, idx := 0, lid := 4, cell := { tCell with typ := 0x1D, qtag := 5, vc := 8, payload := [] } }
def tRecv : State := tRed.updColl fun c => { c with slots := [tSlot] }

/-- A VOTE on pair 0 at the root; a plan under census on pair 1. -/
def tVoteRun : CollRun := { tRedRun with opc := 0x443, ent := 0x443#32 :: tRedEnt.tail }
def tVote : State := (tTol 0x443).updColl fun c => { c with runs := [tVoteRun] }
def tPlanCmd : Desc := [0x503#32, 0#32, 0#32, 0#32, 0#32, 2#32]
def tCensus : State :=
  (State.reset.updColl fun c => { c with newPlan := some ([], 7) }).updHost fun h => { h with longs := [tLong 0x503 tPlanCmd] }

/-- One stage with one F and one B on core 3, one microbatch, device 0 of 1; the job in RUN in a phase of its attempt. -/
def tTab : StageTab :=
  { pidx := 0, pm1 := 0, v := 1, voteTp := 0, optSlot := 0, optNm1 := 0, m := 1, mentee := 0, buddy := 0, rctr := 8, gctr := 9,
    gthr := 0, rthr := 0, logwin := 1, optOpc := 0x202, shardLen := 1, shard := 0, logBase := 0, logSize := 16, aux := 0, auxw := 0,
    crstN := 0, crstB := 0, stages := [{ Stage.none with fopc := 0x200, bopc := 0x201, cbase := 3 }], states := [], tq := [], tpl := [] }
def tTrain (ph : Nat) : State :=
  (tOwner.updTrain fun t => { t with
    tab := some tTab, js := .run, train := true, launched := true, phase := ph, ws := if ph = 0 then .none_ else .open_, mirSent := true }).updQue
    100 fun e => { e with typ := 3, st := 1, loc := 2, log2n := 4, base := 1024, core := 3, slot := 0 }
def tItem : Item := { q := 100, tag := 1#32, home := 0, notify := false, job := none }

/-- A replacement of node 2, its image, and a committed GRAD record of step n. -/
def tRepl (js : JState) (st : Nat) : State :=
  (tTrain 0).updTrain fun t => { t with js := js, repl := { t.repl with st := st, lnode := 2, drain := true } }
def tImg : ImageRead := { kind := 0, lnode := 2, step := 4, e := 16, clean := 0, nchunk := 1, good := true, spoiled := false, regions := [], log := none }
def tRec (n : Nat) : List Byte :=
  let h := recHeader 1 2 (BitVec.ofNat 64 n) 0#32 16 0 [1#8, 2#8]
  h.take 5 ++ [1#8] ++ h.drop 6 ++ [1#8, 2#8]

/-- A replay whose next input is one byte. -/
def tInput : InputRec := { order := 0, srck := 1, len := 1, obj := 0, off := 0, dst := 64, dig := (treeHash [7#8]).take 24, data := [] }
def tFeed : State := (tTrain 2).updDet fun d => { d with replay := true, feed := [tInput] }

/-- The hub runs and the host's BARs are open; queues 300 (ENABLED producer) and 302 (a CEQ with two records). -/
def tOpen : State := (State.reset.updMod fun m => { m with standby := true }).updHost fun h => { h with cfgOn := true }
def tQue : State :=
  ((tOpen.updQue 300 fun e => { e with typ := 1, st := 1, log2n := 4 }).updQue 302 fun e => { e with typ := 2, st := 1, log2n := 4, tail := 2 }).updHost
    fun h => { h with reads := [{ tag := 5, use := 0, q := 300, addr := 0, len := 64, dst := 0 }]
                      recs := [(302, finalRec (tLong 0x100 []) 2 0#32 0#32 0#32 0#32)] }
def tTray : State := tOpen.updHost fun h => { h with i3cAddr := some 8 }

/-- READY with host session 1, its HSQ 300 with queue 301 beside it, and the admin queue open; with region 0 mapped, whose units' checks find nothing; with its job
in RUN; with long command 7 in progress. -/
def tHost : State :=
  tOpen.updHost fun h => { h with
    ready := true, sess := [(1, { v13 := false, evq := 1, unlocked := false })]
    qs := [(0, { QEnt.free with typ := 1, st := 1, log2n := 4 }), (1, { QEnt.free with typ := 2 }),
           (300, { QEnt.free with typ := 1, st := 1, log2n := 4, sid := 1, bindq := 1, bnone := false }),
           (301, { QEnt.free with typ := 1, st := 1, sid := 1, log2n := 4 }), (8190, { QEnt.free with typ := 1, st := 1, log2n := 4 })] }
def tHostMem : State := tHost.updHbm fun h => { h with rgns := [(0, tRegion)] }
def tRunning : State := (tHost.updTrain fun t => { t with js := .run, sid := 1, launched := true }).updHost fun h => { h with job := some tJob }
def tHandle : State := tHost.updHost fun h => { h with longs := [{ tLong 0x110 [] with q := 300, sid := 1 }] }
/-- QUE_CREATE of a CEQ of 16 entries in host memory, number 302. -/
def tNewQue : Desc :=
  [0x10#32, 0#32, 302#32, BitVec.ofNat 32 (2 * 2 ^ 29 + 4 * 2 ^ 19 + 1 * 2 ^ 13 + 0x1FFF), BitVec.ofNat 32 (2 ^ 19), 0x1000#32, 0#32, 0#32, 0#32]
/-- PROG_LOAD of one bundle to cores 510 and 511; a job configuration block with every field 0; a tree of a device alone. -/
def tLoad : Desc := [0x200#32, 0#32, 0#32, 0#32, 32#32, 0#32, BitVec.ofNat 32 (2 * 2 ^ 16 + 510), 0#32]
def tBlock (n : Nat) : List Byte := List.replicate 4 0#8 ++ [2#8, 0#8] ++ List.replicate (n - 6) 0#8
def tTreeA : TreeEnt := { TreeEnt.none with valid := true, size := 1, slots := 16 }
def tTreeBytes : List Byte :=
  natLe (2 ^ 31 + 0x7F * 2 ^ 24 + 0x7F * 2 ^ 17 + 0x7F * 2 ^ 10) 4 ++ natLe (1 * 2 ^ 2) 4 ++ natLe (16 * 2 ^ 6) 4 ++ natLe 0 4
def tPlanned : State := tHost.updFab fun f => { f with l2p := [(0, 0)] }
/-- A table set of a device alone, and a pass set whose ports are dark but for the spare. -/
def tTables : List Byte := [0#8, 0#8, 0#8, 0#8, 1#8, 1#8, 1#8, 0#8] ++ List.replicate 248 0#8
def tPass : List Byte :=
  (List.range 6).flatMap (fun _ => (List.range 17).flatMap fun l => natLe (if l = 16 then 0x007E0000 else 0x50FF0000 - 0x00800000) 4) ++ List.replicate 104 0#8
/-- A job of session 1 that has committed a step, with a storage target. -/
def tStep : State :=
  (tRunning.updTrain fun t => { t with tab := some tTab, step := 5#64, js := .loaded }).updHost fun h => { h with
    job := some { tJob with targets := [{ gid := 0, dqpn := 0, port := 0, rkey := 0, rbase := 0 }] } }

/-! ### Well-formedness: a term each check refuses, and one it takes -/

/-- A unit number one past its range (R6, R14): core, array, bank, mesh stop, plane and output, clip and lane group, regulator,
stack, channel, region, LID, port, line, queue, tree pair, tree, counter bank, droop domain, sensor, Ethernet port. -/
theorem test_wf_unit : [Instr.bundleIssue 512 0 false, .mmaStart 512 0, .mmaStart 0 4, .bankAccess 512 0 0 ⟨[], []⟩, .bankAccess 0 32 0 ⟨[], []⟩,
    .meshFlitArrival 512 0 0 0, .meshFlitArrival 0 2 0 0, .meshFlitArrival 0 0 5 0, .bondReplay 519 0, .bondReplay 0 336,
    .bondCreditReturn 519 0, .bondCreditReturn 0 67, .bondTransferReceive 0 0 ⟨[], [], some 17, false⟩,
    .bondTransferReceive 0 0 ⟨List.replicate 5 0#32, [], none, false⟩, .regulatorAdmit 16 0, .pcQueueAccept 12 0 0, .pcQueueAccept 0 64 0, .hbmRefresh 12 0,
    .regionSetDrained 64, .frameSend 96 0, .markerAbsentTimeout 6 0 0, .markerAbsentTimeout 0 17 0, .spareRotationStart 6 0, .soakEnd 0 (some 17) ⟨0, 0, 0, 0, 0⟩,
    .detseqBatchRelease 8192, .tolEntryStart 8193, .collCellSend 16 0 false, .collCellSend 0 2 false, .voteRootTimeout 2 0, .counterRequest 16 0,
    .ceqDoorbell 8192 0 4 0#64, .completionRecordWrite 8192, .droopDetect 12, .thermalSample 31 0, .thermalSample 0 256,
    .ethernetLinkOrFrameError 4 false, .balancingTake [(0, 0), (512, 0)] [] 0].all (fun i => !i.wf) = true := by decide

/-- A frame of 263 bytes, a marker of 15, a descriptor of 15 words (R185, R220, R343). -/
theorem test_wf_size : [Instr.controlFrameReceive 0 0 (List.replicate 263 0#8) ⟨0, 0, 0⟩, .frameReceive 0 0 0 (List.replicate 263 0#8) false ⟨0, 0, 0⟩,
    .frameReceive 0 17 0 (List.replicate 264 0#8) false ⟨0, 0, 0⟩, .markerReceive 0 0 (List.replicate 15 0#8), .nop 300 (List.replicate 15 0#32),
    .nop 8192 (List.replicate 16 0#32)].all (fun i => !i.wf) = true := by decide +kernel

/-- The last unit of each range is taken. -/
theorem test_wf_takes : [Instr.bundleIssue 511 0 false, .mmaStart 511 3, .bankAccess 511 31 0 ⟨[], []⟩, .meshFlitArrival 511 1 4 0, .bondCreditReturn 518 66,
    .bondTransferReceive 518 335 ⟨List.replicate 4 0#32, [], some 16, false⟩, .bondReplay 518 335,
    .regulatorAdmit 15 0, .pcQueueAccept 11 63 0, .regionSetDrained 63, .frameSend 95 0, .markerAbsentTimeout 5 16 0, .tolEntryStart 8192,
    .collCellSend 15 1 false, .counterRequest 15 0, .nop 8191 (List.replicate 16 0#32), .thermalSample 30 255,
    .controlFrameReceive 95 16 (List.replicate 264 0#8) ⟨0, 0, 0⟩].all (·.wf) = true := by decide +kernel

/-! ### StepRunsTheFrontCommand -/

theorem wit_step_idle : State.reset.pending = [] := rfl

/-! ### CoreIssuesItsNextBundle -/

/-- Core 3 may issue its next bundle; nothing stalls it and no cause applies, now or when it issues. -/
def tReady (s : State) : Bool :=
  (s.core 3).st == .run && decide ((s.core 3).pc < (s.core 3).extent) && !s.stalled 3 (s.core 3).bundle &&
  (lowestCause (s.causes 3 (s.core 3).bundle false)).isNone && (lowestCause (s.causes 3 (s.core 3).bundle true)).isNone
theorem wit_issue_plain : tReady (tRun 0#64 0#64) = true ∧ tOp (slotT ((tRun 0#64 0#64).core 3).bundle) = 0 := by decide
theorem wit_issue_wait : tReady (tRun 0#64 tWait) = true ∧ tOp (slotT ((tRun 0#64 tWait).core 3).bundle) = 0x1B ∧
    (tRun 0#64 tWait).ctrMine (tCtr (slotT ((tRun 0#64 tWait).core 3).bundle)) = true ∧ ((tRun 0#64 tWait).core 3).waitOk = false := by decide
theorem wit_issue_fence : tReady (tRun 0#64 tFence) = true ∧ tOp (slotT ((tRun 0#64 tFence).core 3).bundle) = 0x20 := by decide
theorem wit_issue_getw : tReady (tRun 0#64 tGetw) = true ∧ tOp (slotT ((tRun 0#64 tGetw).core 3).bundle) = 0x28 ∧
    (tRun 0#64 tGetw).headQueue 3 = none ∧ ((tRun 0#64 tGetw).core 3).idleq = false := by decide
theorem wit_issue_getw_takes : let s := tPosted.updCore 3 fun k => { k with idleq := false }
    tReady s = true ∧ s.headQueue 3 = some 100 ∧ (s.core 3).tpend = false ∧ (s.core 3).held = false ∧
    entryCheck ((s.entryAt (.core 3) 100 (s.que 100).head).2.getD 0 (0#32, false)).1 = none := by decide +kernel
theorem wit_issue_stalled : tStalled.stalled 3 (tStalled.core 3).bundle = true ∧ (tStalled.core 3).st = .run := by decide

/-! ### ScalarSlotWritesItsResult -/

theorem wit_scalar : ((tRun tAdd 0#64).core 3).st = .run := by decide
theorem wit_scalar_slots : aluOp (sOp (slotS ((tRun tAdd 0#64).core 3).bundle)) = true ∧ sf (slotS ((tRun tAdd 0#64).core 3).bundle) 41 32 = 0 ∧
    slotV ((tRun tAdd 0#64).core 3).bundle = 0#64 ∧ slotM ((tRun tAdd 0#64).core 3).bundle = 0#64 ∧ slotT ((tRun tAdd 0#64).core 3).bundle = 0#64 ∧
    ((tRun tAdd 0#64).core 3).tacc = [] ∧ (tRun tAdd 0#64).coll.reqs = [] ∧ sD (slotS ((tRun tAdd 0#64).core 3).bundle) = 5 := by decide
theorem wit_scalar_s0 : sD (slotS ((tRun tAddS0 0#64).core 3).bundle) = 0 ∧ aluOp (sOp (slotS ((tRun tAddS0 0#64).core 3).bundle)) = true := by decide

/-! ### CoreExceptionIsPrecise -/

theorem wit_exc_pc : let k := ((tRun 0#64 0#64).updCore 3 fun k => { k with pc := 9 }).core 3
    k.item = none ∧ k.extent ≤ k.pc ∧ k.st = .run := by decide
theorem wit_exc_trap : lowestCause ((tRun tTrap 0#64).causes 3 ((tRun tTrap 0#64).core 3).bundle false) = some (2, 0) ∧
    (tRun tTrap 0#64).stalled 3 ((tRun tTrap 0#64).core 3).bundle = false ∧ (tRun tTrap 0#64).winLast 7 3 = false := by decide
/-- An EMR with no slot to return: cause 0x01 in the M slot, in the cycle it issues (R91, 0x08). -/
def tEmr : State :=
  { State.reset with cores := [(3, { Cor.init with st := .run, extent := 2, imem := [(0, (BitVec.ofNat 256 (0x15 * 2 ^ 58 + 1 * 2 ^ 53)) <<< 128)],
                                                   sreg := [(1, 1#64)] })] }
theorem wit_exc_issue : lowestCause (tEmr.causes 3 (tEmr.core 3).bundle false) = none ∧ tEmr.stalled 3 (tEmr.core 3).bundle = false ∧
    lowestCause (tEmr.causes 3 (tEmr.core 3).bundle true) = some (1, 2) ∧ tOp (slotT (tEmr.core 3).bundle) = 0 := by decide +kernel
theorem wit_exc_store : let s := tEmr.updFlt fun f => { f with cnts := [(7, 3, 0), (7, 3, 0)] }
    (s.core 3).item = none ∧ (s.core 3).retired = false := by decide

/-! ### CoreTransfersAndWaits -/

theorem wit_transfer : let s := tStalled.updCore 3 fun k => { k with tacc := [tStore, tLoaded, { tStore with left := 1 }] }
    (s.core 3).tacc[0]? = some tStore ∧ tStore.left = 0 ∧ tStores tStore.top = true ∧ (s.core 3).tacc[1]? = some tLoaded ∧
    tLoaded.left = 0 ∧ tLoaded.got = [(tLoaded.base, 9#32, false)] ∧ (s.core 3).tacc[2]? = some { tStore with left := 1 } := by decide
theorem wit_copy : let s := tStalled.updCore 3 fun k => { k with hacc := [{ tStore with top := 0x10 }, { tStore with top := 0x10, left := 4 }] }
    (s.core 3).hacc[0]? = some { tStore with top := 0x10 } ∧ (s.core 3).hacc[1]? = some { tStore with top := 0x10, left := 4 } := by decide
theorem wit_wait : (tWaiting.core 3).waiting = true ∧ (tWaiting.core 3).waitOn = some (7, 0) ∧ 0 ≤ (tWaiting.ctrSeen 7).toNat := by decide
theorem wit_wait_limit : let s := tWaiting.updCore 3 fun k => { k with waitOn := some (7, 1) }
    (s.core 3).waitOk = false ∧ (s.ctrSeen 7).toNat < 1 ∧ (s.core 3).waitLimit = 5#32 ∧ (s.core 3).item = none := by decide

/-! ### CoreTakesWork -/

theorem wit_getw_none : (getwScan (tIdle.waitingEntries 3 + 1) tIdle 3).2 = none ∧ (tIdle.core 3).wantsWork = true ∧
    lowestCause (tIdle.causes 3 (tIdle.core 3).bundle true) = none := by decide
theorem wit_getw_some : ((getwScan (tPosted.waitingEntries 3 + 1) tPosted 3).2.map fun e => (e.1, e.2.1)) = some (100, 0) ∧
    (tPosted.core 3).wantsWork = true := by decide
theorem wit_balance : (tIdle.host.job.map fun j => (j.dlb, j.detmode)) = some (false, 0) ∧ ∀ c ∈ [3, 4], c < 512 := by decide
/-- Core 3 is idle with its queues empty; core 2 of its group has had a movable entry at its head for the age of 2 cycles. -/
def tMoveJob : JobCfg := { tJob with dlb := true }
def tMove : State :=
  let s := (tIdle.updQue 100 fun e => { e with typ := 3, st := 1, loc := 2, log2n := 4, base := 0, tail := 1, core := 2, slot := 0 }).updFloor fun f =>
    { f with ram := f.ram.setWord 0 (BitVec.ofNat 32 (2 ^ 20 + 0x200)) false }
  { s with host := { s.host with job := some tMoveJob }, cores := s.cores ++ [(2, { Cor.init with st := .run })] }
theorem wit_balance_on : tMove.queuesEmpty 3 = true ∧ (tMove.core 3).wantsWork = true ∧ tMove.balCandidate tMoveJob 3 [(100, 2)] = some (100, 2) ∧
    tMoveJob.dlb = true ∧ tMoveJob.detmode = 0 ∧ lowestCause (tMove.causes 3 (tMove.core 3).bundle true) = none ∧
    entryCheck (((tMove.entryAt (.core 3) 100 (tMove.que 100).head).2).getD 0 (0#32, false)).1 = none := by decide +kernel
theorem wit_balance_owner : tMove.balCandidate tMoveJob 3 [(100, 1)] = none := by decide +kernel

/-! ### CoreSelftestWindow -/

theorem wit_selftest_select : (tIdle.core 3).retired = false ∧ (if (tIdle.core 3).tcancel then 1 else ((tIdle.host.job.map (·.testInt)).getD 600)) ≤ 600 ∧
    ∀ d < 64, (tIdle.core d).tpend = false ∧ (tIdle.core d).st ≠ .test := by decide
theorem wit_selftest_enter : ((tIdle.updCore 3 fun k => { k with tpend := true }).core 3).item = none ∧
    tOp (slotT ((tIdle.updCore 3 fun k => { k with tpend := true }).core 3).bundle) = 0x28 := by decide
theorem wit_selftest_start : (tIdle.updCore 3 fun k => { k with st := .test }).coreQuiet 3 = true := by decide
theorem wit_selftest_end : ((tIdle.updCore 3 fun k => { k with st := .test, testing := true }).core 3).testing = true := by decide

/-! ### MatrixOperationsStartAndComplete -/

theorem wit_fld : (tFld.core 3).fldq = [tFldOp] ∧ (tFld.core 3).fldRun = none ∧ fldFree (tFld.core 3) tFldOp = true := by decide
theorem wit_fld_run : ((tFld.updCore 3 fun k => { k with fldRun := some { op := tFldOp, left := 0, got := [] } }).core 3).fldRun =
    some { op := tFldOp, left := 0, got := [] } := by decide
theorem wit_mma : ((tMma.core 3).arr 0).opq = [tMmaOp] ∧ mopOf tMmaOp.raw = 8 ∧ ((tMma.core 3).arr 0).mma = none ∧
    mmaFree (tMma.core 3) 0 tMmaOp = true ∧ 0 < (tMma.gate 0).eff := by decide
theorem wit_mma_done : (((tMmaRun false).core 3).arr 0).mma = some ({ op := tMmaOp, k := 1, emit := false, done := true } : MmaRun) ∧
    0 < ((tMmaRun false).gate 0).eff := by decide

/-! ### MatrixEmitsAndDrains -/

theorem wit_emission : (((tMmaRun true).core 3).arr 0).mma = some ({ op := tMmaOp, k := 1, emit := true, done := true } : MmaRun) ∧
    0 < (((tMmaRun true).core 3).arr 0).ringFree ∧ 0 < ((tMmaRun true).gate 0).eff := by decide
theorem wit_emission_written : (((tArr fun x => { x with emits := [tEmit] }).core 3).arr 0).emits = [tEmit] ∧ tEmit.left = 0 := by decide
theorem wit_drain : (((tOpq 0x10).core 3).arr 0).opq = [tMOp 0x10] ∧ mopOf (tMOp 0x10).raw = 0x10 ∧ (((tOpq 0x10).core 3).arr 0).mma = none ∧
    drnFmt (tMOp 0x10).raw = 0 ∧ (((tOpq 0x10).core 3).arr 0).vec = none ∧ 0 < ((tOpq 0x10).gate 0).eff := by decide
/-- A Q16 drain; a Q8 drain whose scale vector has come. -/
theorem wit_drain_ready : let o : MOp := { tMOp 0x10 with raw := BitVec.ofNat 64 (0x10 * 2 ^ 58 + 2 ^ 49) }
    let k := ((tOpq 0x10).updCore 3 fun k => k.updArr 0 fun x => { x with opq := [o] }).core 3
    (k.arr 0).opq = [o] ∧ mopOf o.raw = 0x10 ∧ drnFmt o.raw ≠ 0 ∧
    ((((tOpq 0x10).updCore 3 fun k => k.updArr 0 fun x => { x with vec := some { id := 0, left := 0, got := [] } }).core 3).arr 0).vec =
      some { id := 0, left := 0, got := [] } := by decide
theorem wit_drain_done : (((tArr fun x => { x with drains := [tDrain] }).core 3).arr 0).drains = [tDrain] ∧ tDrain.phase = 2 ∧ tDrain.left = 0 := by decide
theorem wit_emc : (((tOpq 0x14).core 3).arr 0).opq = [tMOp 0x14] ∧ mopOf (tMOp 0x14).raw = 0x14 ∧ (((tOpq 0x14).core 3).arr 0).mma = none ∧
    0 < ((tOpq 0x14).gate 0).eff := by decide
theorem wit_mclr : (((tOpq 0x18).core 3).arr 0).opq = [tMOp 0x18] ∧ mopOf (tMOp 0x18).raw = 0x18 ∧ (((tOpq 0x18).core 3).arr 0).mma = none ∧
    0 < ((tOpq 0x18).gate 0).eff := by decide

/-! ### BankGrantsOneAccess -/

theorem wit_bank : let k := (tTerr.updBank 2 5 fun k => { k with homeT := [tLine] }).bank 2 5
    k.homeT = [tLine] ∧ k.homeM = [] ∧ k.mesh = [] ∧ k.maint = [] ∧ k.busy ≤ 9 ∧ tTerr.regionUp 2 = true ∧ tLine.port = .homeT ∧
    tLine.who ≠ .slice ∧ tLine.word < 2 ^ 29 ∧ tTerr.bankDead (regionOf tLine.word) (bankOf tLine.word) = false ∧
    Memory.wf tTerr.floor.ram.bytes = true ∧ bankGrant k 9 = some (0, false) := by decide
theorem wit_maint : let m : BankReq := { tLine with port := .maint, who := .back }
    ((tTerr.updBank 2 5 fun k => { k with maint := [m], homeT := [tLine] }).bank 2 5).maint = [m] ∧ m.age + 256 ≤ 300 ∧ m.aadd = false ∧
    bankGrant ((tTerr.updBank 2 5 fun k => { k with maint := [m], homeT := [tLine] }).bank 2 5) 300 = some (3, false) := by decide
theorem wit_scrub : (tTerr.terr (2 / 128)).scrub = true ∧ (tTerr.terr (2 / 128)).bist = true ∧ tTerr.bankDead 2 5 = false ∧
    (tTerr.bank 2 5).homeT = [] ∧ (tTerr.bank 2 5).maint = [] := by decide
theorem wit_scrub_waits : let k := (tTerr.updBank 2 5 fun k => { k with homeT := [tLine] }).bank 2 5
    k.homeT ++ k.homeM ++ k.mesh ≠ [] ∧ (∀ q ∈ k.homeT ++ k.homeM ++ k.mesh, q.port ≠ .maint) ∧ k.maint = [] := by decide

/-! ### FloorWiresMoveAndRepair -/

/-- Every terrace READY, with one flit at stop `p` of plane `n`. -/
def tFloorUp : State := (List.range 4).foldl (fun (a : State) i => a.updTerr i fun t => { t with ready := true }) State.reset
def tFlit (d : Nat) : Flit := { inp := 0, age := 3, dst := d, req := some tLine, rep := none }
theorem wit_mesh : tFloorUp.floorUp = true ∧ meshOut 0 63 ≠ 0 ∧ meshOut 0 63 < 5 ∧ meshOut 7 7 = 0 ∧
    tget [] (tFloorUp.updFloor fun f => { f with stops := [(1, [tFlit 63])] }).floor.stops (2 * 0 + 1) = [tFlit 63] := by decide
theorem wit_mesh_reply : let f : Flit := { tFlit 7 with req := none, rep := some (.t 3 0, [(64, 9#32, false)]) }
    tget [] (tFloorUp.updFloor fun x => { x with stops := [(15, [f])] }).floor.stops (2 * 7 + 1) = [f] := by decide
theorem wit_mesh_far : meshOut 0 511 = 1 ∧ meshOut 511 0 = 2 ∧ stopXY 511 = (31, 15) ∧ stopAt 31 15 = 511 := by decide
theorem wit_bond : (tFloorUp.group 518 335).retry = false ∧ (tFloorUp.group 518 335).replay = [] ∧ (tFloorUp.group 518 335).fails < 3 ∧
    (tFloorUp.group 0 319).retry = false := by decide
theorem wit_bond_replay : let k := (State.reset.updGroup 518 335 fun k => { k with retry := true, replay := [⟨[], [], none, false⟩] }).group 518 335
    k.retry = true ∧ k.replay.length < 32 := by decide
theorem wit_bond_credit : let s := State.reset.updFloor fun f => { f with owed := [(1024 * 518 + 66, 1)] }
    0 < tget 0 s.floor.owed (1024 * 518 + 66) ∧ s.creditHeld 518 66 = false := by decide +kernel
theorem wit_bond_switch : let k := (State.reset.updGroup 518 335 fun k => { k with retire := some 16 }).group 518 335
    k.retire = some 16 ∧ k.retry = false ∧ k.replay = [] := by decide

/-! ### PartitionIsCheckedAtTranslation -/

/-- Unit requests of engine 1 and of the host; core 3 with an HGET whose one unit is at the same address. -/
def tEngUnit : UnitReq := { tUnit with who := .engine 1 }
def tHostUnit : UnitReq := { tUnit with who := .host, group := 3 }
def tHget : TAcc := { tStore with top := 0x10, dev := 0x12345660, units := 1, todo := [0], left := 2 }
def tCopying : State := tHbm.updCore 3 fun k => { k with hacc := [tHget] }
theorem wit_partition : tHbm.rgnAt tUnit.addr = some (0, tRegion) ∧ tHbm.groupFits tEngUnit = true ∧ tEngUnit.part = tRegion.part ∧
    tEngUnit.addr % 32 = 0 ∧ tEngUnit.addr < 2 ^ 40 ∧ tHbm.groupFits tHostUnit = true ∧ ({ tEngUnit with part := 6 } : UnitReq).part ≠ tRegion.part := by decide
theorem wit_partition_copy : (tCopying.core 3).copyUnit tUnit.addr = some (tHget, 0) ∧ tCopying.groupFits tUnit = true ∧
    tCopying.rgnAt tUnit.addr = some (0, tRegion) ∧ tRegion.part ≠ tCopying.fab.part ∧
    tRegion.part = ({ tCopying with fab := { tCopying.fab with part := 5 } } : State).fab.part := by decide

/-! ### InterleaveMapsKeepBytesApart -/

theorem wit_interleave : tRegion.selOk = true ∧ tRegion.size % 3 = 0 ∧ tRegion.covers 0x12345678 = true ∧
    tRegion.covers 0x12345679 = true := by decide
/-- The example of R159. -/
theorem test_fine_example : tRegion.place 0x12345678 = (6, 0x1845C78) ∧ chanOf 0x1845C78 = 28 ∧ pcOf 0x1845C78 = 0 := by decide

/-! ### DeviceMemoryRequestsPass -/

theorem wit_unmapped : State.reset.rgnAt tUnit.addr = none ∧ State.reset.groupFits tEngUnit = true ∧
    (({ tCopying with hbm := State.reset.hbm } : State).core 3).copyUnit tUnit.addr = some (tHget, 0) := by decide
theorem wit_regulator : oldest ((tWaitU.regFill 0 20).waiting 0) ((tWaitU.regFill 0 20).grp 0).rot reqCount (fun u => reqNo u.req.who) = some (tHU, false) ∧
    ((tWaitU.regFill 0 20).grp 0).rate = 0 := by decide +kernel
/-- A limit of 1 unit with a bucket below 160 fifths, with and without BORROW. -/
def tLimit (b : Bool) (n : Nat) : State := { tWaitU with hbm := { tWaitU.hbm with grps := [(0, { RGrp.init 0 with borrow := b, rate := 1, level := n })] } }
theorem wit_limit : 160 ≤ (((tLimit false 200).regFill 0 10).grp 0).level ∧ (((tLimit false 0).regFill 0 10).grp 0).level < 160 ∧ (((tLimit false 0).regFill 0 10).grp 0).rate ≠ 0 ∧
    (((tLimit true 0).regFill 0 5000).grp 0).borrow = true ∧ (tLimit true 0).mayBorrow tHU = true ∧ tHU.req.cyc + 4096 ≤ 5000 := by decide +kernel
theorem wit_accept : oldest (tOffer.hbm.offer.filter fun u => u.st == 6 && u.pc == 56) (tget 0 tOffer.hbm.pcRot (64 * 6 + 56)) 5 (fun u => u.req.input) =
    some (tHU, false) ∧ (tOffer.pcEntries 6 56).length < 64 ∧ tget 0 tOffer.hbm.accAt (64 * 6 + 56) ≤ 30 ∧
    cyclePermitted (tOffer.gate (16 + 6)).eff 30 = true := by decide
theorem wit_serve : tServe.mayServe 6 56 0 40 = some (30, tHU) ∧ tServe.pcEntries 6 56 = [(30, tHU)] ∧ tServe.unitHeld tHU = false ∧ 30 + 512 ≤ 600 ∧
    tServe.hbm.test = [] ∧ tServe.hbm.first = [] := by decide
theorem wit_serve_unit : let u : HUnit := { tHU with req := tEngUnit }
    u.req.write = false ∧ (tServe.stack u.st).st ≠ 3 ∧ (∀ c, u.req.who ≠ .core c) ∧ u.req.who ≠ .maint ∧ Memory.wf tServe.hbm.ram.bytes = true :=
  ⟨rfl, by decide, fun _ h => Requester.noConfusion h, by decide, by decide⟩

/-! ### DeviceMemoryIsMaintained -/

theorem wit_hbm_runs : tStackOk.stackRuns 6 = true ∧ (tStackOk.stack 6).scrub = true ∧ (tStackOk.stack 6).marked = [] ∧
    (tStackOk.stack 6).scrubDue ≤ 10 ∧ tStackOk.unitHeld (maintUnit 6 (32 * (tStackOk.stack 6).scrubAt) 0 10) = false := by decide
theorem wit_writeback : let s := tHbm.updHbm fun h => { h with pcq := [(30, maintUnit 6 0x1845C60 1 10)] }
    (s.pcEntries 6 (2 * chanOf 0x1845C60 + pcOf 0x1845C60)).findIdx? (fun x => x.2.isBack 6 0x1845C60) = some 0 ∧
    s.mayServe 6 (2 * chanOf 0x1845C60 + pcOf 0x1845C60) 0 40 = some (30, maintUnit 6 0x1845C60 1 10) ∧
    (maintUnit 6 0x1845C60 1 10).req.write = true := by decide
/-- The turn of pseudo-channel 0 of stack 6 is the bank group of its row 5; a slice runs there. -/
theorem wit_slice : let s := tStackOk.updHbm fun h => { h with sliceBg := [(64 * 6 + 0, rowBg (Config.hbmRowFirst 5 * 64 + 0))] }
    rowBg (Config.hbmRowFirst 5 * 64 + 0) = tget 0 s.hbm.sliceBg (64 * 6 + 0) % 4 ∧ s.hbm.sliceMs ≤ 50 ∧ s.stackRuns 6 = true := by
  refine ⟨?_, by decide, by decide⟩
  exact (Nat.mod_eq_of_lt (Nat.mod_lt _ (by decide : 0 < 4))).symm
theorem wit_slice_end : ({ tStackOk.hbm with test := [(6, 0, 2, 320)] } : Hbm).test.find? (fun x => x.1 == 6 && x.2.1 == 0) = some (6, 0, 2, 320) := by decide
theorem wit_region_drained : tSet.hbm.sets = [{ n := 0, hnd := 7, ent := tRegion, live := true }] ∧ tSet.unitsIn 0 = [] ∧
    tSet.longAt 7 = some (tLong 0x100 []) ∧ (tLong 0x100 []).idx = 7 := by decide

/-! ### CellsSurviveTheirFrame -/

theorem wit_cell : tCell.src < 65536 ∧ tCell.flags.toNat < 32 ∧ tCell.len = tCell.payload.length ∧ tCell.rsv = false ∧ tCell.gen < 4 := by decide

/-! ### FramesLeaveTheLid -/

theorem wit_inject : tUp.fencedPart tInj.part = false ∧ typClass tInj.typ = some (vcClassOf tInj.vc) ∧ vcRouted tInj.vc = true ∧ tInj.part ≠ 0 ∧
    typClass 0x30 = some (vcClassOf 12) ∧ vcRouted 12 = false ∧ (tUp.lid 4).st = .up ∧
    ({ tUp with fab := { tUp.fab with part := 5 } } : State).fab.part ≠ 0 := by decide
theorem wit_frame_send : (tUp.lid 4).replay = [] ∧ (tUp.lid 4).retry.length < (tUp.lid 4).window ∧ (tUp.gate (32 + (tUp.lid 4).port)).eff ≠ 0 ∧
    cyclePermitted (tUp.gate (32 + (tUp.lid 4).port)).eff 7 = true ∧ (tUp.lid 4).pick.isSome = true ∧
    ((tUp.updLid 4 fun k => { k with outq := [] }).lid 4).pick = none := by decide
theorem wit_frame_data : (tUp.lid 4).head 0 = some (0, 0, tCell) ∧ vcRouted 0 = true ∧ 0 < (tUp.lid 4).shared := by decide
theorem wit_frame_replay : let k := (tUp.updLid 4 fun k => { k with replay := [(9, tCell)], retry := [(9, tCell)] }).lid 4
    k.replay = [(9, tCell)] ∧ k.carries = true ∧ k.due = false ∧ k.retry ≠ [] ∧ k.replays < 7 := by decide
theorem wit_control : let s := tUp.updLid 4 fun k => { k with due := true, outq := [] }
    s.dataPick 4 = none ∧ (s.lid 4).due = true ∧ (s.lid 4).carries = true := by decide
theorem wit_mask : let k := (tUp.updLid 4 fun k => { k with newMask := some 3#17, lines := [(9, 1)] }).lid 4
    k.newMask = some 3#17 ∧ k.left 3#17 = true ∧ k.carries = true ∧ k.left 1#17 = false := by decide

/-! ### FramesArriveAtTheLid -/

theorem wit_frame : frameGood (frameBytes tCell 0 0) = true ∧ (frameBytes tCell 0 0).length = 264 ∧ fieldLe (frameBytes tCell 0 0) 256 2 = (tUp.lid 4).exp ∧
    cellFormatBad tCell = false :=
  ⟨frameGood_frameBytes _ _ _, by decide +kernel, by decide +kernel, by decide +kernel⟩
/-- The receiver found nothing, and one corrected codeword: the LID still carries frames and the line is no foreign one. -/
theorem wit_frame_line : ∀ n ∈ [0, 1], let u := (tUp.linkAt 5).lineRead (tUp.lid 4).port 2 ⟨n, 0, -2000⟩
    (u.lid 4).carries = true ∧ (u.line (tUp.lid 4).port 2).foreign_ = false ∧ (tUp.lid 4).st ≠ .fenced ∧ (u.lid 4).crcWin.2 < 8 := by decide +kernel
theorem wit_frame_seq : frameGood (frameBytes tCell 9 0) = true ∧ fieldLe (frameBytes tCell 9 0) 256 2 ≠ (tUp.lid 4).exp ∧
    ({ tUp with fab := { tUp.fab with part := 5 } } : State).partOk 4 tCell = true :=
  ⟨frameGood_frameBytes _ _ _, by decide +kernel, by decide⟩
theorem wit_frame_crc : frameGood (List.replicate 260 0#8 ++ natLe (crc32c (List.replicate 260 0#8) + 1) 4) = false :=
  frameGood_off _ (by rw [List.length_replicate])
theorem wit_control_frame : frameGood tCtl = true ∧ (tUp.lineRead 0 2 ⟨0, 0, 0⟩).ctlBad (cellOf tCtl) = false ∧
    nbit ((cellOf tCtl).payload.getD 70 0#8).toNat 0 = false :=
  ⟨frameGood_frameBytes _ _ _, by decide +kernel, by decide +kernel⟩
theorem wit_control_mask : ((((tUp.lid 4).takeCredits (cellOf tCtl).payload).takeMask (BitVec.ofNat 17 (fieldLe (cellOf tCtl).payload 72 8))
    (tUp.usable 0) false).target) ≠ 0#17 := by decide +kernel
theorem wit_control_none : (((tUp.lid 4).takeMask 0#17 (tUp.usable 0) false).target) = 0#17 := by decide +kernel
theorem wit_train : tLink.linkEnt 4 = some { port := 0, peer := 9, part := 5 } ∧ (tLink.lid 4).st = .down ∧ tLink.light.swPend = false ∧
    (tLink.port 0).open_ = true ∧ tLink.maskOf 0 (tLink.linesOf tLink.light.actSet 0 4) ≠ 0#17 ∧ tLink.mod.nodebad = false := by decide
theorem wit_training : ((tUp.updLid 4 fun k => { k with st := .training }).lid 4).st = .training ∧ nbit 2 1 = true ∧ nbit 1 1 = false := by decide
theorem wit_fence_drained : let k := (tUp.updLid 4 fun k => { k with st := .draining, fencing := true, outq := [] }).lid 4
    k.drained = true ∧ k.fencing = true ∧ ({ k with fencing := false, retire := true } : Lid).drained = true := by decide

/-! ### MessagesAreServedAndCounted -/

theorem wit_serve_message : tMsgs.fab.inMsgs[0]? = some tIn ∧ tIn.refuse = none ∧ tMsgs.fab.inMsgs[3]? = some { tIn with refuse := some 0x103, acked := true } ∧
    tMsgs.fab.inMsgs[1]? = some { tIn with refuse := some 0x103 } ∧ tIn.buf = none ∧ tMsgs.fab.inMsgs[2]? = some { tIn with waits := true } := by decide
theorem wit_lost : tMsgs.fab.outMsgs[0]? = some tOutM ∧ tOutM.sent = true ∧ tMsgs.ceqOf tOutM.q = some 1 ∧ tOutM.use = 0 ∧
    ({ tOutM with use := 1 } : OutMsg).sent = true := by decide
theorem wit_batch : (tMsgs.que 201).batch = 2 ∧ (tMsgs.fab.holds.filter fun h => h.q == 201).length = 3 ∧ tMsgs.ceqOf 201 = some 1 := by decide
theorem wit_epoch : tEpoch.fab.old = some TabSet.empty ∧
    (-3 : Int) + ((tget 0 tEpoch.fab.inj tEpoch.fab.oldEp : Nat) : Int) - ((tget 0 tEpoch.fab.dlv tEpoch.fab.oldEp : Nat) : Int) +
      tEpoch.lostSum TabSet.empty [] = 0 := by decide
/-- A NET_SEND of one byte of region 0 from a queue of partition 5. -/
def tSendD : Desc := [0x130#32, 0x77#32, 0#32, 2#32, 0x12345660#32, 0#32, 1#32] ++ List.replicate 9 0#32
def tSendQ (d : Desc) : State :=
  (tHbm.updQue 200 fun e => { e with typ := 4, st := 1, loc := 2, log2n := 4, base := 0, tail := 1, part := 5 }).updFloor fun f =>
    { f with ram := (d.take 7).zipIdx.foldl (fun m x => m.setWord x.2 x.1 false) f.ram }
theorem wit_net : (tSendQ tSendD).nsqHead 200 tSendD = true ∧ entryCheck (Desc.word tSendD 0) = none ∧ ((tSendQ tSendD).que 200).part ≠ 0 ∧
    (Desc.word tSendD 6).toNat = 1 ∧ netRsv tSendD 1 = false ∧ bitsOf (Desc.word tSendD 0) 15 0 = 0x12F + 1 ∧
    ((((tSendQ tSendD).entryAt .hub 200 0).1.popHead 200).fencedPart 5 = false) := by decide +kernel
theorem wit_net_admitted : ∀ x ∈ unitsOf 0x12345660 1,
    ((((tSendQ tSendD).entryAt .hub 200 0).1.popHead 200).admitUnit (.engine 0) 5 x).2.isSome = true := by decide +kernel
theorem wit_net_write : let d : Desc := 0x131#32 :: tSendD.tail
    (tSendQ d).nsqHead 200 d = true ∧ netRsv d 2 = false ∧ bitsOf (Desc.word d 0) 15 0 = 0x12F + 2 := by decide +kernel
theorem wit_net_get : let d : Desc := 0x132#32 :: tSendD.tail
    (tSendQ d).nsqHead 200 d = true ∧ netRsv d 3 = false ∧ bitsOf (Desc.word d 0) 15 0 = 0x132 := by decide +kernel
theorem wit_net_bad : ∀ t ∈ [1, 2, 3], let d : Desc := BitVec.ofNat 32 (0x12F + t) :: [0x77#32, 0x8000#32] ++ tSendD.drop 3
    (tSendQ d).nsqHead 200 d = true ∧ netRsv d t = true := by decide +kernel

/-! ### CombInputsAreMeasured -/

/-- Table 8-1: an input is ABSENT below −10.00 dBm in total, FAILED with a line below 6.00 dBm. -/
theorem wit_comb : combState tComb = 1 ∧ combState { tComb with total := -1001 } = 0 ∧ combState { tComb with fell3 := true } = 3 ∧
    combState { tComb with low10s := true } = 2 ∧ tLit.light.aSt = 1 ∧ tLit.mod.step = 11 ∧ tLit.light.sel = 0 ∧ State.reset.mod.step < 11 ∧
    ({ tLit with light := { tLit.light with aSt := 0 } } : State).light.bSt ≠ 1 := by decide
theorem wit_comb_aged : let s : State := { tLit with light := { tLit.light with aSt := 2, bSt := 1 } }
    s.light.sel = 0 ∧ s.light.aSt = 2 ∧ s.light.bSt = 1 := by decide
theorem wit_search : ∀ b, let s := (tLit.updMod fun m => { m with rails := true }).updPort 0 fun x => { x with st := .search, searched := b }
    (s.port 0).st = .search ∧ s.mod.rails = true ∧ (s.port 0).searched = b := by decide
theorem wit_telemetry : (State.reset.port 5).nbTx = none ∧ (State.reset.port 5).telem = 0 := by decide

/-! ### MarkersGuardTheirLines -/

theorem wit_marker : markerValid tMark = true ∧ (tDrop.line 0 3).rxr = .drop ∧ (tDrop.port 0).logical 3 = 3 ∧ (tDrop.line 0 3).susp = false ∧
    entPeer (tDrop.lineEnt 0 3) = fieldLe tMark 2 2 ∧ fieldLe tMark 5 1 % 32 = 3 ∧ (tDrop.line 0 3).foreign_ = false := by decide +kernel
theorem wit_marker_bad : markerValid (0#8 :: tMark.tail) = false := by decide +kernel
theorem wit_soak : soakPass tSoak = true ∧ soakPass { tSoak with unc := 1 } = false ∧ (tCal.line 0 3).rxr = .cal ∧
    (tCal.line 0 3).wait = false ∧ (tCal.port 0).rot < 3 ∧ (tCal.port 0).logical 3 ≠ 16 ∧ tCal.train.js ≠ .run ∧
    ({ tCal with train := { tCal.train with js := .run } } : State).train.js = .run ∧ ((tCal.soakNote 0 3 tSoak).line 0 3).soaks + 1 < 10 := by decide
theorem wit_soak_port : ((State.reset.updPort 0 fun x => { x with st := .soak }).port 0).st = .soak ∧ (State.reset.port 0).wait = false ∧
    (State.reset.port 0).rot ≠ 5 := by decide

/-! ### SparesRotateAndPortsGoDark -/

theorem wit_rotation : ((tSpare 0).port 0).nbr = some 9 := by decide
theorem wit_rotation_line : firstFrom (((tSpare 0).port 0).rotNext % 16) 16 (fun j => (tSpare 0).eligible 0 j) = some 0 := by decide +kernel
theorem wit_rotation_due : (tSpare 0).light.rotInt = 30 ∧ ((tSpare 0).port 0).rot = 0 ∧ (tSpare 0).fab.phys < 9 ∧ ((tSpare 0).port 0).soaked = true ∧
    ((tSpare 0).port 0).open_ = true ∧ (tSpare 0).light.swPend = false ∧ (tSpare 0).light.swStep = 0 := by decide
/-- The LID of line 0 has the spare in its masks at both ends, with no change under way. -/
def tJoined (r : Nat) : State :=
  ((tSpare r).updFab fun f => { f with cur := { f.cur with links := [(4, { port := 0, peer := 9, part := 5 })] } }).updLid 4 fun k =>
    { k with st := .up, wmask := 0x10001#17, repMask := 0x10001#17, rmask := 0x10001#17 }
theorem wit_rotation_joined : (((tJoined 1).port 0).rot = 1 ∧ ((tJoined 1).port 0).rotLine = 0) ∧ (tJoined 1).spareJoined 0 0 = true := by decide +kernel
theorem wit_rotation_far : (tJoined 0).farRotation 0 0 = true ∧ (tJoined 0).spareJoined 0 0 = true := by decide +kernel
theorem wit_rotation_quiet : ((tSpare 2).port 0).rot = 2 ∧ (tSpare 2).maskQuiet 0 ((tSpare 2).port 0).rotLine = true := by decide
theorem wit_apr : ((tSpare 0).port 0).aprAt = 0 := by decide
/-- After its declaration a port whose light is back, with comb input A OK. -/
theorem wit_apr_return : let s := (((tSpare 0).updLight fun b => { b with aSt := 1 }).updPort 0 fun x => { x with aprAt := 2, st := .apr })
    let u := (s.updPort 0 fun x => { x with rxtot := -2000, aprAt := 0 }).unblock (pairPort 0)
    u.combOk = true ∧ (u.port 0).broken = false := by decide +kernel
theorem wit_readmit_search : let s := (tSpare 0).updMod fun m => { m with rails := true }
    s.mod.rails = true ∧ ((s.updPort 0 fun x => { x with searched := true }).port 0).searched = true := by decide

/-! ### PassSetsSwitchStepByStep -/

theorem wit_switch_drained : (tPsw 1).light.swEnt = some (300, tPswEnt) ∧ (tPsw 1).light.swStep = 1 ∧ (tPsw 1).pswDrained = true := by decide
theorem wit_switch_release : (tPsw 2).light.swStep = 2 ∧ pswThr tPswEnt ≤ ((tPsw 2).ctrSeen (pswCtr tPswEnt)).toNat ∧ pswSet tPswEnt = 3 ∧
    ((tPsw 2).ctrRead (.engine 0) (pswCtr tPswEnt)).1.light.swLines = [] ∧ ((tPsw 2).ctrRead (.engine 0) (pswCtr tPswEnt)).1.light.swLids = [] := by decide
theorem wit_switch_release_changed :
    (((((tPsw 2).updLight fun b => { b with swLines := [5], swLids := [4] }).ctrRead (.engine 0) (pswCtr tPswEnt)).1.takeShadow (pswSet tPswEnt)).updLight
      fun b => { b with actSet := pswSet tPswEnt, swPend := false, swStep := 3 }).light.swLines = [5] := by decide
theorem wit_switch_lines : let s := (tPsw 3).updLight fun b => { b with swLines := [5] }
    s.light.swLines = [5] ∧ ((s.updPort 0 fun x => { x with st := .ready }).port (5 / 17)).st = .ready := by decide
theorem wit_switch_locked : (tPsw 5).light.swStep = 5 ∧ (tPsw 5).light.swLids = [] ∧ (tPsw 5).light.swWait = [] := by decide
theorem wit_switch_train : let s : State := { tPsw 3 with fab := { (tPsw 3).fab with lids := [(4, { Lid.init with st := .training })] }
                                                          light := { (tPsw 3).light with swLids := [4] } }
    (s.lid 4).st = .training ∧ 4 ∈ s.light.swLids ∧ 3 ≤ s.light.swStep := by decide

/-! ### CountersServeTheirOwners -/

/-- An add of 5 to counter 7 by engine 2 waits. -/
def tReq : CtrReq := { src := .engine 2, age := 9, ctr := 7, op := .add 5#48 }
theorem wit_counter : tOwner.ctrOwned 7 = true ∧ 7 % 16 = 7 ∧ tReq.age ≤ 10 ∧ tOwner.ctrOwned 64 = false ∧ tOwner.ctrOwned 4032 = false ∧
    (tOwner.updColl fun c => { c with reqs := [tReq] }).coll.reqs = [tReq] ∧
    (tOwner.updColl fun c => { c with reqs := [tReq] }).ctrGrant 7 10 = some (tReq, false) ∧
    (tOwner.updColl fun c => { c with reqs := [tReq] }).ctrReady tReq = true := by decide
theorem test_counter_wraps : ((State.reset.setCtr 7 (2 ^ 48 - 1)).addCtr 7 2).ctr 7 = 1#48 := by decide

/-! ### EntriesStartAndDataMoves -/

theorem wit_list : ((tTol 0x440).que 300).typ = 6 ∧ ((tTol 0x440).que 300).has = true ∧ ((tTol 0x440).que 300).eng = 2 ∧
    ((tTol 0x440).eng 2).inprog < 8 := by decide
theorem wit_cadd : let u := ((tTol 0x440).entryAt (.coll 2) 300 0); tolOpc (u.2.map (·.1)) = 0x440 ∧ tolTen (u.2.map (·.1)) = false ∧
    u.1.tolBad (u.2.map (·.1)) = false := by decide +kernel
theorem wit_bar : let u := ((tTol 0x442).entryAt (.coll 2) 300 0); tolOpc (u.2.map (·.1)) = 0x442 ∧ u.1.tolBad (u.2.map (·.1)) = false ∧
    u.1.pairBusy (u.2.map (·.1)) = false := by decide +kernel
theorem wit_bar_busy : let u := (((tTol 0x442).updColl fun c => { c with runs := [{ tRedRun with opc := 0x442, cid := 0 }] }).entryAt (.coll 2) 300 0)
    u.1.tolBad (u.2.map (·.1)) = false ∧ u.1.pairBusy (u.2.map (·.1)) = true := by decide +kernel
theorem wit_reserved_entry : let u := ((tTol 0x446).entryAt (.coll 2) 300 0); u.1.tolBad (u.2.map (·.1)) = true := by decide +kernel
theorem wit_trigger : ((State.reset.ctrSeen 7)).toNat < tolTthr [0x440#32, 0#32, 0x01000007#32, 5#32] ∧
    tolTen [0x440#32, 0#32, 0x01000007#32, 5#32] = true := by decide
theorem wit_send_up : tRed.coll.runs = [tRedRun] ∧ colUses tRedRun.ent 0 = true ∧ colKind tRedRun.ent ≤ 2 ∧ (tRed.tree 0 0).root = false ∧
    (tRed.lid (tRed.tree 0 0).parent).st = .up ∧ 3 ≤ tRed.slotCredits (tRed.tree 0 0).parent 6 ∧
    min (tRed.upReady tRedRun 0) (wireCap (colUpWire tRedRun.ent) (colL tRedRun.ent)) = 2 := by decide
theorem wit_send_down : (tRedDown.tree 0).dnq.find? (fun c => (tRed.lid ((tRed.tree 0 0).child c.1)).st == .up &&
    decide (tRed.slotCredits ((tRed.tree 0 0).child c.1) 8 ≥ 3)) = some (0, { idx := 0, units := [tElem] }) ∧
    (tRed.updColl fun c => { c with runs := [tRedDown] }).coll.runs = [tRedDown] := by decide
theorem wit_receive : tRecv.collRun 0 5 = some tRedRun ∧ tRecv.consumable tSlot = true ∧ tRecv.coll.slots = [tSlot] ∧ tSlot.cell.qtag ≠ 0xFFFF := by decide
theorem wit_stale : let s : State := { tRecv with coll := { tRecv.coll with runs := [], dead := [(0, 5)] } }
    s.consumable tSlot = true ∧ s.collRun 0 5 = none := by decide
theorem wit_partials : let c : Cell := { tSlot.cell with typ := 0x10, len := 12, msgoff := 0, payload := List.replicate 12 0#8 }
    colKind tRedRun.ent ≤ 2 ∧ (tRed.tree tRedRun.tp 0).root = false ∧ (cellUnits (colUpWire tRedRun.ent) (colL tRedRun.ent) c).1 = 0 := by decide +kernel

/-! ### CollectivesAbortAtTheirLimits -/

theorem wit_vote_timeout : tVote.coll.runs = [tVoteRun] ∧ (tVote.tree 0 0).root = true ∧ (tVoteRun.tree 0).sent = false ∧
    tVote.jc.voteTmo = 100 := by decide
theorem wit_vote_outcome : tVoteRun.q ≠ seqTol ∧ tolCen tVoteRun.ent = false ∧ tolNotify tVoteRun.ent = false := by decide
theorem wit_coll_timeout : tRed.coll.runs = [tRedRun] ∧ tRedRun.opc ≠ 0x443 ∧ tRedRun.sealed = false ∧
    ({ tRedRun with a := { tRedRun.a with sent := true } } : CollRun).sealed = true := by decide
theorem wit_census : tCensus.coll.newPlan = some ([], 7) ∧ tCensus.longAt 7 = some (tLong 0x503 tPlanCmd) ∧ (tLong 0x503 tPlanCmd).idx = 7 ∧
    tCensus.censusTrees.find? (fun y => !tCensus.coll.censusDn.contains y) = some 2 := by decide

/-! ### ExactSumsKeepNoOrder -/

/-- Opposite infinities give NAN in either order (R58). -/
theorem test_exact_infinities : (([.inf false, .inf true, .fin false 3 0 false] : List Machine.Num).foldl Ex.addNum Ex.zero).cls = 3#2 ∧
    (([.inf false, .fin false 3 0 false] : List Machine.Num).foldl Ex.addNum Ex.zero).cls = 1#2 := by decide +kernel
theorem wit_perm : [Machine.Num.inf false, Machine.Num.nan].Perm [Machine.Num.nan, Machine.Num.inf false] := by decide

/-! ### LimbPacketsGiveTheirValueBack -/

theorem wit_packet : readPacket (({ n := -(2 ^ 319), cls := 0#2 } : Ex).packet ++ [7#8]) = some ({ n := -(2 ^ 319), cls := 0#2 }, [7#8]) := by
  decide +kernel
theorem test_packet_minus_one : ({ n := -1, cls := 0#2 } : Ex).packet = [0x21#8, 1#8, 0#8, 0#8, 0#8, 0#8, 0#8, 0#8, 0#8] := by decide +kernel
theorem test_packet_malformed : readPacket [0x20#8] = none ∧ readPacket (0x41#8 :: List.replicate 8 1#8) = none := by decide +kernel

/-! ### RepresentableValuesConvertExactly -/

theorem wit_convert : fmtQ16.read 0x7EFF ≠ .nan ∧ fmtQ16.read 0x7F01 = .nan ∧ fmtQ16.read 0x8000 = .nan ∧ fmtB32.read 0x00000001 ≠ .nan ∧
    fmtB64.read 0x8000000000000001 ≠ .nan := by decide
/-- R45 to R48: a value above the largest finite Q16 becomes infinity, or the largest finite under SAT. -/
theorem test_q16_overflow : (fmtQ16.write (.fin false 1 64 false) 0 0).1 = 0x7F00 ∧ (fmtQ16.write (.fin true 1 64 false) 2 0).1 = 0xFEFF := by decide

/-! ### UnitOrderIsCompleteAndSafe -/

/-- The example of R282: P 2, V 2, M 4. -/
theorem test_order_example : unitOrder 2 0 2 4 =
    [(0, 0, 0), (0, 0, 1), (0, 1, 0), (0, 1, 1), (0, 0, 2), (1, 1, 0), (0, 0, 3), (1, 1, 1), (0, 1, 2), (1, 0, 0), (0, 1, 3), (1, 0, 1),
     (1, 1, 2), (1, 1, 3), (1, 0, 2), (1, 0, 3)] := by decide +kernel
theorem test_order_peaks : peakOf (unitOrder 2 0 2 4) 0 = 4 ∧ peakOf (unitOrder 2 0 2 4) 1 = 2 ∧ peakOf (unitOrder 2 1 2 4) 0 = 3 ∧
    peakOf (unitOrder 2 1 2 4) 1 = 1 := by decide +kernel
theorem wit_order : (0 : Nat) < 2 ∧ 1 ≤ 2 ∧ 4 % 2 = 0 ∧ peakOf (unitOrder 2 1 2 4) 0 ≤ 3 ∧ 3 ≤ 3 := by decide +kernel

/-! ### AttemptsPassThroughTheirPhases -/

theorem wit_attempt : ∀ b, let s := (tTrain 0).updTrain fun t => { t with prep := b }
    s.train.tab = some tTab ∧ s.mayStart = true ∧ s.seqQuiet = true ∧ s.train.prep = b := by decide +kernel
theorem wit_gather : tTab.gthr ≤ ((tTrain 1).ctrSeen tTab.gctr).toNat ∧ (tTrain 1).train.phase = 1 ∧ (tTrain 1).seqQuiet = true := by decide
theorem wit_unit : tTab.order[(tTrain 2).train.upos]? = some (0, 0, 0) ∧ (tTrain 2).unitDue tTab (0, 0, 0) = true ∧
    (tTab.stage 0).ncm1 = 0 ∧ (tTrain 2).seqQuiet = true := by decide +kernel
theorem wit_unit_posted : ((tTrain 2).postUnit (0, 0, 0) [(3, 0, fun a => a.itemEntry 0x200 false a.train.step a.train.e true true 0 0 0 0 a.train.vseq)]).isSome = true := by
  decide +kernel
theorem wit_unit_waits : (tTrain 2).unitDue { tTab with stages := [{ Stage.none with afCtr := 9 }] } (0, 0, 0) = false := by decide
theorem wit_unit_done : let u : UnitOut := { kind := 1, v := 0, m := 0, left := 0 }
    ((tTrain 2).updTrain fun t => { t with units := [u] }).train.units.find? (fun u => u.kind == 1 && u.v == 0 && u.m == 0 && u.left == 0) = some u := by decide
theorem wit_pipe_end : let s := (tTrain 2).updTrain fun t => { t with udone := [(1, 0, 0)] }
    s.train.phase = 2 ∧ (s.train.udone.filter fun u => u.1 == 1).length = tTab.v * tTab.m := by decide
theorem wit_reduce : tTab.rthr ≤ ((tTrain 3).ctrSeen tTab.rctr).toNat ∧ (tTrain 3).imageHold = false ∧ (tTrain 3).seqQuiet = true ∧
    placeAll tTab.logSize 0 [] [2] = some [0] ∧ placeAll 1 0 [] [2] = none := by decide
theorem wit_update : (tTrain 4).train.ws = .open_ ∧ (tTrain 4).train.cfgw = false ∧ (tTrain 4).optDone = true ∧ (tTrain 4).train.mirSent = true ∧
    (tTrain 4).train.mirrors = 0 ∧ (tTrain 4).train.itemErr = false ∧ (tTrain 4).train.tplErr = false ∧ (tTrain 4).train.mirBad = false := by decide

/-! ### WatershedsCommitOrAbort -/

theorem wit_scale : ((tTrain 0).train.scale true false 1).clean = 0 ∧ ((tTrain 0).train.scale false true 5).e = ((tTrain 0).train.e - 1) := by decide
theorem wit_timeouts : ((tTrain 3).updTrain fun t => { t with tab := some { tTab with rthr := 9 } }).train.phase = 3 ∧
    ((tTrain 3).ctrSeen tTab.rctr).toNat < 9 ∧ (tTrain 3).jc.waitTmo = 100 ∧ 0 < ((tTrain 4).updTrain fun t => { t with mirrors := 1 }).train.mirrors := by decide
theorem wit_unresolved : ({ (tTrain 5).train with ws := .voting } : Train).ws = .voting ∧ (tTrain 5).jc.voteTmo + (tTrain 5).jc.outGrace = 200 := by decide
theorem wit_rest : let s := tOwner.updTrain fun t => { t with atRest := false }
    (s.cores.any fun c => c.2.held && c.2.item.isSome) = false ∧ ((s.jobQueues 6).any fun q => !s.quietQ q) = false ∧ s.train.due = 0 ∧
    s.train.wantRun = false ∧ ({ s.train with due := 2, js := .run } : Train).js = .run := by decide
/-- A list of the job with a sealed collective on it. -/
theorem wit_rest_sealed : let s := (((tTol 0x440).updQue 300 fun e => { e with sid := (tTol 0x440).train.sid }).updColl fun c =>
      { c with runs := [{ tRedRun with a := { tRedRun.a with sent := true } }] }).updTrain fun t => { t with atRest := false }
    ((s.jobQueues 6).any fun q => !s.quietQ q) = true ∧ (s.cores.any fun c => c.2.held && c.2.item.isSome) = false := by decide +kernel
theorem wit_boundary : let k := (({ tRun 0#64 0#64 with train := { State.reset.train with atRest := false } } : State).updCore 3 fun k =>
    { k with held := true, item := some tItem }).core 3
    k.held = true ∧ k.item.isSome = true := by decide

/-! ### ImagesAndRecordsRestoreState -/

theorem wit_checkpoint : ((tTrain 0).updTrain fun t => { t with ckpt := some (4, 7) }).train.ckpt = some (4, 7) ∧ (tTrain 0).train.ckptBad = false := by decide
theorem wit_image : tImg.lnode = (tRepl .pending 0).train.repl.lnode ∧ (tRepl .pending 0).train.js = .pending ∧ tImg.good = true ∧ tImg.spoiled = false ∧
    (tRepl .pending 0).train.repl.tries < 3 ∧ (tRepl .pending 0).train.repl.drain = true ∧ tImg.log = none ∧ tImg.kind = 0 := by decide
theorem wit_log : let i : ImageRead := { tImg with kind := 1, log := some (0, []) }
    i.lnode = (tRepl .rebuild 2).train.repl.lnode ∧ (tRepl .rebuild 2).train.js = .rebuild ∧ (tRepl .rebuild 2).train.repl.drain = true := by decide
theorem wit_record : (tRepl .rebuild 2).train.repl.st = 2 ∧ (tRepl .rebuild 2).train.rebuilding = false ∧
    ∀ n ∈ [9, 0], fieldLe (tRec n) 0 4 = 0x474F4C54 ∧ fieldLe (tRec n) 4 1 = 1 ∧ fieldLe (tRec n) 5 1 = 1 ∧
      fieldLe (tRec n) 6 2 = (tRepl .rebuild 2).train.repl.lnode ∧ fieldLe (tRec n) 8 8 = n ∧ (tRepl .rebuild 2).train.step = 0#64 := by decide +kernel
theorem wit_record_digest : ∀ n ∈ [9, 0], treeHash (((tRec n).drop 64).take (fieldLe (tRec n) 24 8)) = ((tRec n).drop 32).take 32 := by decide +kernel
theorem wit_applied : let s : State := { (tRepl .rebuild 2) with train := { (tRepl .rebuild 2).train with rebuilding := true } }
    s.optDone = true ∧ s.train.itemErr = false ∧ s.train.rebuilding = true := by decide
theorem wit_rollback : ((tTrain 0).updTrain fun t => { t with rollHnd := some 7 }).train.rollHnd = some 7 ∧ (tTrain 0).train.repl.st ≠ 4 ∧
    ({ tImg with lnode := 32767 } : ImageRead).lnode = (tTrain 0).fab.lnode ∧ tImg.lnode = (tRepl .held 4).train.repl.lnode := by decide

/-! ### RecordedInputsAndCertifiedOutputs -/

theorem wit_ingest : (tTrain 0).train.js ≠ .idle ∧ (tTrain 0).det.replay = false ∧ ([7#8] : List Byte) ≠ [] := by decide
theorem wit_replay : tFeed.det.feed = [tInput] ∧ tFeed.det.replay = true ∧ tFeed.train.phase ≠ 0 ∧ tFeed.jc.rec_ = 0 ∧
    (treeHash [7#8]).take 24 = tInput.dig ∧ ([7#8] : List Byte).length = tInput.len := by decide +kernel
theorem wit_replay_bad : (treeHash [8#8]).take 24 ≠ tInput.dig := by decide +kernel
theorem wit_certify : let s : State := { tTrain 0 with det := { (tTrain 0).det with cert := some (7, 0, 32, 0#64, 4096) } }
    s.between = true ∧ s.train.atRest = true ∧ s.det.certAt = none ∧ s.train.tab = some tTab := by decide
theorem wit_export : 0 < ({ State.reset.det with expPend := 1 } : Det).expPend := by decide

/-! ### Bar0AccessesAreWords -/

theorem wit_bar0 : tOpen.barOpen = true ∧ 0x10120 + 4 ≤ 2 ^ 25 ∧ 0x10120 % 4 = 0 ∧ 0x10118 % 8 = 0 ∧ 2 ^ 25 - 4 + 4 ≤ 2 ^ 25 ∧
    ¬ ((2 : Nat) = 4 ∧ 0x10120 % 4 = 0) ∧ ¬ ((8 : Nat) = 8 ∧ 0x10124 % 8 = 0) := by decide
/-- The upper half of a 64-bit register is its higher address (R10, R436). -/
theorem test_register_halves : (tOpen.bar0Write 0x10110 8 0x0000000123400000#64).host.sqb = 0x0000000123400000#64 := by decide

/-! ### HostReachesTheDevice -/

theorem wit_host_open : tOpen.mod.standby = true ∧ tOpen.host.cfgOn = true ∧ tOpen.mod.perst = false ∧ tOpen.mod.sdStep ≠ 5 ∧
    tOpen.host.b4log2 = 36 := by decide
theorem wit_perst : (tOpen.updMod fun m => { m with perst := true }).mod.perst = true := by decide
theorem wit_bar4_unit : unitsOf ((tOpen.host.b4base + 40) % 2 ^ 40) 8 = [32] ∧ 40 % 2 ^ 40 % 32 + 8 ≤ 32 := by decide
/-- R331: an unmapped unit reads all ones. -/
theorem test_bar4_unmapped : (tOpen.apertureUnit 32 { fixed := [], bad := [] }).2.1 = List.replicate 32 0xFF#8 := by decide +kernel

/-! ### DoorbellsMoveQueues -/

theorem wit_doorbell : (tQue.que 300).st = 1 ∧ (tQue.que 300).typ ≠ 2 ∧ (tQue.que 300).dbc = false ∧ 3 < 2 ^ (tQue.que 300).log2n ∧
    (3 + 2 ^ (tQue.que 300).log2n - (tQue.que 300).tail) % 2 ^ (tQue.que 300).log2n ≤ 2 ^ (tQue.que 300).log2n - 1 - (tQue.que 300).count ∧
    2 ^ (tQue.que 300).log2n ≤ 16 ∧ (tQue.que 301).st = 0 ∧ (tQue.que 301).typ ≠ 2 ∧ tQue.barOpen = true := by decide
theorem wit_ceq : (tQue.que 302).typ = 2 ∧ (tQue.que 302).st = 1 ∧ (tQue.que 302).dbc = false ∧
    (2 + 2 ^ (tQue.que 302).log2n - (tQue.que 302).head) % 2 ^ (tQue.que 302).log2n ≤ (tQue.que 302).count ∧
    (tQue.que 302).room = true := by decide
theorem wit_read : tQue.host.reads = [{ tag := 5, use := 0, q := 300, addr := 0, len := 64, dst := 0 }] ∧
    (tHandle.longAt 7).isSome = true := by decide +kernel
theorem wit_completion_record : tQue.host.recs = [(302, finalRec (tLong 0x100 []) 2 0#32 0#32 0#32 0#32)] ∧ tQue.effCeq 302 = 302 := by decide
theorem wit_timer : let e := (tQue.updQue 302 fun e => { e with arm := true, unsig := 1 }).que 302
    e.arm = true ∧ e.typ = 2 ∧ 0 < e.unsig ∧ e.tmr ≤ 100 := by decide
/-- The SES_AQ_CFG value of the example of R357: EN, both queues of 64 entries, vector 0. -/
theorem wit_admin : (0x8C600000#32).getLsbD 31 = true ∧ bitsOf 0x8C600000#32 29 25 = 6 ∧ bitsOf 0x8C600000#32 24 20 = 6 ∧
    bitsOf 0x8C600000#32 10 0 = 0 ∧ tOpen.aqAct = false := by decide

/-! ### ManagementTargetAnswers -/

theorem wit_tray : tTray.i3cOn = true ∧ (tTray.que 8190).count = 0 ∧ tTray.host.trayRecs = [] ∧ (List.replicate 64 0#8).length = 64 := by decide
theorem wit_tray_full : ((tTray.updQue 8190 fun e => { e with tail := 15 }).que 8190).count = 15 := by decide
theorem wit_tray_record : ({ tTray.host with trayRecs := [finalRec (tLong 0 []) 0 0#32 0#32 0#32 0#32] } : HostIf).trayRecs.length < 256 := by decide

/-! ### SessionAndQueueCommandsComplete -/

theorem wit_passes_host : ∀ o ∈ [0x0000#32, 0x0003#32, 0x0010#32, 0x0011#32, 0x0012#32, 0x0013#32, 0x0014#32, 0x0020#32, 0x0021#32, 0x0100#32,
    0x0200#32, 0x0300#32, 0x0400#32, 0x0500#32, 0x0600#32, 0x0700#32, 0x0800#32, 0x0900#32],
    tHost.hsqOpen 300 = true ∧ tHost.inTurn (cmdOf tHost 300 [o]) = true ∧ tHost.refusal (cmdOf tHost 300 [o]) = none := by
  repeat (refine List.forall_mem_cons.2 ⟨by decide +kernel, ?_⟩)
  exact fun _ h => nomatch h
theorem wit_passes_admin : ∀ o ∈ [0x0001#32, 0x0002#32], tHost.hsqOpen 0 = true ∧ tHost.inTurn (cmdOf tHost 0 [o]) = true ∧
    tHost.refusal (cmdOf tHost 0 [o]) = none := by
  repeat (refine List.forall_mem_cons.2 ⟨by decide +kernel, ?_⟩)
  exact fun _ h => nomatch h
theorem wit_devinfo : (tHostMem.memPut .hub 0 0 tHostMem.idnBytes).2 = none := State.memPut_fits _ _ _ _ _ (by decide +kernel)
/-- The example of R357: versions 1.0 to 2.0, GEN 2 only. -/
theorem test_ses_open : chooseVersion 0x0200 0x0100 2 = some (0x0200, 2) ∧ tOpen.eventCeq 0x1FFF = .inl 1 ∧ tOpen.freeSid = some 1 ∧
    0x0200 * 65536 + 2 * 256 + 1 = 0x02000201 := by decide +kernel
theorem wit_accepts : tHost.freeIdx = some 1 := by decide +kernel
theorem wit_ses_close : tHost.sesOpen 1 = true ∧ (cmdOf tHost 0 [2#32, 0#32, 1#32]).f 2 5 0 = 1 := by decide +kernel
theorem wit_que_reset : tHost.resetBad (cmdOf tHost 300 [0x12#32, 0#32, 301#32]) 301 = none := by decide +kernel
theorem wit_domain : (cmdOf tHost 300 [0x13#32, 0#32, 1#32]).f 2 5 0 = tHost.sidOf (cmdOf tHost 300 []) ∧
    ((tRunning.train.js ≠ .idle) ∧ tRunning.train.sid = 1) := by decide +kernel
theorem wit_que_create : tHost.createCheck (cmdOf tHost 300 tNewQue) = .inl (302, (cmdOf tHost 300 tNewQue).queEnt 1) ∧
    (cmdOf tHost 300 tNewQue).bit 2 16 = false := by decide +kernel
theorem wit_handle : tHandle.handleState 7 = 1 ∧ tHandle.handleForeign (cmdOf tHandle 300 [0x21#32, 0#32, 7#32]) 7 = false ∧
    (tHandle.longAt 7).map (·.opc) = some 0x110 ∧ cancellable 0x110 = true := by decide +kernel

/-! ### MemoryCommandsComplete -/

theorem wit_region_set : tHost.regionOk 0 (cmdOf tHost 300 [0x100#32, 0#32, 0#32]).region = true ∧
    (cmdOf tHost 300 [0x100#32, 0#32, 0#32]).only 2 0x3F = true := by decide +kernel
theorem wit_mem_config : let c := cmdOf tHost 300 [0x101#32, 0#32, 0x103#32, 0x00640010#32, 1#32]
    c.bit 2 8 = true ∧ c.bit 2 9 = false ∧ c.f 3 15 0 = 16 ∧ c.f 3 31 16 = 100 ∧ c.only 2 0x30F = true ∧ c.only 4 1 = true ∧ c.only 5 0xFF = true ∧
    c.zero 6 = true := by decide +kernel
theorem wit_scrub_config : let c := cmdOf tHost 300 [0x101#32, 0#32, 0x200#32, 0#32, 0#32, 168#32]
    c.bit 2 8 = false ∧ c.bit 2 9 = true ∧ c.f 5 7 0 = 168 ∧ c.only 5 0xFF = true ∧ c.only 2 0x30F = true := by decide +kernel
theorem wit_dma : let c := cmdOf tHost 300 [0x110#32, 0#32, 0#32, 0#32, 64#32, 0#32, 8#32, 0#32, 3#32]
    c.dmaOk = true ∧ c.rangeOk 2 = true ∧ c.rangeOk 4 = true ∧ c.dw 6 = 8 ∧ meets (c.dw 2) (c.dw 6) (c.dw 4) (c.dw 6) = false ∧
    tHostMem.intoJob c = false ∧ tHostMem.det.replay = false := by decide +kernel
theorem wit_dma_moves : (tHostMem.moveParts 3 0 8 fun a _ b => (if b.isEmpty then a else a.emit (.hostWrite 64 b), none)).2 = none ∧
    (tHostMem.putParts 3 64 [1#8, 2#8]).2 = none ∧ (tHost.putParts 3 64 [1#8, 2#8]).2 = some 64 := by decide +kernel
/-- Region 0 is the job's: its partition is the device's. -/
theorem wit_dma_input : ({ tHostMem with train := { tHostMem.train with launched := true }, fab := { tHostMem.fab with part := 5 } } : State).intoJob
    (cmdOf tHostMem 300 [0x113#32, 0#32, 0#32, 0#32, 64#32, 0#32, 8#32, 0#32, 3#32]) = true := by decide +kernel
theorem wit_window : (parseWindow ([5#8, 0#8, 2#8] ++ List.replicate 13 0#8 ++ [0#8, 1#8] ++ List.replicate 14 0#8)).isSome = true ∧
    tHost.windowBusy 5 = false := by decide +kernel
/-- A WRITE to window 5, some of which is done. -/
theorem wit_window_busy : (tHost.updFab fun f => { f with inMsgs := [{ tIn with cell := { tCell with typ := 2, qtag := 5 }, done := 1 }] }).windowBusy 5 = true := by
  decide +kernel

/-! ### JobCommandsComplete -/

theorem wit_reads : ∃ u b, Reads tHostMem (cmdOf tHostMem 300 tLoad) u b := ⟨_, _, by decide, rfl, rfl, by decide +kernel⟩
theorem wit_prog_load : let c := cmdOf tHostMem 300 tLoad
    c.only 5 0x07FF07FF = true ∧ c.only 6 0x03FF01FF = true ∧ c.n 4 = 32 ∧ c.f 6 25 16 = 2 ∧ c.f 6 8 0 = 510 ∧ c.zero 8 = true ∧
    (tHostMem.memRead .hub 0 0 32).1.freeIdx = some 1 := by decide +kernel
theorem wit_attach : let c := cmdOf tHost 300 [0x210#32, 0#32, 5#32, 2#32]
    c.f 2 11 0 = 5 ∧ c.f 3 14 0 = 2 ∧ c.zero 4 = true ∧ tHost.train.js = .idle := by decide
theorem wit_config : parseJob (tBlock 255) = none ∧ (parseJob (tBlock 256)).map (·.voteTmo) = some 50 ∧
    (parseJob (tBlock 256)).map (·.eInit) = some 0 ∧ tHost.ceqBad (cmdOf tHost 300 []) 1 = none := by decide +kernel
theorem wit_launch : ({ tRunning.train with js := .loaded } : Train).js = .loaded ∧ tRunning.host.job = some tJob ∧
    tRunning.ownsJob (cmdOf tRunning 300 []) = true ∧ tRunning.train.launched = true ∧ (tRunning.core 511).retired = false ∧
    (tRunning.core 511).retiring = false := by decide
theorem wit_work_post : entryCheck 0x00000200#32 = none ∧
    ((tHost.updQue 100 fun e => { e with typ := 3, st := 1, loc := 2, log2n := 4, sid := 1 }).postEntry 100 []).isSome = true := by decide

/-! ### FabricCommandsComplete -/

theorem wit_tables : (parseTables TabSet.empty (tTables)).isSome = true := by decide +kernel
theorem wit_tables_ok : (tHost.updFab fun f => { f with phys := 0 }).tablesOk { TabSet.empty with len := [1, 1, 1], org := [0, 0, 0] } = true := by decide +kernel
theorem wit_fence : (cmdOf tHost 300 [0x302#32, 0#32, 4#32]).fenceOk 0x37F = true ∧ (cmdOf tHost 300 [0x303#32, 0#32, 4#32]).fenceOk 0x17F = true ∧
    ((tHost.updLid 4 fun k => { k with st := .fenced }).lid 4).st = .fenced := by decide
theorem wit_pass_plan : tHost.passOk (passEntries [1] (tPass)) [1] = true ∧ zeroBytes (tPass) 408 104 = true := by decide +kernel
theorem wit_pass_config : let c := cmdOf tHost 300 [0x311#32, 0#32, 4#32, 60#32]
    c.bit 2 0 = false ∧ c.bit 2 2 = true ∧ c.f 3 15 0 = 60 ∧ c.only 2 7 = true ∧ c.zero 4 = true := by decide
theorem wit_comb_select : let c := cmdOf tHost 300 [0x311#32, 0#32, 3#32]
    c.bit 2 0 = true ∧ c.f 2 1 1 = 1 ∧ c.bit 2 2 = false ∧ tHost.outsideStep = true ∧ tHost.train.js ≠ .run ∧
    (tHost.updLight fun b => { b with bSt := 1 }).light.bSt = 1 ∧ tHost.light.sel = 0 := by decide
theorem wit_port_readmit : let s := (tHost.updPort 2 fun x => { x with st := .ready }).updLight fun b => { b with aSt := 1 }
    (s.port 2).st = .ready ∧ (s.port 2).hnd = none ∧ (s.port 2).broken = false ∧ s.light.aSt = 1 := by decide
theorem wit_readmit_lid : (tHost.port (tHost.lidPort 4)).st ≠ .ready ∧
    ((tHost.updPort (tHost.lidPort 4) fun x => { x with st := .ready }).port (tHost.lidPort 4)).st = .ready := by decide
theorem wit_tree_plan : splitOk tTreeA tTreeA = true ∧ tPlanned.treeOk tTreeA = true ∧ parseTree tTreeBytes = some tTreeA ∧
    ringsApart [(0, tTreeA), (1, tTreeA)] = true ∧ tPlanned.votingNow = false := by decide +kernel
theorem wit_weights : (cmdOf tHost 300 [0x401#32, 0#32, 0x3F#32, 0x11111111#32, 0x11111111#32]).zero 5 = true ∧ tHost.outsideStep = true ∧
    ({ tStep with train := { tStep.train with js := .run, train := true, ws := .open_ } } : State).outsideStep = false := by decide

/-! ### StepStateCommandsComplete -/

theorem wit_job_state : tStep.ownsJob (cmdOf tStep 300 []) = true ∧ tStep.stepped = some tTab ∧ tStep.target 0 = some (0, 0) ∧
    tStep.train.step ≠ 0#64 ∧ tStep.train.ckpt = none ∧ tStep.votingNow = false ∧ tStep.sealPasses 0 = false ∧ tStep.freeIdx = some 1 := by decide +kernel
theorem wit_stage_table : (tHost.checkTable (List.replicate 128 0#8)).isRight = true := by decide +kernel
/-- The quota of R282: a quota of 2 for stage 0 on p = 1 fails with peak 3. -/
theorem test_stage_quota : peakOf ({ tTab with pidx := 1, pm1 := 1, v := 2, m := 4 } : StageTab).order 0 = 3 := by decide +kernel
theorem wit_move : let c := cmdOf tStep 300 [0x521#32, 0#32, 2#32, 1#32, 0#32, 0#32, 7#32]
    c.moveOk = true ∧ c.n 3 ≠ tStep.fab.phys ∧ c.only 6 0xF = true ∧ c.f 6 3 0 = 7 ∧ c.zero 7 = true ∧
    (cmdOf tStep 300 [0x520#32, 0#32, 2#32, 1#32]).zero 6 = true := by decide
theorem wit_ckpt : let c := cmdOf tStep 300 [0x510#32, 0#32, 0#32, 0#32, 9#32]
    c.only 4 0xF = true ∧ 7 ≤ c.f 4 3 0 ∧ c.zero 5 = true ∧ c.dw 2 = 0 := by decide
theorem wit_fill : let c := cmdOf tStep 300 [0x521#32, 0#32, 2#32, 0#32]
    c.moveOk = true ∧ c.n 3 = tStep.fab.phys := by decide
theorem wit_standing : ({ tStep with train := { tStep.train with js := .held } } : State).standing = true ∧ tStep.train.rollHnd = none ∧
    tStep.det.rhnd = 0 ∧ tStep.det.cert = none ∧ tStep.train.ws ≠ .unresolved := by decide
theorem wit_replay_command : ([0#32, 1#32].all fun n => let c := cmdOf tStep 300 [0x900#32, 0#32, 0#32, 0#32, 9#32, 0#32, n]
    c.only 6 1 && c.zero 9) = true := by decide +kernel
theorem wit_replay_source : let c := cmdOf tStep 300 [0x900#32, 0#32, 0#32, 0#32, 9#32, 0#32, 1#32]
    c.dw 7 = 0 ∧ (tStep.target (c.dw 7)).isSome = true := by decide +kernel

/-! ### StepControlAndPowerCommandsComplete -/

theorem wit_resolve : ∀ b : Bool, let s : State := { tStep with train := { tStep.train with ws := if b then .voting else .open_, sealed_ := true } }
    s.train.sealed_ = true ∧ s.train.out = none ∧ s.train.fresh = false ∧ s.train.js ≠ .idle ∧ s.ownsJob (cmdOf s 300 []) = true := by decide
theorem wit_resolved : ({ tStep.train with out := some (true, false) } : Train).out = some (true, false) ∧
    (cmdOf tStep 300 [0x531#32, 0#32, 0#32, 1#32]).bit 3 0 = true ∧ (cmdOf tStep 300 [0x531#32, 0#32, 0#32, 1#32]).bit 3 1 = false := by decide
theorem wit_hold : ({ tStep with train := { tStep.train with js := .run, ws := .none_ } } : State).outsideStep = true ∧ tStep.train.atRest = true ∧
    ({ tStep with train := { tStep.train with js := .run, train := true, ws := .open_ } } : State).outsideStep = false ∧
    (({ tStep with train := { tStep.train with js := .held } } : State).between && tStep.train.atRest) = true ∧
    (({ tStep with train := { tStep.train with js := .held, atRest := false } } : State).between && false) = false := by decide
/-- Powered, FMAX 2.1 GHz, able to run FULL. -/
def tPow : State := tHost.updPower fun p => { p with fmax := 210, ffcap := true }
theorem wit_pwr : (cmdOf tPow 300 [0x601#32, 0#32, 1600#32]).f 2 15 0 = 1600 ∧ (cmdOf tPow 300 [0x601#32, 0#32, 1600#32]).only 2 0xFFFF = true ∧
    tPow.power.balEn = false ∧ 120 ≤ tPow.power.fmax := by decide
/-- A group of this device alone with G = 1,000 W; joined anew, and kept with the share that it has. -/
theorem wit_share_join : let s := tPow.updFab fun f => { f with l2p := [(0, 0)] }
    let c := cmdOf s 300 [0x603#32, 0#32, 1#32, 1000#32]
    s.shareMembers = 1 ∧ 900 * s.shareMembers ≤ c.n 3 ∧ c.n 3 ≤ s.ceilSum ∧ c.balWords.1 ≤ 100 ∧ 900 ≤ c.balWords.2 ∧ c.balWords.2 ≤ 1600 ∧
    c.bit 2 0 = true ∧ c.bit 2 1 = false ∧ c.only 5 0x3F3F = true ∧ c.zero 6 = true ∧
    (s.power.balEn && decide (s.power.balShare * 1 ≤ 1000)) = false ∧ (true && decide (950 * 1 ≤ 1000)) = true := by decide +kernel
theorem wit_mode : (cmdOf tPow 300 [0x602#32, 0#32, 1#32, 0#32]).f 2 1 0 = 1 ∧ tPow.power.ffcap = true ∧ 1505 ≤ tPow.power.effLim := by decide
theorem wit_tray_command : tHost.hsqOpen 8190 = true ∧ tHost.inTurn (cmdOf tHost 8190 [0x610#32]) = true ∧
    tHost.refusal (cmdOf tHost 8190 [0x610#32]) = none ∧ (cmdOf tHost 8190 [0x610#32, 0#32, 0x140A05#32]).f 2 23 16 = 20 := by decide

/-! ### FaultCommandsComplete -/

theorem length_flatMap_four (f : Nat → List Byte) (h : ∀ i, (f i).length = 4) (n : Nat) : ((List.range n).flatMap f).length = 4 * n := by
  simp [List.length_flatMap, h, Nat.mul_comm]
theorem wit_flt_read : (cmdOf tHostMem 300 [0x700#32]).addrOk 2 = true ∧ (tHostMem.memPut .hub 0 0 tHostMem.fltBytes).2 = none :=
  ⟨by decide, State.memPut_fits _ _ _ _ _ (by
    rw [State.fltBytes, length_flatMap_four _ (fun _ => by simp [wordBytes, natLe_length])]; decide +kernel)⟩
theorem wit_flt_fatal : ({ tHost with flt := { tHost.flt with fatal := true } } : State).refusal (cmdOf tHost 300 [0x700#32]) = none ∧
    ({ tHost with flt := { tHost.flt with fatal := true } } : State).refusal (cmdOf tHost 300 [0x702#32]) = none := by decide +kernel
theorem wit_flt_clear : (cmdOf tHost 300 [0x701#32, 0#32, 3#32]).only 2 3 = true ∧ (cmdOf tHost 300 [0x701#32, 0#32, 3#32]).bit 2 1 = true := by decide
theorem wit_link_count : (cmdOf tHost 300 [0x703#32, 0#32, 0x35F#32]).only 2 0x37F = true ∧ (cmdOf tHost 300 [0x703#32, 0#32, 0x35F#32]).f 2 6 0 = 95 := by decide
theorem wit_readmit : readmitCores 0x00003000#32 = [3] ∧ readmitCores 0x08003000#32 = [3] ∧ (readmitCores 0x07040000#32).length = 64 ∧
    [3].all ({ tHost with cores := (tHost.updCore 3 fun k => { k with retired := true }).cores } : State).unitOut = true ∧
    tHost.train.js ≠ .run ∧ tHost.train.js ≠ .rebuild ∧ tHost.train.js ≠ .pending := by decide +kernel
theorem wit_readmit_waits : ({ tRunning with train := { tRunning.train with train := true, ws := .open_ } } : State).between = false := by decide
theorem wit_windows : let c := cmdOf tHost 300 [0x720#32, 0#32, 5#32, 65535#32, 2592000000#32]
    c.f 2 3 0 = 5 ∧ c.f 3 15 0 = 65535 ∧ c.n 4 ≤ 2592000000 ∧ c.zero 5 = true ∧ c.only 2 0xF = true := by decide

/-! ### FirmwareCommandsComplete -/

theorem wit_fw_stage : (cmdOf tHostMem 300 [0x800#32, 0#32, 0#32, 0#32, 512#32]).n 4 = 512 ∧ tHostMem.mod.stHnd = none ∧
    (cmdOf tHostMem 300 [0x800#32, 0#32, 0#32, 0#32, 512#32]).addrOk 2 = true ∧ (tHostMem.memRead .hub 0 0 512).2.2.2 = none := by decide +kernel
theorem wit_fw_activate : tHost.refusal (cmdOf tHost 300 [0x801#32]) = none ∧ ({ tHost.mod with staged := 1 } : Module).staged = 1 := by decide +kernel
/-- An image with no bytes beyond its header; one of GEN 1. -/
theorem test_image : imageOk ([0x46#8, 0x57#8, 0x49#8, 0x4D#8, 1#8, 2#8, 5#8, 1#8] ++ List.replicate 504 0#8) 5 true = true ∧
    imageOk ([0x46#8, 0x57#8, 0x49#8, 0x4D#8, 1#8, 2#8, 5#8, 1#8] ++ List.replicate 504 0#8) 6 true = false ∧
    imageOk ([0x46#8, 0x57#8, 0x49#8, 0x4D#8, 1#8, 1#8, 5#8, 1#8] ++ List.replicate 504 0#8) 5 true = false := by decide +kernel
theorem wit_attest : (cmdOf tHostMem 300 [0x810#32]).addrOk 2 = true ∧ (cmdOf tHostMem 300 [0x810#32]).zero 12 = true ∧ tHostMem.mod.svn = 0 := by decide
theorem wit_unlock : (cmdOf tHostMem 300 [0x820#32, 0#32, 0#32, 0#32, 64#32]).n 4 ≠ 0 ∧ tHostMem.host.nonce = none ∧
    (tHostMem.memRead .hub 0 0 64).2.2.2 = none ∧ (cmdOf tHostMem 300 [0x820#32, 0#32, 0#32, 0#32, 64#32]).addrOk 2 = true := by decide +kernel

/-! ### FatalLimitsTheCommands -/

theorem wit_fatal_frame : let c := cmdOf tHost 300 [0x700#32]
    c.f 0 31 28 = 0 ∧ c.f 0 27 22 = 0 ∧ c.f 0 19 16 = 0 ∧ opcMasters c.opc = some [0, 2] ∧ c.master ∈ [0, 2] ∧ (tHost.sess (tHost.sidOf c)).v13 = false := by decide +kernel
theorem wit_fatal_reset : (cmdOf tHost 300 [0x14#32]).master = 0 ∧ (cmdOf tHost 8190 [0x14#32]).master = 2 ∧ (cmdOf tHost 300 [0x14#32]).opc = 0x14 := by decide +kernel

/-! ### CommandsAreAdmittedInTurn -/

/-- A NOP fetched from HSQ 300, a JOB_HOLD of the tray, and both. -/
def tFetch : State := tHost.updHost fun h => { h with fetched := [{ q := 300, d := [0#32], sqhead := 1 }] }
def tTrayCmd : State := tHost.updHost fun h => { h with tray := [[0x540#32]] }
def tTie : State := tFetch.updHost fun h => { h with tray := [[0x540#32]] }
theorem wit_admit : tFetch.hostCand.isSome = true ∧ tFetch.trayCand = none ∧ tTrayCmd.hostCand = none ∧ tTrayCmd.trayCand.isSome = true ∧
    tTie.hostCand.isSome = true ∧ tTie.trayCand.isSome = true ∧ tTie.host.tieNext = 0 := by decide +kernel
theorem wit_admit_frame : (tFetch.hostCand.map fun c => (vendorOpc c.opc, ((tFetch.takeCmd c).refusal c), (ruleOf c.opc).isSome)) = some (false, none, true) := by decide +kernel
theorem wit_admit_refused : (tTrayCmd.trayCand.map fun c => ((tTrayCmd.updHost fun h => { h with ready := false }).takeCmd c).refusal c) = some (some (0x100, 0#32)) := by decide +kernel

/-! ### VendorOpcodesNeedAnUnlock -/

theorem wit_vendor : let c := cmdOf tHost 300 [0x7F00#32]
    vendorOpc c.opc = true ∧ tHost.hsqOpen 300 = true ∧ tHost.inTurn c = true ∧ tHost.refusal c = none ∧ (tHost.sess (tHost.sidOf c)).unlocked = false := by decide +kernel
theorem wit_vendor_open : ({ tHost with host := { tHost.host with sess := [(1, { v13 := false, evq := 1, unlocked := true })] } } : State).refusal
    (cmdOf tHost 300 [0x7FFF#32]) = none := by decide +kernel
theorem wit_vendor_reserved : tHost.refusal (cmdOf tHost 300 [0x10007F00#32]) = some (0x103, 0#32) := by decide +kernel

/-! ### PowerIsMeasuredAndShared -/

def tFixed : State := State.reset.updPower fun p => { p with mode := 0, ffcap := true, next := some (1, 210, 0), stretched := [3] }
theorem wit_sample : tFixed.power.mode = 0 ∧ ¬ (({ tFixed.power with mode := 1 } : Power).mode = 0 ∧ 1600 < 1601) := by decide
theorem wit_mode_change : tFixed.power.next = some (1, 210, 0) ∧ tFixed.boundary = true ∧
    ({ tFixed.power with fmax := 170, next := some (0, 180, 0) } : Power).fmax < 180 := by decide
theorem wit_droop : tFixed.power.stretched.contains 4 = false ∧ tFixed.power.stretched.contains 3 = true := by decide
theorem wit_trim : (tFixed.updMod fun m => { m with rails := true }).mod.rails = true ∧ (tFixed.updMod fun m => { m with rails := true }).boundary = true ∧
    (List.replicate 12 [8]).length = 12 ∧ tget 0 tFixed.power.vtrim 0 < 30 ∧ 30 ≤ tget 0 [(0, (30 : Int))] 0 := by decide
/-- Die 0 stands at +75 mV with 7 % of slack: FMAX falls 10 MHz, and again until the check finds 8 %. -/
theorem test_trim_repeats : let s := tFixed.updPower fun p => { p with vtrim := [(0, 30)] }
    tget 0 (s.trimStep 0 [7, 7, 8]).power.dfmax 0 = tget 0 s.power.dfmax 0 - 2 ∧ tget 0 (s.trimStep 0 [7, 7, 8]).power.margin 0 = 8 := by decide

/-! ### BudgetIsSharedInPriorityOrder -/

theorem wit_alloc : State.reset.power.minl ≤ 64 ∧ State.reset.power.alloc 0 0 [2, 1, 0] = [(2, 64), (1, 64), (0, 64)] := by decide +kernel
/-- The device of the example of R364. -/
def tShare : Power :=
  { State.reset.power with coef := [(0, (120, 600)), (1, (90, 380)), (2, (100, 50))], demand := [(16, 5760), (17, 3040), (18, 960)], trayCeil := 1400, pbase := 215, mode := 1 }
theorem wit_share : tShare.effLim = 1400 ∧ tShare.fast = false ∧ tShare.prio = 0x24 ∧ tShare.minl = 8 ∧ ((tShare.share 2).gate 16).pwr = 49 ∧
    ({ tShare with mode := 0, trayCeil := 1505 } : Power).effLim = 1505 ∧ ({ tShare with fast := true } : Power).mode ≠ 0 := by decide +kernel
theorem wit_budget_covers : ([2, 1, 0].map fun d => (6400 * (tget (0, 0) tShare.coef d).1 + 100 * (tget (0, 0) tShare.coef d).2 * tShare.minl : Int)).sum ≤ 6867200 ∧
    (∀ d ∈ [2, 1, 0], 8 * ((tget (0, 0) tShare.coef d).1 + (tget (0, 0) tShare.coef d).2) ≤ ({ tShare with demand := [] } : Power).demandOf 2 d) := by decide +kernel

/-! ### TemperatureAndCoolantGovernTheGates -/

theorem wit_trip : (State.reset.power.thrOf 0).2.2 = 115 ∧ (State.reset.power.thrOf 19).2.2 = 105 ∧ (State.reset.power.thrOf 13).2.2 = 100 ∧
    tget 0 State.reset.power.tj 0 < 115 := by decide
theorem wit_throttle : (State.reset.power.thrOf 3).2.1 ≤ tget 0 [(3, 105)] 3 ∧ tget 0 State.reset.power.tj 3 + 3 ≤ (State.reset.power.thrOf 3).2.1 := by decide
theorem wit_settle : 16 ∈ gateKeys ∧ ({ State.reset.power with mode := 1, trip := true } : Power).mode ≠ 0 := by decide
def tCool : State := (State.reset.updMod fun m => { m with rails := true }).updPower fun p => { p with coolOk := false, coolStop := false, trip := false }
theorem wit_cool : tCool.power.coolOk = false ∧ tCool.mod.rails = true ∧ (tCool.updPower fun p => { p with coolOk := true }).power.coolOk = true ∧
    ∀ i < 31, tget 0 tCool.power.tj i < 60 := by decide

/-! ### RackSharesMove -/

/-- A leader of rack slot 0 with a report of slot 3 and an unanswered DEC of 10 W to it. -/
def tBal : State := ((State.reset.updPower fun p => { p with
  balEn := true, leader := true, balShare := 1200, repVseq := 7, reps := [{ slot := 3, slack := 5, avg := 0, share := 1200, ceil_ := 1600 }], decs := [(3, 10)], members := 1 }).updFab
    fun f => { f with l2p := [(0, 0), (1, 3)] })
theorem wit_report : tBal.power.balEn = true ∧ tBal.power.leader = true ∧ tBal.rackSlots.contains 3 = true ∧ tBal.power.ranked = false ∧ tBal.power.reps ≠ [] ∧
    tBal.power.reps.length = tBal.power.members := by decide
theorem wit_ack : tBal.power.decs.find? (fun d => d.1 == 3) = some (3, 10) ∧ tBal.power.reps.any (fun r => r.slot == 3 && 1190 + 10 ≤ r.share) = true ∧
    tBal.power.repVseq = 7 ∧ 1190 ≤ tBal.power.balShare ∧ tBal.power.balShare ≤ 1210 := by decide

/-! ### BalancingConservesWatts -/

/-- Four members: slot 1 has the most slack and gives its 10 W to slot 2. -/
def tReps : List BalRep := [50, 90, 10, 40].zipIdx.map fun x => { slot := x.2, slack := x.1, avg := 0, share := 1200, ceil_ := 1600 }
theorem test_shares : (newShares tReps 10 1100 0).1.map (fun g => (g.1.slot, g.2)) = [(1, 10)] ∧
    (newShares tReps 10 1100 0).2.map (fun g => (g.1.slot, g.2)) = [(2, 10)] := by decide +kernel

/-! ### FaultReportsAreHandled -/

def tRepF : Report := rep 3 0 0 64 0x51 115
def tRepC : Report := rep 2 8 0 37 0x06 0
theorem wit_collect : ((State.reset.report tRepF).flt.pendFatal = [tRepF]) ∧ (State.reset.report tRepF).flt.fatal = false := by decide
theorem wit_collect_contained : (State.reset.report tRepC).flt.pendCont = [tRepC] ∧ (State.reset.report tRepC).flt.active = none ∧
    (State.reset.report tRepC).flt.pendFatal = [] ∧ (State.reset.report (rep 1 9 0 9 0x69 1)).flt.pendCe ≠ [] := by decide
theorem wit_contained_done : (State.reset.reactCores tRepC) = [37] ∧ [37].all (State.reset.updCore 37 fun k => { k with retired := true }).coreDone = true := by decide +kernel
theorem wit_hold_expiry : [((1 : Nat), (0 : Nat), (3 : Nat), (none : Option Report))].find? (fun h => (h.1, h.2.1, h.2.2.1) == (1, 0, 3)) = some (1, 0, 3, none) := by decide
def tLedgQ : State := (State.reset.updMod fun m => { m with standby := true }).ledg 9 0 0 0 []
theorem wit_ledger_write : tLedgQ.flt.ledgq.length = 1 ∧ tLedgQ.mod.standby = true ∧ tLedgQ.mod.pf = 0 ∧ tLedgQ.flt.ledger.length < ledgerRoom ∧ tLedgQ.mod.sdStep < 5 := by decide

/-! ### GateTripsAndStartUp -/

/-- Powered, the gate ON; with one trip counted; at each place of start-up. -/
def tGate (hs n : Nat) : State := State.reset.updMod fun m => { m with standby := true, hs := hs, retries := n, step := 3, rails := false }
theorem wit_gate : (tGate 2 0).gateOn = true ∧ (tGate 2 0).powered = true ∧ (tGate 1 0).mod.hs = 1 ∧ (tGate 0 1).mod.retries = 1 ∧ (tGate 0 0).mod.hs = 0 ∧
    (tGate 2 3).mod.rails = false := by decide
theorem test_latch : ((tGate 2 3).tripGate 1).mod.hs = 4 ∧ ((tGate 2 2).tripGate 1).mod.hs = 0 := by decide
theorem wit_boot : State.reset.mod.step = 0 ∧ State.reset.mod.hold = 0 ∧ State.reset.mod.pf = 0 ∧
    ({ State.reset.mod with svnFuse := 0 } : Module).bootBank { valid := true, svn := 0, fwver := 0#32 } { valid := false, svn := 0, fwver := 0#32 } = some 0 ∧
    ({ State.reset.mod with svnFuse := 0 } : Module).bootBank { valid := false, svn := 0, fwver := 0#32 } { valid := false, svn := 0, fwver := 0#32 } = none := by decide
theorem wit_may_rise : ({ State.reset with mod := { State.reset.mod with step := 5, hs := 2, euse := 600, coolWait := false }, power := { State.reset.power with coolOk := true } } : State).mayRise = true := by
  decide

/-! ### PowerFailureRunsItsTable -/

theorem wit_input : (tGate 2 0).powered = true ∧ (tGate 2 0).inputBad 0 3799 20 = true ∧ (tGate 2 0).mod.hold = 0 ∧ (tGate 2 0).mod.ss ≠ 2 := by decide
/-- The worn store of R420 at 6.5 V holds 3,437 mJ, and units of 16 pages and of 1 page need 1,195 and 407.5 mJ. -/
theorem test_store : storeE4 110 650 / 10000 = 3437 ∧ (unitCost 16 + eTrunc) / 10000 = 1195 ∧ (unitCost 1 + eTrunc) / 1000 = 4075 := by decide
def tFlush : State := State.reset.updMod fun m => { m with standby := true, pf := 3, units := [(3, 1), (4, 1)], flPlan := 2, cap := 110 }
theorem wit_flush : tFlush.mod.units = [(3, 1), (4, 1)] ∧ unitCost 1 + eTrunc ≤ storeE4 tFlush.mod.cap 650 ∧ storeE4 tFlush.mod.cap 600 < eTrunc ∧
    tFlush.mod.flDone = 0 ∧ storeE4 tFlush.mod.cap 605 < unitCost 1 + eTrunc ∧ eTrunc ≤ storeE4 tFlush.mod.cap 605 := by decide
theorem wit_store : ((tGate 2 0).updMod fun m => { m with step := 11 }).powered = true ∧ ((tGate 2 0).updMod fun m => { m with step := 5 }).mod.step = 5 ∧
    sectorJournal 0x810 = some 0 ∧ sectorJournal 0xE0F = some 1 ∧ sectorJournal 0xE10 = none := by decide

/-! ### FlushFitsTheStore -/

theorem wit_fits : 600 ≤ storeEnergy 110 1600 ∧ tFlush.mod.units = (3, 1) :: [(4, 1)] ∧
    (tFlush.mod.units.map fun x => unitCost x.2).sum + eTrunc ≤ storeE4 tFlush.mod.cap 700 := by decide

/-! ### ShutdownsAndPanelEvents -/

def tPanel (c st : Nat) : State := State.reset.updMod fun m => { m with standby := true, sdCause := c, sdStep := st, latch := false }
theorem wit_panel : (tPanel 0 0).shutOpen = true ∧ (tPanel 0 0).powered = true ∧ (tPanel 2 1).powered = true ∧ (tPanel 2 1).waitOver = true ∧
    (tPanel 1 1).mod.sdCause = 1 ∧ (tPanel 0 0).mod.latch = false ∧ (tPanel 2 1).mod.sdCause = 2 ∧ (tPanel 2 1).mod.sdStep = 1 := by decide
theorem wit_latch : ((tPanel 0 0).updMod fun m => { m with latch := true }).mod.latch = true ∧
    (((tPanel 0 0).updMod fun m => { m with latch := true }).report (rep 1 9 0 9 0x69 2)).shutOpen = true := by decide
theorem wit_shut_end : (tPanel 1 3).drained = true ∧ (tPanel 1 3).mod.resetAfter = false ∧ (tPanel 1 3).mod.sdStep = 3 := by decide

/-! ### ResetLeavesTheGivenValues -/

theorem test_reset : State.reset.grp 2 = RGrp.init 2 ∧ State.reset.win 5 = (1, 86400000) ∧ State.reset.host.phase = 0 := by decide

end Sys2Proof.Tests
end

section
/-! PROOFS. The rules of QCP group 0x00 on a command that meets their conditions (12 R335, R339 to R346, R354), and O39. -/

namespace Sys2Proof.Machine

/-! ## From a rule to its row -/

/-- A row that is a QCP row completes, for a command that passes its frame, in what its rule gives. -/
theorem Runs.of_passes {i : Instr} {s t : State} {o q : Nat} {d : Desc} {run : Cmd → State → State}
    (hrow : exec i s = qcpRow o q d s run) (h : Passes s (cmdOf s q d) o) (hrun : run (cmdOf s q d) s = t) : Runs i s t :=
  hrow.trans ((qcpRow_runs run h).trans (congrArg _ hrun))

/-! ## Group 0x00 -/

section
variable {s a : State} {c : Cmd} {i : Nat}

theorem runNop_ok (hz : c.zero 2 = true) : runNop c s = s.ok c := if_pos hz

theorem runDevInfo_ok (hz : c.zero 4 = true) (hf : s.flt.fatal = false) (ha : c.addrOk 2 = true)
    (hw : (s.memPut .hub 0 (c.dw 2) s.idnBytes).2 = none) :
    runDevInfo c s = (s.memPut .hub 0 (c.dw 2) s.idnBytes).1.ok c := by
  simp [runDevInfo, State.copyData, hz, hf, ha, hw]

theorem runSesOpen_opens {v : Nat × Nat} {e : Nat} (h3 : c.only 3 0xF = true) (h4 : c.only 4 0x1FFF = true) (h5 : c.zero 5 = true)
    (hv : chooseVersion (c.f 2 31 16) (c.f 2 15 0) (c.f 3 3 0) = some v) (he : s.eventCeq (c.f 4 12 0) = .inl e)
    (hi : s.freeSid = some i) :
    runSesOpen c s = (s.updHost fun h =>
        { h with sess := tput h.sess i { v13 := v.1 == 0x0103, evq := e, unlocked := false } }).reply
      c 0 (BitVec.ofNat 32 (v.1 * 65536 + v.2 * 256 + i)) 0x02000103#32 0#32 0#32 := by
  simp [runSesOpen, h3, h4, h5, hv, he, hi]

/-- A reset command that is accepted begins the reset of the queues that it names. -/
theorem State.startReset_accepts (h : Accepts s c i a) :
    s.startReset c = (a.beginReset (a.resetTargets c.opc c.d)).settle :=
  accepted_runs _ h

theorem runSesClose_resets (h2 : c.only 2 0x3F = true) (h3 : c.zero 3 = true) (h0 : c.f 2 5 0 ≠ 0)
    (ho : s.sesOpen (c.f 2 5 0) = true) : runSesClose c s = s.startReset c := by
  simp [runSesClose, h2, h3, h0, ho]

theorem runQueDelete_resets (h : s.resetBad c (c.f 2 12 0) = none) : runQueDelete c s = s.startReset c := by
  simp only [runQueDelete, h]

theorem runQueReset_resets (h : s.resetBad c (c.f 2 12 0) = none) : runQueReset c s = s.startReset c := by
  simp only [runQueReset, h]

theorem runDomainReset_session (h2 : c.only 2 0x1003F = true) (h3 : c.zero 3 = true) (hb : c.bit 2 16 = false)
    (h0 : c.f 2 5 0 ≠ 0) (hm : c.master = 0 → c.f 2 5 0 = s.sidOf c) (ho : s.sesOpen (c.f 2 5 0) = true) :
    runDomainReset c s = s.startReset c := by
  simp +contextual [runDomainReset, h2, h3, hb, h0, ho, hm]

theorem runDomainReset_job (h2 : c.only 2 0x1003F = true) (h3 : c.zero 3 = true) (hb : c.bit 2 16 = true)
    (hj : s.train.js ≠ .idle) (hm : c.master = 0 → s.train.sid = s.sidOf c) : runDomainReset c s = s.startReset c := by
  simp +contextual [runDomainReset, h2, h3, hb, hj, hm]

theorem runQueCreate_creates {n : Nat} {e : QEnt} (h : s.createCheck c = .inl (n, e)) (hb : c.bit 2 16 = false) :
    runQueCreate c s = (s.updHost fun h =>
      { h with qs := tput h.qs n { e with tail := if e.dbc then (s.ctr e.dbctr).toNat % 2 ^ e.log2n else 0 } }).okWith c n := by
  simp [runQueCreate, h, hb]

theorem runDevReset_ok (hz : c.zero 2 = true) (hs : s.mod.sdStep ≠ 5) :
    runDevReset c s = (s.ok c).updMod fun m => { m with resetBy := some c.q } := by
  simp [runDevReset, hz, hs]

theorem runHandleQuery_ok (hz : c.zero 3 = true) (hf : s.handleForeign c (c.n 2) = false) :
    runHandleQuery c s = s.okWith c (s.handleState (c.n 2)) := by
  simp [runHandleQuery, hz, hf]

theorem runHandleCancel_stops {l : Long} (hz : c.zero 3 = true) (hf : s.handleForeign c (c.n 2) = false)
    (hr : s.handleState (c.n 2) = 1) (hl : s.longAt (c.n 2 % 2 ^ 24) = some l) (hc : cancellable l.opc = true) :
    runHandleCancel c s = ((s.haltLong l).finishLong l.idx 0x10A 0#32 0#32 0#32 0#32).ok c := by
  simp only [runHandleCancel, hz, hf, hr, hl, hc]
  rfl

end

/-- Settles O39: each command of group 0x00 that passes its frame is its rule's effect (`Runs.of_passes`), and each rule's conditions lead
to the one branch that the statement names. -/
theorem sessionAndQueueCommandsComplete : Obligations.SessionAndQueueCommandsComplete := by
  rintro s q d _ rfl
  refine ⟨?nop, ?devInfo, ?sesOpen, ?sesClose, ?queue, ?domain, ?create, ?devReset, ?query, ?cancel⟩
  case nop => exact fun h hz => .of_passes rfl h (runNop_ok hz)
  case devInfo => exact fun h hz hf ha hw => .of_passes rfl h (runDevInfo_ok hz hf ha hw)
  case sesOpen => exact fun v e i h h3 h4 h5 hv he hi => .of_passes rfl h (runSesOpen_opens h3 h4 h5 hv he hi)
  case sesClose =>
    exact fun i a h h2 h3 h0 ho ha => .of_passes rfl h ((runSesClose_resets h2 h3 h0 ho).trans (State.startReset_accepts ha))
  case queue =>
    exact fun i a hb ha =>
      ⟨fun h => .of_passes rfl h ((runQueDelete_resets hb).trans (State.startReset_accepts ha)),
       fun h => .of_passes rfl h ((runQueReset_resets hb).trans (State.startReset_accepts ha))⟩
  case domain =>
    rintro i a h h2 h3 ha (⟨hb, h0, hm, ho⟩ | ⟨hb, hj, hm⟩)
    · exact .of_passes rfl h ((runDomainReset_session h2 h3 hb h0 hm ho).trans (State.startReset_accepts ha))
    · exact .of_passes rfl h ((runDomainReset_job h2 h3 hb hj hm).trans (State.startReset_accepts ha))
  case create => exact fun n e h hc hb => .of_passes rfl h (runQueCreate_creates hc hb)
  case devReset => exact fun h hz hs => .of_passes rfl h (runDevReset_ok hz hs)
  case query => exact fun h hz hf => .of_passes rfl h (runHandleQuery_ok hz hf)
  case cancel => exact fun l h hz hf hr hl hc => .of_passes rfl h (runHandleCancel_stops hz hf hr hl hc)

end Sys2Proof.Machine
end

section
/-! PROOFS. The rules of the job commands on a command that meets their conditions (12 R348 to R350, 04 R114, R121), what a job launch
leaves in a core (04 R49, R95), and O41. -/

namespace Sys2Proof.Machine

/-! ## Job commands -/

section
variable {s u a : State} {c : Cmd} {i : Nat} {b : List Byte}

/-- A structure whose words are good is handed on where it is well placed and readable. -/
theorem structure_good_runs {good : Bool} (k : State → List Byte → State) (hg : good = true) (h : Reads s c u b) :
    s.structure_ c good k = k u b := by
  rw [hg]; exact structure_runs k h

theorem runProgLoad_loads (h5 : c.only 5 0x07FF07FF = true) (h6 : c.only 6 0x03FF01FF = true) (h7 : c.only 7 1 = true)
    (h8 : c.zero 8 = true) (h32 : c.n 4 % 32 = 0) (hend : 32 * c.f 5 10 0 + c.n 4 ≤ 65536) (hn : 1 ≤ c.f 6 25 16)
    (hc : c.f 6 8 0 + c.f 6 25 16 ≤ 512) (hr : Reads s c u b) (ha : Accepts u c i a) :
    runProgLoad c s = (((from_ (c.f 6 8 0) (c.f 6 25 16)).foldl
      (fun (x : State) k => x.updCore k fun y => y.load (c.f 5 10 0) (c.f 5 26 16) b)
        (if c.bit 7 0 then a else a.newProgram)).updDet fun x => { x with prog := x.prog ++ b }).doneLong i := by
  simp only [runProgLoad]
  exact Eq.trans (structure_good_runs _ (by simp [h5, h6, h7, h8, h32, hend, hn, hc]) hr) (accepted_runs _ ha)

theorem runJobAttach_loads (h2 : c.only 2 0xFFF = true) (hp : c.f 2 11 0 ≠ 0) (h3 : c.only 3 0x7FFF = true) (hl : c.f 3 14 0 < 24576)
    (h4 : c.zero 4 = true) (hj : s.train.js = .idle) :
    runJobAttach c s = ((((s.updTrain fun x =>
        { Train.init with sid := s.sidOf c, aborts := x.aborts, pend := x.pend, replHnd := x.replHnd, repl := x.repl }).updFab
      fun f => { f with part := c.f 2 11 0, lnode := c.f 3 14 0 }).updHost fun h => { h with job := none }).setJob .loaded 0).ok c := by
  simp [runJobAttach, h2, hp, h3, hl.not_ge, h4, hj]

theorem runJobConfig_installs {j : JobCfg} (ho : s.ownsJob c = true) (hs : s.train.js = .loaded ∨ s.train.js = .held)
    (h5 : c.zero 5 = true) (hlo : 256 ≤ c.n 4) (hhi : c.n 4 ≤ 768) (hr : Reads s c u b) (hp : parseJob b = some j)
    (hq : u.ceqBad c j.seqCeq = none) (hf : u.train.js = .held → ∃ o, u.host.job = some o ∧ o.fixed j = true) :
    runJobConfig c s = (u.install j).ok c := by
  have hjs : ¬(s.train.js ≠ .loaded ∧ s.train.js ≠ .held) := fun h => hs.elim h.1 h.2
  have hheld : ¬(u.train.js = .held ∧ (!(u.host.job.map fun o => o.fixed j).getD false) = true) := by
    rintro ⟨hh, hn⟩
    obtain ⟨o, hj, hfix⟩ := hf hh
    simp [hj, hfix] at hn
  simp only [runJobConfig, ho, hjs, Bool.not_true, Bool.false_eq_true, if_false]
  refine Eq.trans (structure_good_runs _ (by simp [h5, hlo, hhi]) hr) ?_
  simp only [hp, hq, hheld, if_false]

theorem State.jc_of_job {j : JobCfg} (h : s.host.job = some j) : s.jc = j := by simp [State.jc, h]

theorem runJobLaunch_launches {j : JobCfg} (ho : s.ownsJob c = true) (h5 : c.only 5 0x17FFF = true) (h0 : c.f 5 14 0 ≠ 0)
    (hn : c.f 5 14 0 ≤ 24576) (h6 : c.zero 6 = true) (hs : s.train.js = .loaded) (hj : s.host.job = some j)
    (ht : c.bit 5 16 = true → s.train.tab.isSome = true) :
    runJobLaunch c s = ((s.updTrain fun x =>
      x.launch (c.f 5 14 0) (Desc.dword c.d 2) (c.w 4) j.eInit (c.bit 5 16)).launchAll.setJob .run 0).ok c := by
  have hstart : ¬(s.train.js ≠ .loaded ∨ s.host.job.isNone ∨ (c.bit 5 16 ∧ s.train.tab.isNone)) := by
    rintro (h | h | ⟨hb, h⟩)
    · exact h hs
    · simp [hj] at h
    · exact absurd (ht hb) (by simp [Option.isNone_iff_eq_none.1 h])
  have hwords : ¬(!c.only 5 0x17FFF ∨ c.f 5 14 0 = 0 ∨ c.f 5 14 0 > 24576 ∨ !c.zero 6) := by simp [h5, h0, hn, h6]
  simp only [runJobLaunch, ho, hwords, hstart, State.jc_of_job hj, Bool.not_true, Bool.false_eq_true, if_false]

theorem runJobDetach_resets (hz : c.zero 2 = true) (hs : s.train.js ≠ .idle) (ho : s.ownsJob c = true) :
    runJobDetach c s = s.startReset c := by
  simp [runJobDetach, hz, hs, ho]

theorem runCoreRelaunch_restarts (ho : s.ownsJob c = true) (hz : c.zero 2 = true) (hl : s.train.launched = true) :
    runCoreRelaunch c s =
      (allCores.foldl (fun (a : State) k => if (a.core k).st = .stopped then a.launchCore k else a) s).ok c := by
  simp only [runCoreRelaunch, ho, hz, hl, Bool.not_true, Bool.false_eq_true, if_false]

theorem runWorkPost_posts {t : State} (h4 : c.n 4 = 64) (h5 : c.only 5 0x1FFF = true) (h6 : c.zero 6 = true)
    (hq : (s.que (c.f 5 12 0)).typ = 3) (hr : Reads s c u b) (hsid : (u.que (c.f 5 12 0)).sid = u.sidOf c)
    (he : entryCheck (Desc.word (bytesWords b) 0) = none) (hst : (u.que (c.f 5 12 0)).st = 1) (hd : (u.que (c.f 5 12 0)).dbc = false)
    (hp : u.postEntry (c.f 5 12 0) (bytesWords b) = some t) : runWorkPost c s = t.ok c := by
  simp only [runWorkPost]
  refine Eq.trans (structure_good_runs _ (by simp [h4, h5, h6, hq]) hr) ?_
  simp [hsid, he, hst, hd, hp]

theorem runL2pSet_installs (ho : s.ownsJob c = true) (hs : s.train.js = .idle ∨ s.train.js = .loaded) (h4 : c.n 4 = 49152)
    (h5 : c.zero 5 = true) (hr : Reads s c u b) :
    runL2pSet c s = (u.updFab fun f => { f with l2p := l2pOf 0 b }).ok c := by
  have hjs : ¬(s.train.js ≠ .idle ∧ s.train.js ≠ .loaded) := fun h => hs.elim h.1 h.2
  simp only [runL2pSet, ho, hjs, Bool.not_true, Bool.false_eq_true, if_false]
  exact structure_good_runs _ (by simp [h4, h5]) hr

end

/-! ## Cores at a launch (R49, R95) -/

/-- A change of every listed core that leaves a core after reset as it is changes each core alike. -/
theorem State.core_mapCores (s : State) {f : Cor → Cor} (hf : f Cor.init = Cor.init) (k : Nat) :
    ({ s with cores := s.cores.map fun e => (e.1, f e.2) } : State).core k = f (s.core k) := by
  unfold State.core
  dsimp only
  induction s.cores with
  | nil => exact hf.symm
  | cons e t ih =>
    simp only [List.map_cons, tget]
    split
    · rfl
    · exact ih

/-- A launched core that is not retired runs from its entry bundle at the present step. -/
theorem State.core_launchCore_same {s : State} {k : Nat} (hr : (s.core k).retired = false) (hg : (s.core k).retiring = false) :
    (s.launchCore k).core k = { (s.core k).launch with step := s.train.step } := by
  simp [State.launchCore, hr, hg]

theorem State.core_launchCore_ne {j k : Nat} (s : State) (h : k ≠ j) : (s.launchCore j).core k = s.core k := by
  unfold State.launchCore
  split
  · rfl
  · rw [State.core_updCore, if_neg h]

@[simp] theorem State.launchCore_train (s : State) (k : Nat) : (s.launchCore k).train = s.train := by
  unfold State.launchCore
  split <;> rfl

/-- Launching cores other than `k` leaves core `k` as it is. -/
theorem State.core_foldl_launchCore_of_notMem {k : Nat} (l : List Nat) (s : State) (h : k ∉ l) :
    (l.foldl State.launchCore s).core k = s.core k := by
  induction l generalizing s with
  | nil => rfl
  | cons j l ih =>
    rw [List.mem_cons, not_or] at h
    rw [List.foldl_cons, ih _ h.2, State.core_launchCore_ne s h.1]

/-- A core among distinct cores that are launched in turn is launched once. -/
theorem State.core_foldl_launchCore {k : Nat} (l : List Nat) (s : State) (hl : l.Nodup) (hk : k ∈ l)
    (hr : (s.core k).retired = false) (hg : (s.core k).retiring = false) :
    (l.foldl State.launchCore s).core k = { (s.core k).launch with step := s.train.step } := by
  induction l generalizing s with
  | nil => cases hk
  | cons j l ih =>
    obtain ⟨hj, hl⟩ := List.nodup_cons.1 hl
    rw [List.foldl_cons]
    by_cases h : k = j
    · subst h
      rw [State.core_foldl_launchCore_of_notMem l _ hj, State.core_launchCore_same hr hg]
    · have hcore := State.core_launchCore_ne s h
      rw [ih _ hl ((List.mem_cons.1 hk).resolve_left h) (hcore ▸ hr) (hcore ▸ hg), hcore, State.launchCore_train]

/-- After a job launch a core that is not retired runs from its entry bundle at the present step, with VFLAGS cleared. -/
theorem State.core_launchAll {s : State} {k : Nat} (hk : k < 512) (hr : (s.core k).retired = false) (hg : (s.core k).retiring = false) :
    s.launchAll.core k = { (s.core k).launch with step := s.train.step, vflags := 0#8 } := by
  have hfold := State.core_foldl_launchCore allCores s List.nodup_range (List.mem_range.2 hk) hr hg
  simp only [State.launchAll]
  rw [State.core_mapCores (f := fun x => { x with vflags := 0#8 }) _ rfl, hfold]

/-- Settles O41: each job command that passes its frame is its rule's effect (`Runs.of_passes`), with its structure read and its handle
given, and a launch reaches every core once (`State.core_launchAll`). -/
theorem jobCommandsComplete : Obligations.JobCommandsComplete := by
  constructor
  · rintro s q d _ rfl
    refine ⟨?progLoad, ?attach, ?config, ?launch, ?detach, ?relaunch, ?workPost, ?l2pSet⟩
    case progLoad =>
      exact fun u b i a h h5 h6 h7 h8 h32 hend hn hc hr ha =>
        ⟨_, rfl, .of_passes rfl h (runProgLoad_loads h5 h6 h7 h8 h32 hend hn hc hr ha)⟩
    case attach => exact fun h h2 hp h3 hl h4 hj => ⟨_, rfl, .of_passes rfl h (runJobAttach_loads h2 hp h3 hl h4 hj)⟩
    case config =>
      exact fun u b j h ho hs h5 hlo hhi hr hp hq hf => .of_passes rfl h (runJobConfig_installs ho hs h5 hlo hhi hr hp hq hf)
    case launch =>
      exact fun j h ho h5 h0 hn h6 hs hj ht =>
        ⟨_, rfl, rfl, rfl, rfl, .of_passes rfl h (runJobLaunch_launches ho h5 h0 hn h6 hs hj ht)⟩
    case detach =>
      exact fun i a h hz hs ho ha => .of_passes rfl h ((runJobDetach_resets hz hs ho).trans (State.startReset_accepts ha))
    case relaunch => exact fun h ho hz hl => .of_passes rfl h (runCoreRelaunch_restarts ho hz hl)
    case workPost =>
      exact fun u b t h h4 h5 h6 hq hr hsid he hst hd hp => .of_passes rfl h (runWorkPost_posts h4 h5 h6 hq hr hsid he hst hd hp)
    case l2pSet => exact fun u b h ho hs h4 h5 hr => .of_passes rfl h (runL2pSet_installs ho hs h4 h5 hr)
  · intro s k hk hr hg
    rw [State.core_launchAll hk hr hg, State.core_launchCore_same hr hg]
    exact ⟨rfl, rfl, rfl, rfl, rfl, rfl⟩

end Sys2Proof.Machine
end

section
/-! PROOFS. What keeps the device's partition (07 R206): reports, accesses to memory, records, and the steps of a queue reset
(12 Table 12-9); the events of the host's link (01 R25, 12 R331, R333, R334), and O36. -/

namespace Sys2Proof.Machine

/-- A fold whose step keeps what `g` reads keeps it. -/
theorem foldl_keeps {σ α β : Type} (g : σ → β) {f : σ → α → σ} (h : ∀ a x, g (f a x) = g a) (l : List α) (s : σ) :
    g (l.foldl f s) = g s :=
  List.foldlRecOn l f (motive := fun t => g t = g s) rfl fun t ht x _ => (h t x).trans ht

theorem State.ite_part {p : Prop} [Decidable p] {s t u : State} (ht : t.fab.part = s.fab.part) (hu : u.fab.part = s.fab.part) :
    (if p then t else u).fab.part = s.fab.part := by
  split <;> assumption

theorem State.foldl_part {α : Type} {f : State → α → State} (h : ∀ a x, (f a x).fab.part = a.fab.part) (l : List α) (s : State) :
    (l.foldl f s).fab.part = s.fab.part :=
  foldl_keeps (fun a : State => a.fab.part) h l s

/-! ## Updates, reports and ledger entries -/

@[simp] theorem State.updStack_part (s : State) (n : Nat) (f : Stack → Stack) : (s.updStack n f).fab.part = s.fab.part := rfl
@[simp] theorem State.updGrp_part (s : State) (n : Nat) (f : RGrp → RGrp) : (s.updGrp n f).fab.part = s.fab.part := rfl
@[simp] theorem State.updBank_part (s : State) (r b : Nat) (f : Bank → Bank) : (s.updBank r b f).fab.part = s.fab.part := rfl
@[simp] theorem State.updTerr_part (s : State) (n : Nat) (f : Terr → Terr) : (s.updTerr n f).fab.part = s.fab.part := rfl
@[simp] theorem State.updQue_part (s : State) (q : Nat) (f : QEnt → QEnt) : (s.updQue q f).fab.part = s.fab.part := rfl
@[simp] theorem State.updEng_part (s : State) (e : Nat) (f : Eng → Eng) : (s.updEng e f).fab.part = s.fab.part := rfl
@[simp] theorem State.report_part (s : State) (r : Report) : (s.report r).fab.part = s.fab.part := by
  unfold State.report; split <;> rfl
@[simp] theorem State.ledg_part (s : State) (a b c d : Nat) (bs : List Byte) : (s.ledg a b c d bs).fab.part = s.fab.part := rfl
@[simp] theorem State.winPut_part (s : State) (w i : Nat) : (s.winPut w i).fab.part = s.fab.part := rfl
@[simp] theorem State.ctrAsk_part (s : State) (src : CtrSrc) (n : Nat) (op : CtrOp) : (s.ctrAsk src n op).fab.part = s.fab.part := rfl

theorem State.winEvent_part (s : State) (w i : Nat) {act : State → State} (h : ∀ t : State, (act t).fab.part = t.fab.part) :
    (s.winEvent w i act).fab.part = s.fab.part := by
  unfold State.winEvent
  split
  · rw [h, State.winPut_part]
  · rfl

/-! ## The scratchpad -/

@[simp] theorem State.bankRetire_part (s : State) (r b : Nat) : (s.bankRetire r b).fab.part = s.fab.part := by
  unfold State.bankRetire
  split
  · rfl
  · simp
@[simp] theorem State.floorFixed_part (s : State) (w : Nat) : (s.floorFixed w).fab.part = s.fab.part :=
  (State.winEvent_part _ _ _ fun t => t.bankRetire_part _ _).trans (by simp)
@[simp] theorem State.floorBad_part (s : State) (w : Nat) : (s.floorBad w).fab.part = s.fab.part :=
  (State.winEvent_part _ _ _ fun t => t.bankRetire_part _ _).trans (by simp)
@[simp] theorem State.spReadAs_part (s : State) (dead : Bool) (w : Nat) (f : EccFind) :
    (s.spReadAs dead w f).1.fab.part = s.fab.part := by
  unfold State.spReadAs
  split
  · simp
  · dsimp only
    split
    · simp
    · split <;> simp
@[simp] theorem State.spAsk_part (s : State) (ws : List Nat) : (s.spAsk ws).1.fab.part = s.fab.part :=
  foldl_keeps (fun a : State × List (W32 × Bool) × Option (Nat × Bool) => a.1.fab.part) (fun a w => a.1.spReadAs_part _ w _) ws _
@[simp] theorem State.spWrite_part (s : State) (w : Nat) (v : W32) (sp : Bool) : (s.spWrite w v sp).fab.part = s.fab.part := by
  unfold State.spWrite; split <;> simp
@[simp] theorem State.spWriteByte_part (s : State) (a : Nat) (v : Byte) (sp : Bool) :
    (s.spWriteByte a v sp).fab.part = s.fab.part := by
  unfold State.spWriteByte; dsimp only; split <;> simp

/-! ## Device memory -/

@[simp] theorem State.admitUnit_part (s : State) (who : Requester) (p a : Nat) : (s.admitUnit who p a).1.fab.part = s.fab.part := by
  unfold State.admitUnit
  split
  · simp
  · split <;> simp
@[simp] theorem State.markRow_part (s : State) (st row : Nat) : (s.markRow st row).fab.part = s.fab.part := by
  unfold State.markRow; dsimp only; split <;> rfl
@[simp] theorem State.rowEvent_part (s : State) (st row : Nat) : (s.rowEvent st row).fab.part = s.fab.part := by
  unfold State.rowEvent; dsimp only; split <;> simp
@[simp] theorem State.failStack_part (s : State) (st : Nat) : (s.failStack st).fab.part = s.fab.part := by
  unfold State.failStack; split <;> simp
@[simp] theorem State.hbmFixed_part (s : State) (st so info : Nat) : (s.hbmFixed st so info).fab.part = s.fab.part := by
  simp [State.hbmFixed]
@[simp] theorem State.hbmBad_part (s : State) (st so info : Nat) : (s.hbmBad st so info).fab.part = s.fab.part :=
  (State.winEvent_part _ _ _ fun t => t.failStack_part _).trans (by simp)
@[simp] theorem State.unitRead_part (s : State) (st so info : Nat) (e : Ecc) : (s.unitRead st so info e).1.fab.part = s.fab.part := by
  unfold State.unitRead
  split
  · dsimp only; split <;> simp
  · cases e <;> simp
@[simp] theorem State.unitWrite_part (s : State) (st so info : Nat) (data : List Byte) (mask spoil : List Bool) :
    (s.unitWrite st so info data mask spoil).fab.part = s.fab.part := by
  unfold State.unitWrite; split <;> simp [State.dropUnitBack]

/-- The admission of a unit, with its result named. -/
theorem State.admitUnit_part_of_eq {s t : State} {who : Requester} {p a : Nat} {x : Option (Nat × Nat × Nat)}
    (h : s.admitUnit who p a = (t, x)) : t.fab.part = s.fab.part := by
  rw [← s.admitUnit_part who p a, h]

@[simp] theorem State.memRead_part (s : State) (who : Requester) (p a n : Nat) : (s.memRead who p a n).1.fab.part = s.fab.part := by
  refine foldl_keeps (fun a : State × List Byte × List Bool => a.1.fab.part) (fun acc u => ?_) (unitsOf a n) (s, [], [])
  dsimp only
  split <;> rename_i h <;> simp [State.admitUnit_part_of_eq h]
@[simp] theorem State.memWrite_part (s : State) (who : Requester) (p a : Nat) (bs : List Byte) (sp : List Bool) :
    (s.memWrite who p a bs sp).1.fab.part = s.fab.part := by
  refine foldl_keeps (fun a : State × Option Nat => a.1.fab.part) (fun acc u => ?_) (unitsOf a bs.length).zipIdx (s, none)
  dsimp only
  split <;> rename_i h
  · exact State.admitUnit_part_of_eq h
  · dsimp only
    split <;> simp [State.admitUnit_part_of_eq h]

/-! ## Records, long commands and queue entries -/

@[simp] theorem State.postRec_part (s : State) (q : Nat) (r : Rec) : (s.postRec q r).fab.part = s.fab.part := rfl
@[simp] theorem State.postOn_part (s : State) (q : Nat) (r : Rec) : (s.postOn q r).fab.part = s.fab.part := by
  unfold State.postOn; split <;> rfl
@[simp] theorem State.abortRec_part (s : State) (q : Nat) (tag : W32) : (s.abortRec q tag).fab.part = s.fab.part := s.postOn_part q _
@[simp] theorem State.finishOn_part (s : State) (c : Option Nat) (i st : Nat) (d0 d1 d2 d3 : W32) :
    (s.finishOn c i st d0 d1 d2 d3).fab.part = s.fab.part := by
  unfold State.finishOn
  split
  · rfl
  · cases c <;> rfl
@[simp] theorem State.finishLong_part (s : State) (i st : Nat) (d0 d1 d2 d3 : W32) :
    (s.finishLong i st d0 d1 d2 d3).fab.part = s.fab.part := by
  unfold State.finishLong; split <;> simp
@[simp] theorem State.haltLong_part (s : State) (l : Long) : (s.haltLong l).fab.part = s.fab.part := by
  unfold State.haltLong
  split <;> simp
  split <;> rfl
@[simp] theorem State.postItem_part (s : State) (it : Option (Nat × Nat × Nat)) (q : Nat) (r : Rec) :
    (s.postItem it q r).fab.part = s.fab.part := by
  unfold State.postItem
  split
  · split <;> rfl
  · simp
@[simp] theorem State.seqItem_part (s : State) (u : Option (Nat × Nat × Nat)) (ok : Bool) : (s.seqItem u ok).fab.part = s.fab.part := by
  unfold State.seqItem; split <;> rfl
@[simp] theorem State.dropEntry_part (s : State) (q i : Nat) (tag : W32) (st : Nat) :
    (s.dropEntry q i tag st).fab.part = s.fab.part := by
  simp [State.dropEntry]
@[simp] theorem State.entryAt_part (s : State) (who : Requester) (q i : Nat) : (s.entryAt who q i).1.fab.part = s.fab.part := by
  unfold State.entryAt; dsimp only; split <;> simp
@[simp] theorem State.abortEntries_part (s : State) (who : Requester) (q : Nat) : (s.abortEntries who q).fab.part = s.fab.part :=
  State.foldl_part (fun a x => by simp) (List.range (s.que q).count) s

/-! ## Collectives that end -/

@[simp] theorem State.freeSlot_part (s : State) (x : CSlot) : (s.freeSlot x).fab.part = s.fab.part := rfl
@[simp] theorem State.spaceRead_part (s : State) (e : Nat) (dev : Bool) (a n : Nat) :
    (s.spaceRead e dev a n).1.fab.part = s.fab.part := by
  unfold State.spaceRead; split <;> simp
@[simp] theorem State.spaceWrite_part (s : State) (e : Nat) (dev : Bool) (a : Nat) (bs : List (Byte × Bool)) :
    (s.spaceWrite e dev a bs).1.fab.part = s.fab.part := by
  unfold State.spaceWrite
  split
  · simp
  · dsimp only
    split
    · exact State.foldl_part (fun t i => t.spWrite_part _ _ _) _ s
    · exact State.foldl_part (fun t b => t.spWriteByte_part _ _ _) _ s
@[simp] theorem State.spaceSpoil_part (s : State) (e : Nat) (dev : Bool) (a n : Nat) : (s.spaceSpoil e dev a n).fab.part = s.fab.part := by
  simp [State.spaceSpoil]
@[simp] theorem State.spoilDst_part (s : State) (r : CollRun) : (s.spoilDst r).fab.part = s.fab.part := by
  unfold State.spoilDst
  refine (State.foldl_part (fun a x => ?_) _ _).trans (State.foldl_part (fun a x => ?_) _ _) <;>
  · dsimp only
    split <;> simp
@[simp] theorem State.dropShadow_part (s : State) : s.dropShadow.fab.part = s.fab.part := by simp [State.dropShadow]
@[simp] theorem State.dropRun_part (s : State) (r : CollRun) : (s.dropRun r).fab.part = s.fab.part := by
  unfold State.dropRun; dsimp only; split <;> rfl
@[simp] theorem State.tolRecord_part (s : State) (q : Nat) (d : Desc) (st : Nat) (d0 : W32) :
    (s.tolRecord q d st d0).fab.part = s.fab.part := by
  have posted : (if tolNotify d then
      s.postOn q (rec0 (Desc.word d 1) q st (s.que q).head d0 0#32 0#32 0#32 false) else s).fab.part = s.fab.part :=
    State.ite_part (s.postOn_part _ _) rfl
  exact State.ite_part posted posted
@[simp] theorem State.stopTol_part (s : State) (q e : Nat) : (s.stopTol q e).fab.part = s.fab.part := by
  unfold State.stopTol
  split
  · rfl
  · exact State.foldl_part (fun a x => by simp) _ s
@[simp] theorem State.abortRun_part (s : State) (r : CollRun) (except : Option Nat) : (s.abortRun r except).fab.part = s.fab.part := by
  unfold State.abortRun
  refine State.ite_part ((State.dropShadow_part _).trans ((State.dropRun_part _ _).trans ?_))
    ((State.stopTol_part _ _ _).trans ((State.tolRecord_part _ _ _ _ _).trans ((State.dropRun_part _ _).trans
      ((State.updEng_part _ _ _).trans ((State.ctrAsk_part _ _ _ _).trans ?_))))) <;>
  · refine State.ite_part ((State.spoilDst_part _ _).trans ?_) ?_ <;>
    · refine (State.foldl_part (fun a x => a.freeSlot_part x) _ _).trans ?_
      refine State.foldl_part (fun a t => State.foldl_part (fun b l => ?_) _ a) _ s.tick
      split <;> rfl
@[simp] theorem State.abortTol_part (s : State) (q : Nat) : (s.abortTol q).fab.part = s.fab.part := by
  refine (State.stopTol_part _ _ _).trans (State.foldl_part (fun a r => ?_) _ s)
  split <;> simp

/-! ## A queue reset -/

@[simp] theorem State.abortHsq_part (s : State) (q : Nat) : (s.abortHsq q).fab.part = s.fab.part := by
  unfold State.abortHsq
  refine (State.foldl_part (fun a _ => by simp) _ _).trans ?_
  rw [State.updHost_fab, State.updFlt_fab]
  refine (State.foldl_part (fun a f => by simp) _ _).trans ?_
  exact State.foldl_part (fun a l => by simp) _ s
@[simp] theorem State.abortNet_part (s : State) (q : Nat) : (s.abortNet q).fab.part = s.fab.part := by
  unfold State.abortNet
  refine (State.abortEntries_part _ _ _).trans ?_
  refine (State.foldl_part (fun a t => a.abortRec_part _ _) _ _).trans ?_
  exact State.foldl_part (fun a m => a.abortRec_part _ _) _ s
@[simp] theorem State.resetQueue_part (s : State) (q : Nat) : (s.resetQueue q).fab.part = s.fab.part := by
  unfold State.resetQueue
  dsimp only
  split <;> simp

/-- A session that ends in a function-level reset leaves the device's partition. -/
theorem State.flrSession_part (s : State) (sid : Nat) : (s.flrSession sid).fab.part = s.fab.part :=
  State.foldl_part (fun a q => a.resetQueue_part q) _ s

/-! ## Events of the host's link -/

/-- An event whose rule's condition holds occurs. -/
theorem when_next {b : Bool} {s t : State} (h : b = true) : when b s t = .next t := if_pos h

/-- A configuration word that no rule fixes takes what is written. -/
theorem State.cfgPut_stores (s : State) {off : Nat} (v : W32) (h0 : off ≠ 0) (h8 : off ≠ 8) (h108 : off ≠ 0x108) :
    s.cfgPut off v = s.updHost fun h => { h with cfg := tput h.cfg off v } := by
  simp [State.cfgPut, h0, h8, h108]

theorem execPerstAssert_resets {s : State} (hp : s.mod.perst = false) (hs : s.mod.standby = true) (hd : s.mod.sdStep ≠ 5) :
    execPerstAssert s = .next ((s.updMod fun m => { m with perst := true }).updHost HostIf.endpoint).deviceReset := by
  refine Eq.trans (when_next (by rw [hp]; rfl)) (congrArg _ (if_neg ?_))
  simp [hs, hd]

/-- A trained link has a width that PCI Express knows. -/
theorem State.linkTrain_width (s : State) : s.linkTrain.host.width ∈ [1, 2, 4, 8, 16] := by
  have hlt : Config.freeChoice (s.free + 1) % 5 < [1, 2, 4, 8, 16].length := Nat.mod_lt _ (by decide)
  show [1, 2, 4, 8, 16].getD (Config.freeChoice (s.free + 1) % 5) 16 ∈ _
  rw [List.getD_eq_getElem _ _ hlt]
  exact List.getElem_mem hlt

/-- A trained link has a rate of PCI Express, 1 to 6. -/
theorem State.linkTrain_speed (s : State) : 1 ≤ s.linkTrain.host.speed ∧ s.linkTrain.host.speed ≤ 6 := by
  have hlt : Config.freeChoice s.free % 6 < 6 := Nat.mod_lt _ (by decide)
  have hsp : s.linkTrain.host.speed = 1 + Config.freeChoice s.free % 6 := rfl
  omega

theorem State.aperture_open {s : State} {off n : Nat} (ho : s.barOpen = true) (hn : 0 < n) (he : off + n ≤ 2 ^ s.host.b4log2) :
    s.aperture off n = true := by
  simp [State.aperture, ho, hn, he]

theorem execBar4Read_oneUnit {s u : State} {off len : Nat} {e : EccFind} {b : List Byte} {sp : List Bool} (ho : s.aperture off len = true)
    (hu : unitsOf ((s.host.b4base + off) % 2 ^ 40) len = [(s.host.b4base + off) % 2 ^ 40 / 32 * 32])
    (hr : s.apertureUnit ((s.host.b4base + off) % 2 ^ 40 / 32 * 32) e = (u, b, sp)) :
    execBar4Read off len e s = .next (u.emit (.readData ((b.drop ((s.host.b4base + off) % 2 ^ 40 % 32)).take len)
      (((sp.drop ((s.host.b4base + off) % 2 ^ 40 % 32)).take len).any id))) := by
  refine Eq.trans (when_next ho) ?_
  simp only [hu, List.foldl_cons, List.foldl_nil, hr, List.nil_append]

/-- Settles O36: each event's condition holds (`when_next`), and the fields that its effect changes are read off; the partition stays at a
function-level reset because no step of a queue reset changes it (`State.resetQueue_part`). -/
theorem hostReachesTheDevice : Obligations.HostReachesTheDevice := by
  refine ⟨?config, ?perst, ?train, ?flr, State.flrSession_part, ?write, ?read, fun _ _ => rfl, ?ethernet⟩
  case config =>
    intro s off v hs hc ho ha
    have hopen : (s.mod.standby && s.host.cfgOn && decide (off < 4096) && off % 4 == 0) = true := by simp [hs, hc, ho, ha]
    exact ⟨fun h0 h8 h108 => (when_next hopen).trans (congrArg _ (s.cfgPut_stores v h0 h8 h108)), when_next hopen⟩
  case perst => exact fun s hp hs hd => execPerstAssert_resets hp hs hd
  case train =>
    intro s hp
    exact ⟨_, when_next hp, rfl, rfl, (State.linkTrain_speed _).1, (State.linkTrain_speed _).2, State.linkTrain_width _, rfl, rfl⟩
  case flr => exact fun s ho => when_next ho
  case write => exact fun s off data p ho hn he => when_next (State.aperture_open ho hn he)
  case read => exact fun s u off len e b sp ho hn he _ hu hr => execBar4Read_oneUnit (State.aperture_open ho hn he) hu hr
  case ethernet =>
    exact fun s p f hp => ⟨(Config.freeWord s.free).toNat % 2 ^ 48, Nat.mod_lt _ (by decide), if_pos (hp.trans_le (by decide))⟩

end Sys2Proof.Machine
end

section
/-! PROOFS. The EX320 accumulator as a commutative monoid (02 R58, R59), and O27. -/

namespace Sys2Proof.Machine

/-! ## Classes and addition -/

theorem clsAdd_comm (a b : BitVec 2) : clsAdd a b = clsAdd b a := by revert a b; decide

theorem clsAdd_assoc (a b c : BitVec 2) : clsAdd (clsAdd a b) c = clsAdd a (clsAdd b c) := by revert a b c; decide

@[simp] theorem clsAdd_fin (a : BitVec 2) : clsAdd a 0#2 = a := by revert a; decide

@[simp] theorem fin_clsAdd (a : BitVec 2) : clsAdd 0#2 a = a := if_pos rfl

@[simp] theorem clsAdd_nan (a : BitVec 2) : clsAdd a 3#2 = 3#2 := by revert a; decide

theorem Ex.add_comm (x y : Ex) : x.add y = y.add x := by
  simp only [Ex.add, BitVec.add_comm, clsAdd_comm]

theorem Ex.add_assoc (x y z : Ex) : (x.add y).add z = x.add (y.add z) := by
  simp only [Ex.add, BitVec.add_assoc, clsAdd_assoc]

@[simp] theorem Ex.add_zero (x : Ex) : x.add Ex.zero = x := by
  simp [Ex.add, Ex.zero]

/-- Adding an operand is adding the EX320 value that it alone sums to, so R59 reduces to the laws of `Ex.add`. -/
theorem Ex.addNum_eq_add (x : Ex) (v : Num) : x.addNum v = x.add (Ex.zero.addNum v) := by
  cases v with
  | nan => simp [Ex.addNum, Ex.add, Ex.zero]
  | inf neg => simp [Ex.addNum, Ex.add, Ex.zero]
  | fin neg m e rest => simp [Ex.addNum, Ex.add, Ex.zero]

/-! ## Sums of lists -/

theorem Ex.addNum_right_comm (x : Ex) (u v : Num) : (x.addNum u).addNum v = (x.addNum v).addNum u := by
  rw [Ex.addNum_eq_add (x.addNum u), Ex.addNum_eq_add x u, Ex.addNum_eq_add (x.addNum v), Ex.addNum_eq_add x v, Ex.add_assoc,
    Ex.add_comm (Ex.zero.addNum u), Ex.add_assoc]

theorem Ex.foldl_addNum (x : Ex) (vs : List Num) : vs.foldl Ex.addNum x = x.add (vs.foldl Ex.addNum Ex.zero) := by
  induction vs generalizing x with
  | nil => simp
  | cons v vs ih => rw [List.foldl_cons, List.foldl_cons, ih, ih (Ex.zero.addNum v), Ex.addNum_eq_add x v, Ex.add_assoc]

theorem Ex.foldl_addNum_append (us vs : List Num) :
    (us ++ vs).foldl Ex.addNum Ex.zero = (us.foldl Ex.addNum Ex.zero).add (vs.foldl Ex.addNum Ex.zero) := by
  rw [List.foldl_append, Ex.foldl_addNum]

theorem Ex.foldl_addNum_flatten (x : Ex) (gs : List (List Num)) :
    gs.flatten.foldl Ex.addNum x = (gs.map fun g => g.foldl Ex.addNum Ex.zero).foldl Ex.add x := by
  induction gs generalizing x with
  | nil => rfl
  | cons g gs ih => rw [List.flatten_cons, List.foldl_append, ih, List.map_cons, List.foldl_cons, Ex.foldl_addNum x]

/-- Settles O27: addition is commutative and associative (`Ex.add_comm`, `Ex.add_assoc`), and each operand adds as the value it alone
sums to (`Ex.addNum_eq_add`). -/
theorem exactSumsKeepNoOrder : Obligations.ExactSumsKeepNoOrder := by
  refine ⟨?order, Ex.foldl_addNum_append, Ex.foldl_addNum_flatten Ex.zero, Ex.foldl_addNum⟩
  case order => exact fun xs ys h => h.foldl_eq' (fun u _ v _ x => Ex.addNum_right_comm x u v) Ex.zero

end Sys2Proof.Machine
end

section
/-! PROOFS. Reading and writing the binary formats (02 R35, R36, R41 to R48), and O29. -/

namespace Sys2Proof.Machine

/-! ## Codes of a format -/

theorem b2n_lt_two (b : Bool) : b2n b < 2 := by cases b <;> decide

theorem b2n_nbit (x n : Nat) : b2n (nbit x n) = x / 2 ^ n % 2 := by
  obtain h | h := Nat.mod_two_eq_zero_or_one (x / 2 ^ n)
  · simp [nbit, b2n, h]
  · simp [nbit, b2n, h]

theorem b2n_nbit_top {x n : Nat} (h : x < 2 ^ (n + 1)) : b2n (nbit x n) * 2 ^ n + x % 2 ^ n = x := by
  have hlt : x / 2 ^ n < 2 := Nat.div_lt_of_lt_mul (by rwa [← pow_succ])
  rw [b2n_nbit, Nat.mod_eq_of_lt hlt, Nat.mul_comm, Nat.div_add_mod]

/-- A format whose word is a sign, an exponent code and a fraction, and whose exponent codes 1 to 2^ebits − 2 run from `emin` to `emax`. -/
structure Fmt.Ieee (f : Fmt) : Prop where
  width : f.w = f.p + f.ebits + 1
  range : f.emin ≤ f.emax
  top   : f.emin + (2 ^ f.ebits : Nat) = f.emax + 3

theorem fmtQ16_ieee : fmtQ16.Ieee := ⟨by decide, by decide, by decide⟩
theorem fmtB32_ieee : fmtB32.Ieee := ⟨by decide, by decide, by decide⟩
theorem fmtB64_ieee : fmtB64.Ieee := ⟨by decide, by decide, by decide⟩

/-- The code with a given sign, exponent code and fraction. -/
def Fmt.code (f : Fmt) (neg : Bool) (ec fr : Nat) : Nat := b2n neg * 2 ^ (f.w - 1) + ec * 2 ^ f.p + fr

section
variable {f : Fmt} (hf : f.Ieee)
include hf

theorem Fmt.code_fields {x : Nat} (hx : x < 2 ^ f.w) :
    f.code (nbit x (f.w - 1)) (x / 2 ^ f.p % 2 ^ f.ebits) (x % 2 ^ f.p) = x := by
  have hw : f.w - 1 = f.p + f.ebits := by rw [hf.width, Nat.add_sub_cancel]
  have hlow : x % 2 ^ (f.w - 1) = x % 2 ^ f.p + 2 ^ f.p * (x / 2 ^ f.p % 2 ^ f.ebits) := by rw [hw, pow_add, Nat.mod_mul]
  have htop := b2n_nbit_top (x := x) (n := f.w - 1) (by rwa [hw, ← hf.width])
  rw [hlow] at htop
  rw [Fmt.code, Nat.mul_comm (x / 2 ^ f.p % 2 ^ f.ebits)]
  omega

theorem Fmt.three_le_exponents : 3 ≤ 2 ^ f.ebits := by
  have := hf.range
  have := hf.top
  omega

/-! ## Writing an exact value -/

omit hf in
/-- A value whose lowest bit is the target's spacing at its magnitude is written with no rounding. -/
theorem Fmt.write_exact {m : Nat} {e : Int} (neg : Bool) (cvt r : Nat) (hm : m ≠ 0) (he : max (e + Nat.log2 m) f.emin - f.p = e)
    (hmax : e + Nat.log2 m ≤ f.emax) :
    f.write (.fin neg m e false) cvt r =
      (if m < 2 ^ f.p then f.code neg 0 m
       else f.code neg (e + Nat.log2 m - f.emin + 1).toNat (m / 2 ^ (Nat.log2 m - f.p) - 2 ^ f.p), 0) := by
  have hr : roundAt m e e false (nbit cvt 0) r = (m, false) := by simp [roundAt]
  have ho : ¬ f.emax < e + Nat.log2 m := by omega
  simp only [Fmt.write, he, hr, hm, ho, if_false, Fmt.code]
  split <;> simp

theorem Fmt.write_subnormal {fr : Nat} (neg : Bool) (cvt r : Nat) (h0 : fr ≠ 0) (hfr : fr < 2 ^ f.p) :
    f.write (.fin neg fr (f.emin - f.p) false) cvt r = (f.code neg 0 fr, 0) := by
  have hlog : Nat.log2 fr < f.p := (Nat.log2_lt h0).2 hfr
  have hrange := hf.range
  rw [Fmt.write_exact neg cvt r h0 (by omega) (by omega), if_pos hfr]

theorem Fmt.write_normal {ec fr : Nat} (neg : Bool) (cvt r : Nat) (h0 : ec ≠ 0) (htop : ec + 1 < 2 ^ f.ebits) (hfr : fr < 2 ^ f.p) :
    f.write (.fin neg (2 ^ f.p + fr) (f.emin + (ec - 1 : Nat) - f.p) false) cvt r = (f.code neg ec fr, 0) := by
  have hlog : Nat.log2 (2 ^ f.p + fr) = f.p :=
    (Nat.log2_eq_iff (by omega)).2 ⟨by omega, by rw [pow_succ]; omega⟩
  have hemax := hf.top
  rw [Fmt.write_exact neg cvt r (by omega) (by rw [hlog]; omega) (by rw [hlog]; omega), if_neg (by omega), hlog,
    show (f.emin + (ec - 1 : Nat) - f.p + f.p - f.emin + 1).toNat = ec by omega]
  simp

omit hf in
theorem Fmt.write_inf (neg : Bool) (cvt r : Nat) : f.write (.inf neg) cvt r = (f.code neg (2 ^ f.ebits - 1) 0, 0) := rfl

/-- Reading a number and writing it back: one case for each row of Table 2-2. -/
theorem Fmt.write_read {x : Nat} (cvt r : Nat) (hx : x < 2 ^ f.w) (hnan : f.read x ≠ .nan) (hneg : x ≠ 2 ^ (f.w - 1)) :
    f.write (f.read x) cvt r = (x, 0) := by
  have hcode := Fmt.code_fields hf hx
  have hfr : x % 2 ^ f.p < 2 ^ f.p := Nat.mod_lt _ (by positivity)
  have hec : x / 2 ^ f.p % 2 ^ f.ebits < 2 ^ f.ebits := Nat.mod_lt _ (by positivity)
  unfold Fmt.read at hnan ⊢
  generalize nbit x (f.w - 1) = neg at hcode hnan ⊢
  generalize x / 2 ^ f.p % 2 ^ f.ebits = ec at hcode hnan hec ⊢
  generalize x % 2 ^ f.p = fr at hcode hnan hfr ⊢
  subst hcode
  dsimp only at hnan ⊢
  split_ifs at hnan ⊢ with htop h0 hsub h0 hq
  · rw [Fmt.write_inf, htop, h0]
  · exact absurd rfl hnan
  · exact absurd rfl hnan
  · have hpos : neg = false := by
      by_contra h
      exact hneg (by simp [Fmt.code, hsub, h0, h, b2n])
    simp [Fmt.write, Num.zero, Fmt.code, hpos, h0, hsub, b2n]
  · rw [Fmt.write_subnormal hf neg cvt r h0 hfr, hsub]
  · rw [Fmt.write_normal hf neg cvt r hsub (by omega) hfr]

/-! ## What is ever written -/

/-- The code of a number: its exponent code is not all ones, or its fraction is 0. -/
def Fmt.IsNumber (f : Fmt) (c : Nat) : Prop :=
  ∃ neg ec fr, c = f.code neg ec fr ∧ fr < 2 ^ f.p ∧ (ec + 1 < 2 ^ f.ebits ∨ ec + 1 = 2 ^ f.ebits ∧ fr = 0)

omit hf in
theorem Fmt.infBits_isNumber (neg : Bool) : f.IsNumber (f.infBits neg) :=
  ⟨neg, 2 ^ f.ebits - 1, 0, rfl, by positivity, .inr ⟨Nat.sub_add_cancel Nat.one_le_two_pow, rfl⟩⟩

theorem Fmt.maxBits_isNumber (neg : Bool) : f.IsNumber (f.maxBits neg) := by
  have hexp := Fmt.three_le_exponents hf
  have hp : 1 ≤ 2 ^ f.p := Nat.one_le_two_pow
  have hlast : (2 ^ f.ebits - 1) * 2 ^ f.p = (2 ^ f.ebits - 2) * 2 ^ f.p + 2 ^ f.p := by
    rw [← Nat.succ_mul]
    congr 1
    omega
  refine ⟨neg, 2 ^ f.ebits - 2, 2 ^ f.p - 1, ?_, by omega, .inl (by omega)⟩
  rw [Fmt.maxBits, Fmt.infBits, Fmt.code, hlast]
  omega

omit hf in
/-- The fraction of a rounded significand, cut to its top p + 1 bits. -/
theorem significand_fraction_lt (t p : Nat) : t / 2 ^ (Nat.log2 t - p) - 2 ^ p < 2 ^ p := by
  have hcut : t / 2 ^ (Nat.log2 t - p) < 2 ^ (p + 1) := by
    refine Nat.div_lt_of_lt_mul ?_
    rw [← pow_add]
    exact (Nat.lt_log2_self (n := t)).trans_le (Nat.pow_le_pow_right (by omega) (by omega))
  have : 0 < 2 ^ p := by positivity
  rw [pow_succ] at hcut
  omega

theorem Fmt.write_isNumber {v : Num} (cvt r : Nat) (hv : v ≠ .nan) : f.IsNumber (f.write v cvt r).1 := by
  have hexp := Fmt.three_le_exponents hf
  have hzero : f.IsNumber 0 := ⟨false, 0, 0, by simp [Fmt.code, b2n], by positivity, .inl (by omega)⟩
  cases v with
  | nan => exact absurd rfl hv
  | inf neg => exact Fmt.infBits_isNumber neg
  | fin neg m e rest =>
    simp only [Fmt.write, apply_ite Prod.fst]
    generalize max (e + Nat.log2 m) f.emin - f.p = q
    generalize (roundAt m e q rest (nbit cvt 0) r) = t
    split_ifs with hm ht hov hsat hsub
    · exact hzero
    · exact hzero
    · exact Fmt.maxBits_isNumber hf neg
    · exact Fmt.infBits_isNumber neg
    · exact ⟨neg, 0, t.1, by simp [Fmt.code], hsub, .inl (by omega)⟩
    · have htop := hf.top
      exact ⟨neg, _, _, rfl, significand_fraction_lt t.1 f.p, .inl (by omega)⟩

end

theorem fmtQ16_isNumber_canonical {c : Nat} (h : fmtQ16.IsNumber c) : c < 65536 ∧ ¬ (c / 256 % 128 = 127 ∧ c % 256 ≠ 0) := by
  obtain ⟨neg, ec, fr, rfl, hfr, hec⟩ := h
  have hb := b2n_lt_two neg
  change fr < 256 at hfr
  change ec + 1 < 128 ∨ ec + 1 = 128 ∧ fr = 0 at hec
  change b2n neg * 32768 + ec * 256 + fr < 65536 ∧
    ¬ ((b2n neg * 32768 + ec * 256 + fr) / 256 % 128 = 127 ∧ (b2n neg * 32768 + ec * 256 + fr) % 256 ≠ 0)
  omega

/-- Settles O29: a number read from a format is written with no rounding (`Fmt.write_read`), and what is written of a value that is
not a NaN is the code of a number (`Fmt.write_isNumber`). -/
theorem representableValuesConvertExactly : Obligations.RepresentableValuesConvertExactly := by
  refine ⟨?exact, rfl, ?canonical⟩
  case exact =>
    intro f hf x cvt r hx _
    have hieee : f.Ieee := by
      rcases hf with rfl | rfl | rfl
      exacts [fmtQ16_ieee, fmtB32_ieee, fmtB64_ieee]
    exact ⟨Fmt.write_read hieee cvt r hx, fun h => by rw [h]; rfl⟩
  case canonical =>
    intro v cvt r
    by_cases hv : v = .nan
    · rw [hv, show fmtQ16.write .nan cvt r = (0x8000, 0) from rfl]
      decide
    · exact fmtQ16_isNumber_canonical (Fmt.write_isNumber fmtQ16_ieee cvt r hv)

end Sys2Proof.Machine
end

section
/-! PROOFS. Limb packets (02 R62, R63), and O28. -/

namespace Sys2Proof.Machine

/-! ## Masks -/

/-- The mask in which bit i is set for each i of a list of distinct numbers. -/
def maskOf (is : List Nat) : Nat := is.foldl (fun a i => a + 2 ^ i) 0

theorem maskOf_filter_range_succ (p : Nat → Bool) (k : Nat) :
    maskOf ((List.range (k + 1)).filter p) = maskOf ((List.range k).filter p) + 2 ^ k * b2n (p k) := by
  cases h : p k <;> simp [maskOf, List.range_succ, h, b2n]

theorem maskOf_filter_range_lt (p : Nat → Bool) (k : Nat) : maskOf ((List.range k).filter p) < 2 ^ k := by
  induction k with
  | zero => exact Nat.one_pos
  | succ k ih =>
    have hb := Nat.mul_le_mul_left (2 ^ k) (Nat.le_of_lt_succ (b2n_lt_two (p k)))
    rw [maskOf_filter_range_succ, pow_succ]
    omega

theorem nbit_eq_testBit (x i : Nat) : nbit x i = x.testBit i := by
  rw [Nat.testBit_eq_decide_div_mod_eq]; rfl

theorem nbit_maskOf (p : Nat → Bool) {k i : Nat} (h : i < k) : nbit (maskOf ((List.range k).filter p)) i = p i := by
  induction k with
  | zero => omega
  | succ k ih =>
    rw [maskOf_filter_range_succ, nbit_eq_testBit, Nat.add_comm,
      Nat.testBit_two_pow_mul_add _ (maskOf_filter_range_lt p k)]
    split_ifs with hk
    · rw [← nbit_eq_testBit, ih hk]
    · obtain rfl : i = k := by omega
      cases p i <;> simp [b2n]

/-- A mask read back gives the numbers that it was made from. -/
theorem filter_nbit_maskOf (p : Nat → Bool) (k : Nat) :
    (List.range k).filter (fun i => nbit (maskOf ((List.range k).filter p)) i) = (List.range k).filter p :=
  List.filter_congr fun _ hi => nbit_maskOf p (List.mem_range.1 hi)

/-! ## Limbs -/

/-- The indices of the limbs of `m` that are present (R62). -/
def presentLimbs (m k : Nat) : List Nat := (List.range k).filter fun i => limb m i != 0

/-- The present limbs, each 8 bytes little-endian. -/
def limbBytes (m : Nat) (is : List Nat) : List Byte := is.flatMap fun i => natLe (limb m i) 8

theorem limbBytes_length (m : Nat) (is : List Nat) : (limbBytes m is).length = 8 * is.length := by
  simp [limbBytes, List.length_flatMap, Nat.mul_comm]

theorem leNat_limb (m i : Nat) : leNat (natLe (limb m i) 8) = limb m i := by
  rw [leNat_natLe, limb]
  exact Nat.mod_mod _ _

/-- The limbs below k that are not 0 make up m modulo 2^(64k). -/
theorem sum_presentLimbs (m k : Nat) : ((presentLimbs m k).map fun i => 2 ^ (64 * i) * limb m i).sum = m % 2 ^ (64 * k) := by
  induction k with
  | zero => simp [presentLimbs, Nat.mod_one]
  | succ k ih =>
    have hk : m / 2 ^ (64 * k) % 2 ^ 64 = limb m k := rfl
    rw [Nat.mul_succ, pow_add, Nat.mod_mul, hk, ← ih, presentLimbs, List.range_succ, List.filter_append, List.map_append,
      List.sum_append]
    congr 1
    by_cases h : limb m k = 0
    · simp [h]
    · simp [h]

/-- What a receiver adds up from the limb bytes at place `j` on. -/
theorem foldl_limbs (m : Nat) (rest : List Byte) (is : List Nat) (t : List Byte) (j a : Nat)
    (ht : t.drop (8 * j) = limbBytes m is ++ rest) :
    (is.zipIdx j).foldl (fun a ij => a + 2 ^ (64 * ij.1) * leNat ((t.drop (8 * ij.2)).take 8)) a =
      a + (is.map fun i => 2 ^ (64 * i) * limb m i).sum := by
  induction is generalizing j a with
  | nil => simp
  | cons i is ih =>
    have hcons : t.drop (8 * j) = natLe (limb m i) 8 ++ (limbBytes m is ++ rest) := by simp [ht, limbBytes]
    have hnext : t.drop (8 * (j + 1)) = limbBytes m is ++ rest := by
      rw [Nat.mul_succ, ← List.drop_drop, hcons, List.drop_left' (natLe_length _ _)]
    rw [List.zipIdx_cons, List.foldl_cons, ih (j + 1) _ hnext, hcons, List.take_left' (natLe_length _ _), leNat_limb, List.map_cons,
      List.sum_cons, Nat.add_assoc]

theorem presentLimbs_of_mask_zero {m k : Nat} (h : maskOf (presentLimbs m k) = 0) : presentLimbs m k = [] := by
  rw [presentLimbs, ← filter_nbit_maskOf, ← presentLimbs, h]
  simp [nbit]

/-! ## Magnitudes -/

theorem Ex.mag_lt (x : Ex) : x.mag < 2 ^ (64 * 5) := by
  have hlo := x.n.le_toInt
  have hhi := x.n.toInt_lt
  rw [Ex.mag]
  omega

theorem Ex.sum_presentLimbs (x : Ex) : ((presentLimbs x.mag 5).map fun i => 2 ^ (64 * i) * limb x.mag i).sum = x.mag :=
  (Machine.sum_presentLimbs x.mag 5).trans (Nat.mod_eq_of_lt x.mag_lt)

/-- A packet with no limb never has NEG set (R63). -/
theorem Ex.not_neg_of_mask_zero {x : Ex} (h : maskOf (presentLimbs x.mag 5) = 0) : decide (x.n.toInt < 0) = false := by
  have hmag : 0 = x.mag := by rw [← x.sum_presentLimbs, presentLimbs_of_mask_zero h]; rfl
  rw [Ex.mag] at hmag
  exact decide_eq_false (by omega)

/-- The integer of a sign and a magnitude. -/
def ofSignMag (neg : Bool) (m : Nat) : BitVec 320 := if neg then -(BitVec.ofNat 320 m) else BitVec.ofNat 320 m

theorem Ex.ofSignMag_mag (x : Ex) : ofSignMag (decide (x.n.toInt < 0)) x.mag = x.n := by
  rw [ofSignMag, Ex.mag, ← BitVec.ofInt_natCast]
  by_cases h : x.n.toInt < 0
  · rw [if_pos (decide_eq_true h), ← BitVec.ofInt_neg, Int.ofNat_natAbs_of_nonpos h.le, Int.neg_neg, BitVec.ofInt_toInt]
  · rw [if_neg (by simpa using h), Int.natAbs_of_nonneg (by omega), BitVec.ofInt_toInt]

/-! ## The header (Table 2-9) -/

/-- A header byte of its three fields. -/
def packetHeader (cls : Nat) (neg : Bool) (mask : Nat) : Byte := BitVec.ofNat 8 (cls * 64 + b2n neg * 32 + mask)

section
variable {cls mask : Nat} {neg : Bool} (hc : cls < 4) (hm : mask < 32)
include hc hm

theorem packetHeader_toNat : (packetHeader cls neg mask).toNat = cls * 64 + b2n neg * 32 + mask := by
  have hb := b2n_lt_two neg
  exact Nat.mod_eq_of_lt (by omega)

theorem packetHeader_cls : (packetHeader cls neg mask).toNat / 64 = cls := by
  have hb := b2n_lt_two neg
  rw [packetHeader_toNat hc hm]
  omega

theorem packetHeader_neg : nbit (packetHeader cls neg mask).toNat 5 = neg := by
  have hb : (packetHeader cls neg mask).toNat / 2 ^ 5 % 2 = b2n neg := by
    have := b2n_lt_two neg
    rw [packetHeader_toNat hc hm]
    omega
  rw [nbit, hb]
  cases neg <;> rfl

theorem packetHeader_mask : (packetHeader cls neg mask).toNat % 32 = mask := by
  rw [packetHeader_toNat hc hm]
  omega

end

/-- Reading a header that is not malformed, of the limbs in `p`, and at least the bytes that it announces. -/
theorem readPacket_header {cls : Nat} {neg : Bool} {p : Nat → Bool} {is : List Nat} {t : List Byte} (hp : (List.range 5).filter p = is)
    (hc : cls < 4) (hneg : maskOf is = 0 → neg = false) (hcls : cls ≠ 0 → maskOf is = 0) (ht : 8 * is.length ≤ t.length) :
    readPacket (packetHeader cls neg (maskOf is) :: t) =
      some (⟨ofSignMag neg (is.zipIdx.foldl (fun a ij => a + 2 ^ (64 * ij.1) * leNat ((t.drop (8 * ij.2)).take 8)) 0), BitVec.ofNat 2 cls⟩,
        t.drop (8 * is.length)) := by
  have hm : maskOf is < 32 := hp ▸ maskOf_filter_range_lt p 5
  have his : (List.range 5).filter (fun i => nbit (maskOf is) i) = is := hp ▸ filter_nbit_maskOf p 5
  have hminus : ¬ (maskOf is = 0 ∧ neg = true) := fun h => by simp [hneg h.1] at h
  have hspecial : ¬ (cls ≠ 0 ∧ maskOf is ≠ 0) := fun h => h.2 (hcls h.1)
  simp only [readPacket, packetHeader_cls hc hm, packetHeader_neg hc hm, packetHeader_mask hc hm, his]
  rw [if_neg hminus, if_neg hspecial, if_neg (Nat.not_lt.2 ht)]
  rfl

/-! ## Packets -/

theorem Ex.packet_special {x : Ex} (hc : x.cls ≠ 0#2) : x.packet = [packetHeader x.cls.toNat false (maskOf [])] := if_pos hc

theorem Ex.packet_fin {x : Ex} (hc : x.cls = 0#2) :
    x.packet = packetHeader 0 (decide (x.n.toInt < 0)) (maskOf (presentLimbs x.mag 5)) :: limbBytes x.mag (presentLimbs x.mag 5) := by
  have hneg : (if maskOf (presentLimbs x.mag 5) = 0 then 0 else b2n (decide (x.n.toInt < 0))) = b2n (decide (x.n.toInt < 0)) := by
    split_ifs with h
    · rw [Ex.not_neg_of_mask_zero h]; rfl
    · rfl
  rw [packetHeader, Nat.zero_mul, Nat.zero_add, ← hneg, Ex.packet, if_neg (not_not.2 hc)]
  rfl

theorem Ex.readPacket_packet (x : Ex) (rest : List Byte) (h : x.cls ≠ 0#2 → x.n = 0#320) : readPacket (x.packet ++ rest) = some (x, rest) := by
  by_cases hc : x.cls = 0#2
  · have hread := readPacket_header (t := limbBytes x.mag (presentLimbs x.mag 5) ++ rest) (is := presentLimbs x.mag 5) rfl (by decide)
      Ex.not_neg_of_mask_zero (fun h0 => absurd rfl h0) (by rw [List.length_append, limbBytes_length]; omega)
    rw [Ex.packet_fin hc, List.cons_append, hread, foldl_limbs x.mag rest _ _ 0 0 rfl, x.sum_presentLimbs, Nat.zero_add, x.ofSignMag_mag,
      List.drop_left' (limbBytes_length _ _), ← hc]
  · have hread := readPacket_header (t := rest) (p := fun _ => false) (is := []) (by decide) x.cls.isLt (fun _ => rfl) (fun _ => rfl) (by simp)
    rw [Ex.packet_special hc, List.singleton_append, hread]
    simp [ofSignMag, ← h hc]

/-- A packet is a header that is not malformed and 8 bytes for each of at most five limbs, none for a class other than FIN. -/
theorem Ex.packet_form (x : Ex) : ∃ neg is t, x.packet = packetHeader x.cls.toNat neg (maskOf is) :: t ∧ maskOf is < 32 ∧
    t.length = 8 * is.length ∧ is.length ≤ 5 ∧ (maskOf is = 0 → neg = false) ∧ (x.cls ≠ 0#2 → is = []) := by
  by_cases hc : x.cls = 0#2
  · refine ⟨_, _, _, by rw [hc]; exact Ex.packet_fin hc, maskOf_filter_range_lt _ 5, limbBytes_length _ _, ?_, Ex.not_neg_of_mask_zero,
      fun h => absurd hc h⟩
    exact (List.length_filter_le _ _).trans_eq List.length_range
  · exact ⟨false, [], [], Ex.packet_special hc, by decide, rfl, by decide, fun _ => rfl, fun _ => rfl⟩

/-- Settles O28: the mask and the limbs of a packet are read back (`readPacket_header`, `foldl_limbs`) and make up the value
(`Ex.sum_presentLimbs`, `Ex.ofSignMag_mag`); `Ex.packet_form` gives the bounds. -/
theorem limbPacketsGiveTheirValueBack : Obligations.LimbPacketsGiveTheirValueBack := by
  refine ⟨Ex.readPacket_packet, fun x => ?_⟩
  obtain ⟨neg, is, t, hx, hm, ht, his, hneg, hcls⟩ := x.packet_form
  have hlen : x.packet.length = 8 * is.length + 1 := by rw [hx, List.length_cons, ht]
  refine ⟨by omega, by omega, fun hc => by rw [hlen, hcls hc]; rfl, _, _, hx, ?minus, ?special⟩
  case minus =>
    rw [packetHeader_neg x.cls.isLt hm, packetHeader_mask x.cls.isLt hm]
    rintro ⟨h0, hn⟩
    simp [hneg h0] at hn
  case special =>
    rw [packetHeader_cls x.cls.isLt hm, packetHeader_mask x.cls.isLt hm]
    rintro ⟨hc, hmask⟩
    exact hmask (by rw [hcls (fun h => hc (by rw [h]; rfl))]; rfl)

end Sys2Proof.Machine
end

section
/-! SUPPORT. What is left of a core and of its arrays by the updates that the arrays' commands make (03 R85 to R89). -/

namespace Sys2Proof.Machine

/-- An update of one core leaves everything else as it was. -/
theorem OnlyCore.updCore (s : State) (c : Nat) (f : Cor → Cor) : OnlyCore c s (s.updCore c f) :=
  ⟨fun d hd => by rw [State.core_updCore, if_neg hd], rfl⟩

/-- Array `b` after an update of array `a`. -/
theorem Cor.arr_updArr (k : Cor) {a b : Nat} (f : Arr → Arr) (ha : a < 4) (hb : b < 4) :
    (k.updArr a f).arr b = if b = a then f (k.arr a) else k.arr b := by
  interval_cases a <;> interval_cases b <;> rfl

/-- The mark of an asynchronous change is none of an array's. -/
@[simp] theorem Cor.arr_async (k : Cor) (a : Nat) (b : Bool) : Cor.arr { k with async := b } a = k.arr a := rfl

/-- An update of every array below `n` that `p` names reaches these arrays alone. -/
theorem Cor.arr_foldl_updArr (k : Cor) (p : Nat → Bool) (f : Arr → Arr) {n b : Nat} (hn : n ≤ 4) (hb : b < 4) :
    ((List.range n).foldl (fun k a => if p a then k.updArr a f else k) k).arr b = if b < n ∧ p b then f (k.arr b) else k.arr b := by
  induction n with
  | zero => simp
  | succ n ih =>
    have hrest := ih (by omega)
    rw [List.range_succ, List.foldl_concat]
    split
    · rw [Cor.arr_updArr _ _ (by omega) hb]
      grind
    · grind

/-- A core but for its arrays. -/
def Cor.sansArrays (k : Cor) : Cor := { k with arr0 := Arr.init, arr1 := Arr.init, arr2 := Arr.init, arr3 := Arr.init }

@[simp] theorem Cor.sansArrays_updArr (k : Cor) (a : Nat) (f : Arr → Arr) : (k.updArr a f).sansArrays = k.sansArrays := by
  unfold Cor.updArr
  split <;> rfl

theorem Cor.sansArrays_foldl_updArr (p : Nat → Bool) (f : Arr → Arr) (l : List Nat) (k : Cor) :
    (l.foldl (fun k a => if p a then k.updArr a f else k) k).sansArrays = k.sansArrays := by
  induction l generalizing k with
  | nil => rfl
  | cons a l ih =>
    rw [List.foldl_cons, ih]
    split
    · exact k.sansArrays_updArr a f
    · rfl

/-- Tiles that are cleared with their spoil flags change the accumulators and these flags alone. -/
theorem foldl_wipeTile (p : Nat → Bool) (l : List Nat) (x : Arr) :
    l.foldl (fun y t => if p t then wipeTile y t else y) x =
      { x with
        acc := l.foldl (fun m t => if p t then m.filter fun e => e.1 / 1024 != t else m) x.acc
        accSp := l.foldl (fun m t => if p t then setDel m t else m) x.accSp } := by
  induction l generalizing x with
  | nil => rfl
  | cons t l ih =>
    simp only [List.foldl_cons, ih]
    split_ifs <;> rfl

/-- A drain reads 32 rows. -/
@[simp] theorem drainRows_length (x : Arr) (o : MOp) (seed step : W64) (home a : Nat) (codes : List (Nat × Bool)) :
    (drainRows x o seed step home a codes).length = 32 := by
  rw [drainRows, List.length_map, List.length_range]

end Sys2Proof.Machine
end

section
/-! PROOFS. The arrays' commands where their interlocks allow (03 R73, R77, R80 to R89), and O8 and O9. -/

namespace Sys2Proof.Machine

/-! ## When a command acts -/

section
variable {s : State} {c a : Nat}

/-- A unit that the spec numbers takes its command. -/
theorem unit_of_lt {i n : Nat} {r : Res} (h : i < n) : unit i n r = r := if_pos h

theorem unit_array {r : Res} (hc : c < 512) (ha : a < 4) : unit c 512 (unit a 4 r) = r :=
  (unit_of_lt hc).trans (unit_of_lt ha)

theorem State.issueOn_of_pos (h : 0 < (s.gate (c / 64)).eff) : s.issueOn c = true := decide_eq_true h

/-- An operation of an array acts under an issue limit above 0 when no MMA in progress is one that it waits for (R74, R87). -/
theorem matrixOp_acts {o : MOp} {n : Nat} {busy : Bool} (ho : mopOf o.raw = n) (hl : 0 < (s.gate (c / 64)).eff) (hb : busy = false) :
    (mopOf o.raw == n && !busy && s.issueOn c) = true := by
  simp [ho, hb, State.issueOn_of_pos hl]

/-! ## Feeder loads (R85, R86) -/

theorem execFldStart_starts {f : MOp} {q : List MOp} (hc : c < 512) (hq : (s.core c).fldq = f :: q) (hn : (s.core c).fldRun = none)
    (hf : fldFree (s.core c) f = true) :
    execFldStart c s = .next ((s.updCore c fun k =>
      { k with fldq := q, fldRun := some { op := f, left := (fldReqs c f).length, got := [] }, async := true }).sendReqs c 1 (fldReqs c f)) := by
  simp only [execFldStart, unit_of_lt hc, hq]
  exact when_next (by rw [hn, hf]; rfl)

/-- What a feeder load whose lines are all answered loads, in buffer order. -/
def FldRun.data (f : FldRun) : List (Byte × Bool) :=
  if fldScl f.op.raw then (fldBytes f.op).map (byteOf f.got)
  else markRecords (f.op.fldE * elSize (fldFmt f.op.raw)) ((fldBytes f.op).map (byteOf f.got))

/-- An array that a feeder load names, once it is loaded. -/
def FldRun.load (f : FldRun) (x : Arr) : Arr :=
  if fldScl f.op.raw then loadScl x (fldB f.op.raw) f.op.fldOff f.data else loadBuf x (fldB f.op.raw) f.op.fldOff f.data

/-- The core whose feeder load `f` is complete. -/
def FldRun.finish (f : FldRun) (k : Cor) : Cor :=
  (List.range 4).foldl (fun k a => if nbit (fldMask f.op.raw) a then k.updArr a f.load else k) { k with fldRun := none, async := true }

theorem execFldComplete_completes {f : FldRun} (hc : c < 512) (hf : (s.core c).fldRun = some f) (hl : f.left = 0) :
    execFldComplete c s = .next ((s.updCore c f.finish).ctrTrg (.core c 0 0) (mTrg f.op.raw)) := by
  simp only [execFldComplete, unit_of_lt hc, hf, hl]
  rfl

theorem FldRun.finish_arr (f : FldRun) (k : Cor) (ha : a < 4) :
    (f.finish k).arr a = if nbit (fldMask f.op.raw) a then f.load (k.arr a) else k.arr a := by
  rw [FldRun.finish, Cor.arr_foldl_updArr _ (nbit (fldMask f.op.raw)) _ le_rfl ha]
  simp only [ha, true_and]
  rfl

/-- Beside the arrays, a complete feeder load frees the feeder. -/
theorem FldRun.finish_sansArrays (f : FldRun) (k : Cor) :
    (f.finish k).sansArrays = Cor.sansArrays { k with fldRun := none, async := true } :=
  Cor.sansArrays_foldl_updArr _ _ _ _

theorem FldRun.finish_frame (f : FldRun) (k : Cor) :
    (f.finish k).fldRun = none ∧ (f.finish k).s = k.s ∧ (f.finish k).pc = k.pc ∧ (f.finish k).fldq = k.fldq :=
  have h := f.finish_sansArrays k
  ⟨(congrArg Cor.fldRun h :), (congrArg Cor.s h :), (congrArg Cor.pc h :), (congrArg Cor.fldq h :)⟩

/-! ## Matrix multiplies (R73, R77, R87) -/

theorem execMmaStart_starts {o : MOp} {q : List MOp} (hc : c < 512) (ha : a < 4) (hq : ((s.core c).arr a).opq = o :: q)
    (ho : mopOf o.raw = 8) (hn : ((s.core c).arr a).mma = none) (hf : mmaFree (s.core c) a o = true) (hl : 0 < (s.gate (c / 64)).eff) :
    execMmaStart c a s = .next (s.updCore c fun k => { (k.updArr a fun x =>
      mmaGo (if mmaAZ o.raw then mmaZero { x with opq := q } o else { x with opq := q }) o 0) with async := true }) := by
  simp only [execMmaStart, unit_array hc ha, hq]
  exact when_next (by simp [ho, hn, hf, State.issueOn_of_pos hl])

theorem execMmaComplete_completes {m : MmaRun} (hc : c < 512) (ha : a < 4) (hm : ((s.core c).arr a).mma = some m) (hd : m.done = true)
    (he : m.emit = false) (hl : 0 < (s.gate (c / 64)).eff) :
    execMmaComplete c a s = .next ((s.updCore c fun k =>
      { (k.updArr a fun x => { x with mma := none }) with async := true }).ctrTrg (.array c a) (mTrg m.op.raw)) := by
  simp only [execMmaComplete, unit_array hc ha, hm]
  exact if_pos (by simp [hd, he, State.issueOn_of_pos hl])

end

/-- Settles O8: under each clause's hypotheses the command's condition holds (`when_next`); what a complete feeder load leaves in the core
is `FldRun.finish`, read off array by array. -/
theorem matrixOperationsStartAndComplete : Obligations.MatrixOperationsStartAndComplete := by
  refine ⟨?start, ?complete, ?mmaStart, ?mmaComplete⟩
  case start => exact fun s c f q => execFldStart_starts
  case complete =>
    rintro s c f _ hc hf hl rfl
    obtain ⟨hrun, hs, hpc, hq⟩ := f.finish_frame (s.core c)
    refine ⟨s.updCore c f.finish, execFldComplete_completes hc hf hl, .updCore s c _, ?_⟩
    rw [State.core_updCore_same]
    exact ⟨hrun, fun a ha => f.finish_arr _ ha, congrFun hs, hpc, hq⟩
  case mmaStart => exact fun s c a o q => execMmaStart_starts
  case mmaComplete => exact fun s c a m => execMmaComplete_completes

/-! ## Emissions (R77, R80) -/

section
variable {s : State} {c a : Nat}

theorem execEmissionPerformed_ends {e : EmitW} {q : List EmitW} (hc : c < 512) (ha : a < 4) (hq : ((s.core c).arr a).emits = e :: q)
    (he : e.left = 0) :
    execEmissionPerformed c a s = .next ((s.updCore c fun k =>
      { (k.updArr a fun x => { x with emits := q }) with async := true }).ctrAsk (.array c a) e.ctr (.add 1#48)) := by
  simp only [execEmissionPerformed, unit_array hc ha, hq]
  exact when_next (by rw [he]; rfl)

/-! ## Drains (R81, R84, R88) -/

section
variable {o : MOp} {q : List MOp} {ws : List (W32 × Bool)}

/-- The scale vector's words `ws` that a drain needs have come; a drain that is no Q8 drain needs none. -/
def Arr.vecReady (x : Arr) (o : MOp) (ws : List (W32 × Bool)) : Prop :=
  drnFmt o.raw ≠ 0 ∧ ws = [] ∨ ∃ v, drnFmt o.raw = 0 ∧ x.vec = some v ∧ v.left = 0 ∧ ws = o.vecWords.map (wordIn v.got)

section
variable (hc : c < 512) (ha : a < 4) (hq : ((s.core c).arr a).opq = o :: q) (ho : mopOf o.raw = 0x10)
  (hm : ∀ m, ((s.core c).arr a).mma = some m → mAcc m.op.raw ≠ mAcc o.raw) (hl : 0 < (s.gate (c / 64)).eff)
include hc ha hq ho hm hl

theorem execDrnRead_reads (hw : ((s.core c).arr a).vecReady o ws) :
    execDrnRead c a s = .next (execDrnRead.go c a s ((s.core c).arr a) o q ws) := by
  simp only [execDrnRead, unit_array hc ha, hq]
  refine (if_pos (matrixOp_acts ho hl ?free)).trans ?read
  case free =>
    split
    · exact beq_false_of_ne (hm _ ‹_›)
    · rfl
  case read =>
    rcases hw with ⟨hf, rfl⟩ | ⟨v, hf, hv, hleft, rfl⟩
    · simp only [hf, decide_false]
    · simp only [hf, decide_true, hv, hleft, if_true]

theorem execDrnRead_fetches (hf : drnFmt o.raw = 0) (hv : ((s.core c).arr a).vec = none) :
    execDrnRead c a s = .next ((s.updCore c fun k => k.updArr a fun x =>
      { x with vec := some { id := o.id, left := (lineReads (.vec c a o.id) c o.vecWords).length, got := [] } }).sendReqs c 1
        (lineReads (.vec c a o.id) c o.vecWords)) := by
  simp only [execDrnRead, unit_array hc ha, hq]
  refine (if_pos (matrixOp_acts ho hl ?free)).trans ?fetch
  case free =>
    split
    · exact beq_false_of_ne (hm _ ‹_›)
    · rfl
  case fetch => simp only [hf, decide_true, hv]

end

theorem drainOf_rows_length (x : Arr) (o : MOp) (seed : W64) (a : Nat) (ws : List (W32 × Bool)) :
    (drainOf x o seed a ws).1.rows.length = 32 := by
  simp [drainOf]

theorem execDrnComplete_ends {d : DrainW} {ds : List DrainW} (hc : c < 512) (ha : a < 4) (hd : ((s.core c).arr a).drains = d :: ds)
    (hp : d.phase = 2) (hl : d.left = 0) :
    execDrnComplete c a s = .next (((s.updCore c fun k =>
      { (k.updArr a fun x => { x with drains := ds }) with async := true }).ctrTrg (.array c a) d.trg).sendDrains c) := by
  simp only [execDrnComplete, unit_array hc ha, hd]
  exact when_next (by rw [hp, hl]; rfl)

/-! ## Ring configuration and clears (R80, R87, R89) -/

theorem execEmcPerform_configures (hc : c < 512) (ha : a < 4) (hq : ((s.core c).arr a).opq = o :: q) (ho : mopOf o.raw = 0x14)
    (hm : ∀ m, ((s.core c).arr a).mma = some m → mmaEXM m.op.raw = false) (hl : 0 < (s.gate (c / 64)).eff) :
    execEmcPerform c a s = .next (s.updCore c fun k => { (k.updArr a fun x => { x with
      opq := q, ringBase := o.emcBase, ringS := o.emcS, ringFree := o.emcS, ringNext := 0, ringCtr := o.emcCtr }) with async := true }) := by
  simp only [execEmcPerform, unit_array hc ha, hq]
  refine when_next (matrixOp_acts ho hl ?_)
  split
  · exact hm _ ‹_›
  · rfl

/-- An array once its MCLR `o` has acted. -/
def Arr.cleared (x : Arr) (o : MOp) : Arr :=
  let y := (List.range 8).foldl (fun y t => if nbit (sf o.raw 55 48) t then wipeTile y t else y) x
  if nbit o.raw.toNat 47 then { y with aScl := [], bScl := [], aSclSp := [], bSclSp := [] } else y

theorem execMclrAct_clears (hc : c < 512) (ha : a < 4) (hq : ((s.core c).arr a).opq = o :: q) (ho : mopOf o.raw = 0x18)
    (hm : ∀ m, ((s.core c).arr a).mma = some m → nbit o.raw.toNat 47 = false ∧ nbit (sf o.raw 55 48) (mAcc m.op.raw) = false)
    (hl : 0 < (s.gate (c / 64)).eff) :
    execMclrAct c a s = .next (s.updCore c fun k =>
      { (k.updArr a fun x => Arr.cleared { x with opq := q } o) with async := true }) := by
  simp only [execMclrAct, unit_array hc ha, hq]
  refine when_next (matrixOp_acts ho hl ?_)
  split
  · simp [hm _ ‹_›]
  · rfl

/-- A clear leaves the queue and the flags, empties the scale files with SCLR alone, and clears the tiles that it names. -/
theorem Arr.cleared_frame (x : Arr) (o : MOp) (q : List MOp) :
    (Arr.cleared { x with opq := q } o).opq = q ∧
    (Arr.cleared { x with opq := q } o).aScl = (if nbit o.raw.toNat 47 then [] else x.aScl) ∧
    (Arr.cleared { x with opq := q } o).bScl = (if nbit o.raw.toNat 47 then [] else x.bScl) ∧
    (Arr.cleared { x with opq := q } o).acc =
      ((List.range 8).foldl (fun y n => if nbit (sf o.raw 55 48) n then wipeTile y n else y) x).acc ∧
    (Arr.cleared { x with opq := q } o).flags = x.flags := by
  simp only [Arr.cleared, foldl_wipeTile]
  split <;> exact ⟨rfl, rfl, rfl, rfl, rfl⟩

end

end

/-- Settles O9: under each clause's hypotheses the command's condition holds (`matrixOp_acts`, `when_next`); what a clear leaves in its
array is `Arr.cleared`, whose tiles and scale files are read off by `foldl_wipeTile`. -/
theorem matrixEmitsAndDrains : Obligations.MatrixEmitsAndDrains := by
  refine ⟨?emit, ?emitted, ?read, ?fetch, ?drained, ?configure, ?clear⟩
  case emit =>
    rintro s c a m _ _ _ hc ha rfl hm hb hf hl rfl rfl
    show execExactEmission c a s = _
    simp only [execExactEmission, unit_array hc ha, hm]
    exact if_pos (by simp [hb, hf, State.issueOn_of_pos hl])
  case emitted => exact fun s c a e q => execEmissionPerformed_ends
  case read =>
    rintro s c a o q ws _ hc ha hq ho hm hl hw rfl
    exact ⟨execDrnRead_reads hc ha hq ho hm hl hw, rfl, rfl, rfl, rfl, drainOf_rows_length _ o _ a ws⟩
  case fetch => exact fun s c a o q => execDrnRead_fetches
  case drained => exact fun s c a d q => execDrnComplete_ends
  case configure => exact fun s c a o q => execEmcPerform_configures
  case clear =>
    intro s c a o q hc ha hq ho hm hl
    refine ⟨_, execMclrAct_clears hc ha hq ho hm hl, .updCore s c _, ?_⟩
    rw [State.core_updCore_same]
    simp only [Cor.arr_async, Cor.arr_updArr _ _ ha ha, if_true]
    obtain ⟨hopq, haScl, hbScl, hacc, hflags⟩ := ((s.core c).arr a).cleared_frame o q
    exact ⟨hopq, haScl, hbScl, hacc, hflags, fun b hb hne => (Cor.arr_updArr _ _ ha hb).trans (if_neg hne)⟩

end Sys2Proof.Machine
end

section
/-! SUPPORT. What a core's registers and a part of the state read after the writes that issue, exceptions and work make (04 R94, R121, R395). -/

namespace Sys2Proof.Machine

/-! ## Tables and cores written twice -/

@[simp] theorem tput_tput {α : Type} (t : Tab α) (k : Nat) (v w : α) : tput (tput t k v) k w = tput t k w := by
  induction t with
  | nil => simp [tput]
  | cons e t ih =>
    obtain ⟨j, u⟩ := e
    simp only [tput]
    split_ifs with hj hlt
    · simp [tput]
    · simp [tput]
    · simp only [tput, if_neg hj, if_neg hlt, ih]

theorem State.updCore_updCore (s : State) (c : Nat) (f g : Cor → Cor) : (s.updCore c f).updCore c g = s.updCore c fun k => g (f k) := by
  simp [State.updCore, tupd]

/-! ## Scalar registers (R94) -/

/-- A write of a scalar register changes these registers and their marks alone. -/
theorem Cor.setS_frame (k : Cor) (r : Nat) (v : W64) (sp : Bool) : ∃ g m, k.setS r v sp = { k with sreg := g, sSp := m } := by
  unfold Cor.setS
  split
  · exact ⟨_, _, rfl⟩
  · exact ⟨_, _, rfl⟩

theorem Cor.s_setS (k : Cor) (d r : Nat) (v : W64) (sp : Bool) : (k.setS d v sp).s r = if r = d ∧ r ≠ 0 then v else k.s r := by
  unfold Cor.setS Cor.s
  split_ifs <;> simp_all [tget_tput]

theorem Cor.sSpoilt_setS (k : Cor) (d r : Nat) (v : W64) (sp : Bool) :
    (k.setS d v sp).sSpoilt r = if r = d ∧ r ≠ 0 then sp else k.sSpoilt r := by
  unfold Cor.setS Cor.sSpoilt
  rw [Bool.eq_iff_iff]
  split_ifs <;> simp_all [mem_setTo]

/-! ## Reports and items -/

theorem State.core_report (s : State) (r : Report) (c : Nat) : (s.report r).core c = s.core c := by
  unfold State.report
  split <;> rfl

/-- A report counts no window (R391). -/
theorem Flt.collect_windows (f : Flt) (r : Report) : (f.collect r).wins = f.wins ∧ (f.collect r).cnts = f.cnts := by
  unfold Flt.collect Flt.pendCorrected
  split_ifs <;> exact ⟨rfl, rfl⟩

theorem State.report_winLast (s : State) (r : Report) (w i : Nat) : (s.report r).winLast w i = s.winLast w i := by
  obtain ⟨hw, hc⟩ := s.flt.collect_windows r
  have hflt : (s.report r).flt.wins = s.flt.wins ∧ (s.report r).flt.cnts = s.flt.cnts ∧ (s.report r).now = s.now := by
    unfold State.report
    split <;> exact ⟨hw, hc, rfl⟩
  simp only [State.winLast, State.win, State.winCnt, hflt]

theorem State.endItem_none {s : State} {c : Nat} (h : (s.core c).item = none) (status : Nat) (d0 d1 : W32) (must : Bool) :
    s.endItem c status d0 d1 must = s := by
  simp only [State.endItem, h]

end Sys2Proof.Machine
end

section
/-! PROOFS. BUNDLE_ISSUE by the outcome of its checks (04 R97, R98, R110, R112, R114, R121), and O2. -/

namespace Sys2Proof.Machine

/-! ## The checks before a bundle issues (R97, R121) -/

section
variable {s : State} {c w : Nat}

/-- Core `c` is in RUN at a bundle of the loaded program that does not stall and meets no cause of Table 4-12 before the cycle in which
it would issue. -/
def State.Examined (s : State) (c : Nat) : Prop :=
  c < 512 ∧ (s.core c).st = .run ∧ (s.core c).pc < (s.core c).extent ∧ s.stalled c (s.core c).bundle = false ∧
  lowestCause (s.causes c (s.core c).bundle false) = none

theorem State.IssueReady.examined (h : s.IssueReady c) : s.Examined c :=
  let ⟨hc, hrun, hpc, hst, hcause⟩ := h
  ⟨hc, hrun, hpc, hst, hcause false⟩

/-- A bundle that meets no cause in the cycle of issue takes no exception there. -/
theorem State.lateFault_none (h : lowestCause (s.causes c (s.core c).bundle true) = none) : s.lateFault c (s.core c).bundle = none := by
  rw [State.lateFault, h, Option.map_none]

theorem State.IssueReady.issueOr (h : s.IssueReady c) (t : Nat) : s.issueOr c (s.core c).bundle t = s.issueAll c (s.core c).bundle t :=
  let ⟨_, _, _, _, hcause⟩ := h
  by rw [State.issueOr, State.lateFault_none (hcause true), Option.getD_none]

/-! ## What BUNDLE_ISSUE does once its bundle is examined, by the T slot -/

theorem execBundleIssue_stalls (hc : c < 512) (hrun : (s.core c).st = .run) (hpc : (s.core c).pc < (s.core c).extent)
    (hst : s.stalled c (s.core c).bundle = true) : execBundleIssue c w false s = .next s := by
  simp [execBundleIssue, unit_of_lt hc, hrun, Nat.not_le.2 hpc, hst]

/-- A bundle with no WAIT, FENCE or GETW is in the cycle in which it issues. -/
theorem State.Examined.plain (h : s.Examined c) (hwait : tOp (slotT (s.core c).bundle) ≠ 0x1B)
    (hfence : tOp (slotT (s.core c).bundle) ≠ 0x20) (hgetw : tOp (slotT (s.core c).bundle) ≠ 0x28) :
    execBundleIssue c w false s = .next (s.issueOr c (s.core c).bundle (issueCycle (s.core c) (s.core c).bundle w)) := by
  obtain ⟨hc, hrun, hpc, hst, hcause⟩ := h
  simp [execBundleIssue, unit_of_lt hc, hrun, Nat.not_le.2 hpc, hst, hcause]

/-- WAIT (R110). -/
theorem State.Examined.wait (h : s.Examined c) (hop : tOp (slotT (s.core c).bundle) = 0x1B) (hw : (s.core c).waiting = false) :
    ((s.core c).waitOk = true →
      execBundleIssue c w false s = .next (s.issueOr c (s.core c).bundle (issueCycle (s.core c) (s.core c).bundle w))) ∧
    ((s.core c).waitOk = false → s.ctrMine (tCtr (slotT (s.core c).bundle)) = true →
      execBundleIssue c w false s = .next (
        if (s.ctr (tCtr (slotT (s.core c).bundle))).toNat ≥ ((s.core c).s (tA (slotT (s.core c).bundle))).toNat % 2 ^ 48 then
          s.issueOr c (s.core c).bundle (issueCycle (s.core c) (s.core c).bundle w)
        else s.updCore c fun k => { k with
          waiting := true
          waitOn := some (tCtr (slotT (s.core c).bundle), ((s.core c).s (tA (slotT (s.core c).bundle))).toNat % 2 ^ 48) })) := by
  obtain ⟨hc, hrun, hpc, hst, hcause⟩ := h
  constructor
  · intro hok
    simp [execBundleIssue, unit_of_lt hc, hrun, Nat.not_le.2 hpc, hst, hcause, hop, hw, hok]
  · intro hok hmine
    simp only [execBundleIssue, unit_of_lt hc, hrun, Nat.not_le.2 hpc, hst, hcause, hop, hw, hok, State.ctrRead, State.ctrSeen, hmine]
    simp only [ne_eq, not_true_eq_false, if_false, ge_iff_le, Bool.false_eq_true, if_true]
    split_ifs <;> rfl

/-- FENCE (R112). -/
theorem State.Examined.fence (h : s.Examined c) (hop : tOp (slotT (s.core c).bundle) = 0x20) :
    execBundleIssue c w false s = .next (
      if fenceOk (s.core c) (tImm (slotT (s.core c).bundle) % 4) then
        s.issueOr c (s.core c).bundle (issueCycle (s.core c) (s.core c).bundle w) else s) := by
  obtain ⟨hc, hrun, hpc, hst, hcause⟩ := h
  simp only [execBundleIssue, unit_of_lt hc, hrun, Nat.not_le.2 hpc, hst, hcause, hop, ne_eq, not_true_eq_false, if_false, Bool.false_eq_true]
  split_ifs <;> rfl

/-- GETW of a core that may not take work, or that finds none (R97, R114, R119). -/
theorem State.Examined.getw_idles (h : s.Examined c) (hop : tOp (slotT (s.core c).bundle) = 0x28) (hi : (s.core c).idleq = false)
    (hq : s.headQueue c = none) : execBundleIssue c w false s = .next (s.goIdle c) := by
  obtain ⟨hc, hrun, hpc, hst, hcause⟩ := h
  simp [execBundleIssue, unit_of_lt hc, hrun, Nat.not_le.2 hpc, hst, hcause, hop, hi, getwScan, hq]

/-- GETW of a core that may take work and finds it (R114). -/
theorem State.Examined.getw_takes {t : State} {e : Nat × Nat × List (W32 × Bool)} (h : s.Examined c)
    (hop : tOp (slotT (s.core c).bundle) = 0x28) (hi : (s.core c).idleq = false) (ht : (s.core c).tpend = false)
    (hh : (s.core c).held = false) (hscan : getwScan (s.waitingEntries c + 1) s c = (t, some e)) :
    execBundleIssue c w false s = .next (s.getwOr t c c (s.core c).bundle (issueCycle (s.core c) (s.core c).bundle w) e) := by
  obtain ⟨hc, hrun, hpc, hst, hcause⟩ := h
  simp [execBundleIssue, unit_of_lt hc, hrun, Nat.not_le.2 hpc, hst, hcause, hop, hi, ht, hh, hscan]

/-- A GETW whose head entry passes its check takes that entry (R114). -/
theorem getwScan_takes {o q n : Nat} {ws : List (W32 × Bool)} {u : State} (hq : s.headQueue o = some q)
    (he : s.entryAt (.core o) q (s.que q).head = (u, ws)) (hok : entryCheck (ws.getD 0 (0#32, false)).1 = none) :
    getwScan (n + 1) s o = (u, some (q, (s.que q).head, ws)) := by
  simp only [getwScan, hq, he, hok]

/-- Without an exception in the cycle of issue, the bundle with GETW issues with its entry. -/
theorem State.getwOr_issues {r : State} {o t : Nat} {e : Nat × Nat × List (W32 × Bool)}
    (h : lowestCause (s.causes c (s.core c).bundle true) = none) :
    s.getwOr r c o (s.core c).bundle t e = r.issueGetw c o (s.core c).bundle t e.1 e.2.1 e.2.2 := by
  rw [State.getwOr, State.lateFault_none h, Option.getD_none]

end

/-- Settles O2: a bundle that is ready to issue has passed its checks (`State.IssueReady.examined`) and takes no exception as it issues
(`State.IssueReady.issueOr`); what it does then is said by the operation in its T slot. -/
theorem coreIssuesItsNextBundle : Obligations.CoreIssuesItsNextBundle := by
  refine ⟨?plain, ?wait, ?fence, ?idle, ?take, ?stall⟩
  case plain => exact fun s c w h hw hf hg => (h.examined.plain hw hf hg).trans (by rw [h.issueOr])
  case wait =>
    intro s c w h hop hw
    obtain ⟨hok, hno⟩ := h.examined.wait (w := w) hop hw
    rw [h.issueOr] at hok hno
    exact ⟨hok, hno⟩
  case fence => exact fun s c w h hop => (h.examined.fence hop).trans (by rw [h.issueOr])
  case idle => exact fun s c w h hop hi hq => h.examined.getw_idles hop hi hq
  case take =>
    intro s c w q ws u h hop hi ht hh hq he hok
    obtain ⟨-, -, -, -, hcause⟩ := id h
    exact (h.examined.getw_takes hop hi ht hh (getwScan_takes hq he hok)).trans (congrArg _ (State.getwOr_issues (hcause true)))
  case stall => exact fun s c w hc hrun hpc hst => execBundleIssue_stalls hc hrun hpc hst

end Sys2Proof.Machine
end

section
/-! PROOFS. The exception of a bundle (04 R121, 14 R395, R396), and O4. -/

namespace Sys2Proof.Machine

section
variable {s : State} {c rj : Nat} {x : Nat × Nat}

/-- A core that has taken exception `x` with the code `rj` of Table 3-8, 0 where its M operation meets none. -/
def Cor.faulted (k : Cor) (rj : Nat) (x : Nat × Nat) : Cor :=
  { k with
    st := .stopped, excCause := x.1, excSlot := x.2, excPc := k.pc % 2048, waiting := false, waitOn := none, waitOk := false
    idleq := false, lastErr := if rj ≠ 0 then BitVec.ofNat 8 rj else k.lastErr }

/-- The exception taken and reported. -/
def State.faultReported (s : State) (c rj : Nat) (x : Nat × Nat) : State :=
  (s.updCore c (·.faulted rj x)).report (rep 2 (c / 64) 0 (c % 64) 0x20 (x.1 + (s.core c).pc % 2048 * 256))

theorem State.core_faultReported (s : State) (c rj : Nat) (x : Nat × Nat) (d : Nat) :
    (s.faultReported c rj x).core d = if d = c then (s.core c).faulted rj x else s.core d := by
  rw [State.faultReported, State.core_report, State.core_updCore]

/-- The exception of a core with no item is its report, and for cause 0x08 an event of window 7 (R121, Table 14-4). -/
theorem State.bundleFault_noItem (hi : (s.core c).item = none) :
    s.bundleFault c rj x =
      if x.1 = 8 then (s.faultReported c rj x).winEvent 7 c (·.retireCore c) else s.faultReported c rj x := by
  have hreport : ∀ t : State, (t.core c).item = none → t.coreException c x.1 x.2 =
      if x.1 = 8 then (t.faultReported c 0 x).winEvent 7 c (·.retireCore c) else t.faultReported c 0 x := by
    intro t ht
    have hend : ∀ d0 d1, (t.faultReported c 0 x).endItem c 0x109 d0 d1 true = t.faultReported c 0 x := fun d0 d1 =>
      State.endItem_none (by rw [State.core_faultReported, if_pos rfl]; exact ht) _ d0 d1 _
    show (if x.1 = 8 then ((t.faultReported c 0 x).endItem c 0x109 _ _ true).winEvent 7 c (·.retireCore c)
      else (t.faultReported c 0 x).endItem c 0x109 _ _ true) = _
    rw [hend]
  unfold State.bundleFault
  by_cases hr : rj = 0
  · subst hr
    exact hreport s hi
  · rw [if_pos hr, hreport _ (by simpa using hi)]
    have hmerge : (s.updCore c fun k => { k with lastErr := BitVec.ofNat 8 rj }).faultReported c 0 x = s.faultReported c rj x := by
      simp only [State.faultReported, State.updCore_updCore, State.core_updCore_same]
      simp [Cor.faulted, hr]
    rw [hmerge]

theorem State.winLast_faultReported (s : State) (c rj : Nat) (x : Nat × Nat) :
    (s.faultReported c rj x).winLast 7 c = s.winLast 7 c := by
  rw [State.faultReported, State.report_winLast]
  rfl

/-- Where a 0x08 is not lasting, the exception is its report and an event counted. -/
theorem State.bundleFault_counts (hi : (s.core c).item = none) (hw : x.1 = 8 → s.winLast 7 c = false) :
    s.bundleFault c rj x = if x.1 = 8 then (s.faultReported c rj x).winPut 7 c else s.faultReported c rj x := by
  rw [State.bundleFault_noItem hi]
  split
  · rename_i h
    rw [State.winEvent, State.winLast_faultReported, hw h]
    rfl
  · rfl

theorem State.coreException_noItem {cause slot : Nat} (hi : (s.core c).item = none) (h8 : cause ≠ 8) :
    s.coreException c cause slot = s.faultReported c 0 (cause, slot) :=
  (State.bundleFault_counts (rj := 0) (x := (cause, slot)) hi (absurd · h8)).trans (if_neg h8)

/-- A lasting 0x08 retires its core (R396). -/
theorem State.bundleFault_retires (hi : (s.core c).item = none) (hw : s.winLast 7 c = true) :
    s.bundleFault c rj (8, 0) = ((s.faultReported c rj (8, 0)).winPut 7 c).retireCore c := by
  rw [State.bundleFault_noItem hi, State.winEvent, State.winLast_faultReported, hw]
  rfl

theorem State.core_retireCore {s : State} {c : Nat} (h : (s.core c).retired = false) :
    (s.retireCore c).core c =
      { s.core c with st := .stopped, retiring := true, waiting := false, idleq := false, tpend := false, testing := false } := by
  simp [State.retireCore, h]

/-! ## The ways in which a bundle meets a cause (R121) -/

variable {w : Nat} {ierr : Bool}

theorem execBundleIssue_pastExtent (hc : c < 512) (hrun : (s.core c).st = .run) (hpc : (s.core c).pc ≥ (s.core c).extent) :
    execBundleIssue c w ierr s = .next (s.bundleFault c 0 (3, 0)) := by
  simp [execBundleIssue, unit_of_lt hc, hrun, hpc, State.bundleFault]

theorem execBundleIssue_storeError (hc : c < 512) (hrun : (s.core c).st = .run) (hpc : (s.core c).pc < (s.core c).extent) :
    execBundleIssue c w true s = .next (s.bundleFault c 0 (8, 0)) := by
  simp [execBundleIssue, unit_of_lt hc, hrun, Nat.not_le.2 hpc, State.bundleFault]

theorem execBundleIssue_cause (hc : c < 512) (hrun : (s.core c).st = .run) (hpc : (s.core c).pc < (s.core c).extent)
    (hst : s.stalled c (s.core c).bundle = false) (hcause : lowestCause (s.causes c (s.core c).bundle false) = some x) :
    execBundleIssue c w false s = .next (s.bundleFault c (mRejectEarly (s.core c) (slotM (s.core c).bundle)) x) := by
  simp [execBundleIssue, unit_of_lt hc, hrun, Nat.not_le.2 hpc, hst, hcause]

/-- A cause met in the cycle of issue alone. -/
theorem State.issueOr_faults (t : Nat) (hcause : lowestCause (s.causes c (s.core c).bundle true) = some x) :
    s.issueOr c (s.core c).bundle t = s.bundleFault c (mReject (s.core c) (slotM (s.core c).bundle)) x := by
  rw [State.issueOr, State.lateFault, hcause, Option.map_some, Option.getD_some]

end

/-- Settles O4: each way to meet a cause ends in `State.bundleFault`, and with no item that is one change of the core, `Cor.faulted`, and
one report, with an event of window 7 for cause 0x08. -/
theorem coreExceptionIsPrecise : Obligations.CoreExceptionIsPrecise := by
  refine ⟨?takes, ?precise, ?retires⟩
  case takes =>
    rintro s c w ierr x rj hc hrun (⟨hpc, rfl, rfl⟩ | ⟨hpc, rfl, rfl, rfl⟩ | ⟨hpc, rfl, hst, hcause, rfl⟩ |
      ⟨hpc, rfl, hst, hcause, hwait, hfence, hgetw, hnow, rfl⟩)
    · exact execBundleIssue_pastExtent hc hrun hpc
    · exact execBundleIssue_storeError hc hrun hpc
    · exact execBundleIssue_cause hc hrun hpc hst hcause
    · have hplain := State.Examined.plain (w := w) ⟨hc, hrun, hpc, hst, hcause⟩ hwait hfence hgetw
      exact hplain.trans (congrArg _ (State.issueOr_faults _ hnow))
  case precise =>
    intro s c rj x hi hw
    have hcore := s.core_faultReported c rj x
    refine ⟨_, rfl, ?_⟩
    rw [State.bundleFault_counts hi hw]
    split
    · exact ⟨fun d hd => (hcore d).trans (if_neg hd), rfl, absurd ‹_›, (hcore c).trans (if_pos rfl)⟩
    · exact ⟨fun d hd => (hcore d).trans (if_neg hd), rfl, fun _ => rfl, (hcore c).trans (if_pos rfl)⟩
  case retires =>
    intro s c hi hw hr
    have hcore : ((s.faultReported c 0 (8, 0)).winPut 7 c).core c = (s.core c).faulted 0 (8, 0) :=
      (s.core_faultReported c 0 (8, 0) c).trans (if_pos rfl)
    rw [State.bundleFault_retires hi hw, State.core_retireCore (by rw [hcore]; exact hr), hcore]
    exact ⟨rfl, rfl, rfl, rfl⟩

end Sys2Proof.Machine
end

section
/-! PROOFS. A bundle whose only operation is one of the S slot's ALU operations (04 R94, R97, R98, R100), and O3. -/

namespace Sys2Proof.Machine

/-! ## A bundle with NOPs in the V, M and T slots -/

/-- The V, M and T slots of a bundle hold NOPs. -/
def ScalarOnly (b : BitVec 256) : Prop := slotV b = 0#64 ∧ slotM b = 0#64 ∧ slotT b = 0#64

theorem vGroup_nop : vGroup (vfOf 0#64).op = .nop := by decide

theorem VF.dsts_nop : (vfOf 0#64).dsts = [] := by decide

@[simp] theorem VF.exec_nop (k : Cor) (e : Env) : (vfOf 0#64).exec k e = k := by
  simp only [VF.exec, vGroup_nop]

theorem VF.illegal_nop : (vfOf 0#64).illegal 0#64 = false := by decide

theorem VF.spoilUse_nop (k : Cor) : (vfOf 0#64).spoilUse k = false := by
  simp only [VF.spoilUse, vGroup_nop]

theorem tCauses_nop (s : State) (k : Cor) : tCauses s k 0#64 = [] := by
  have hop : tOp 0#64 = 0 := by decide
  simp [tCauses, tIllegal, hop, show sf 0#64 57 0 = 0 by decide, tAccess, tVector, tCopy]

theorem mConds_nop (k : Cor) : mConds k 0#64 = [] := rfl

theorem mIssue_nop (k0 k : Cor) (e : Env) : mIssue k0 k e 0#64 = k := rfl

section
variable {s : State} {c : Nat} {b : BitVec 256}

theorem ScalarOnly.notStalled (h : ScalarOnly b) (ht : (s.core c).tacc = []) (hr : s.coll.reqs = []) : s.stalled c b = false := by
  obtain ⟨hv, hm, htr⟩ := h
  have hpend : s.pendingRegs c = [] := by simp [State.pendingRegs, ht, hr]
  have hstall : mStall (s.core c) 0#64 = false := rfl
  simp [State.stalled, hpend, hm, htr, hstall, show tAccess (tOp 0#64) = false by decide, show tCopy (tOp 0#64) = false by decide]

theorem ScalarOnly.causes (h : ScalarOnly b) (now : Bool) : s.causes c b now = (sCauses (s.core c) (slotS b)).map (·, 0) := by
  obtain ⟨hv, hm, ht⟩ := h
  have htwo : twoWrites b = [] := by simp [twoWrites, hv, ht, VF.dsts_nop, show tDsts 0#64 = [] by decide]
  simp [State.causes, hv, hm, ht, htwo, tCauses_nop, VF.illegal_nop, VF.spoilUse_nop, mReject, mRejectEarly, mConds_nop, lowCond,
    show mRegs 0#64 = [] by decide]

end

/-! ## ALU operations -/

section
variable {k : Cor} {w : W64}

theorem aluOp_iff (op : Nat) : aluOp op = true ↔ 1 ≤ op ∧ op ≤ 0x0F := decide_eq_true_iff

/-- An ALU operation goes on with the next bundle. -/
theorem sTarget_alu (h : aluOp (sOp w) = true) : sTarget k w = none := by
  rw [aluOp_iff] at h
  unfold sTarget
  split <;> simp_all

/-- An ALU operation with its reserved bits 0 meets no cause of Table 4-12. -/
theorem sCauses_alu (h : aluOp (sOp w) = true) (hz : sf w 41 32 = 0) : sCauses k w = [] := by
  have htarget := sTarget_alu (k := k) h
  have hlegal : sIllegal w = false := by
    have hop := (aluOp_iff _).1 h
    have hbranch : branchOp (sOp w) = false := decide_eq_false (by omega)
    simp only [sIllegal, h, hz, hbranch, if_neg (show ¬ sOp w = 0 by omega), true_or, if_true]
    simp [show sOp w ≠ 0x30 by omega, show sOp w ≠ 0x31 by omega]
  rw [aluOp_iff] at h
  simp only [sCauses, hlegal, htarget]
  simp [show sOp w ≠ 0x3E by omega, show ¬ (sOp w = 0x21 ∨ sOp w = 0x22 ∨ sOp w = 0x25) by omega, show sOp w ≠ 0x23 by omega]

theorem sClear_alu (h : aluOp (sOp w) = true) : sClear k w = k := by
  rw [aluOp_iff] at h
  exact if_neg (by omega)

/-- What an ALU operation of slot `w` writes (R100). -/
def Cor.aluWrite (k : Cor) (w : W64) : Cor :=
  k.setS (sD w) (alu (sOp w) (k.s (sA w)) (sOperandB k w)) (k.sSpoilt (sA w) || (!sI w && k.sSpoilt (sB w)))

theorem sExec_alu (h : aluOp (sOp w) = true) (e : Env) (t : Nat) : sExec k k e w t = k.aluWrite w := if_pos h

/-- A core whose bundle at cycle `t` issued an ALU operation alone. -/
def Cor.aluIssued (k : Cor) (w : W64) (t : Nat) : Cor :=
  { k.aluWrite w with
    cyc := t, rdy := ((sDsts w).filter realDst).foldl (fun a r => tput a r (t + sLatency w)) (k.aluWrite w).rdy, async := false
    waitOn := none, waitOk := false, waiting := false, vFree := (k.aluWrite w).vFree, nextAt := t + 1, pc := k.pc + 1 }

/-- An ALU operation leaves the vector side, VFLAGS, the run state and the arrays as they are. -/
theorem Cor.aluIssued_frame (k : Cor) (w : W64) (t : Nat) :
    (k.aluIssued w t).vreg = k.vreg ∧ (k.aluIssued w t).vSp = k.vSp ∧ (k.aluIssued w t).preg = k.preg ∧ (k.aluIssued w t).xa = k.xa ∧
    (k.aluIssued w t).xaSp = k.xaSp ∧ (k.aluIssued w t).vflags = k.vflags ∧ (k.aluIssued w t).st = k.st ∧
    ∀ a, (k.aluIssued w t).arr a = k.arr a := by
  obtain ⟨g, m, h⟩ : ∃ g m, k.aluWrite w = { k with sreg := g, sSp := m } := k.setS_frame ..
  rw [Cor.aluIssued, h]
  exact ⟨rfl, rfl, rfl, rfl, rfl, rfl, rfl, fun _ => rfl⟩

end

theorem ScalarOnly.issueAll {s : State} {c : Nat} {b : BitVec 256} (h : ScalarOnly b) (ha : aluOp (sOp (slotS b)) = true) (t : Nat) :
    s.issueAll c b t = s.updCore c fun k => k.aluIssued (slotS b) t := by
  obtain ⟨hv, hm, ht⟩ := h
  simp only [State.issueAll, hv, hm, ht, VF.exec_nop, mIssue_nop, sClear_alu ha, sExec_alu ha, sTarget_alu ha, VF.dsts_nop, vGroup_nop]
  rfl

/-- Settles O3: the bundle does not stall (`ScalarOnly.notStalled`), meets no cause (`ScalarOnly.causes`, `sCauses_alu`), and issues as
`Cor.aluIssued`, whose one register write is `Cor.aluWrite`. -/
theorem scalarSlotWritesItsResult : Obligations.ScalarSlotWritesItsResult := by
  intro s c w hc hrun hpc hv hm ht ha hz htacc hreqs
  have hb : ScalarOnly (s.core c).bundle := ⟨hv, hm, ht⟩
  have hcauses : ∀ now, lowestCause (s.causes c (s.core c).bundle now) = none := fun now => by
    rw [hb.causes, sCauses_alu ha hz]
    rfl
  have hready : s.IssueReady c := ⟨hc, hrun, hpc, hb.notStalled htacc hreqs, hcauses⟩
  have hop : tOp (slotT (s.core c).bundle) = 0 := by rw [ht]; decide
  have hissues := hready.examined.plain (w := w) (by simp [hop]) (by simp [hop]) (by simp [hop])
  rw [hready.issueOr, hb.issueAll ha] at hissues
  refine ⟨_, hissues, .updCore s c _, ?_⟩
  rw [State.core_updCore_same]
  obtain ⟨hv, hvSp, hp, hx, hxSp, hfl, hst, harr⟩ := (s.core c).aluIssued_frame (slotS (s.core c).bundle)
    (issueCycle (s.core c) (s.core c).bundle w)
  exact ⟨rfl, fun r => Cor.s_setS .., fun r => Cor.sSpoilt_setS .., hv, hvSp, hp, hx, hxSp, hfl, hst.trans hrun, fun a _ => harr a⟩

end Sys2Proof.Machine
end

section
/-! PROOFS. Transfers performed and waits that end (04 R105, R107, R110, R113), and O5. -/

namespace Sys2Proof.Machine

section
variable {s : State} {c i : Nat} {a : TAcc}

/-! ## Transfers (R105) -/

theorem execTAccessPerformed_at (hc : c < 512) (ha : (s.core c).tacc[i]? = some a) :
    execTAccessPerformed c i s = when (a.left == 0) s
      (((s.updCore c fun k => { k with tacc := k.tacc.eraseIdx i, async := true }).accDone c a).ctrTrg (.core c 0 0) a.trg) := by
  simp only [execTAccessPerformed, unit_of_lt hc, ha]

theorem execTAccessPerformed_performs (hc : c < 512) (ha : (s.core c).tacc[i]? = some a) (hl : a.left = 0) :
    execTAccessPerformed c i s = .next
      (((s.updCore c fun k => { k with tacc := k.tacc.eraseIdx i, async := true }).accDone c a).ctrTrg (.core c 0 0) a.trg) :=
  (execTAccessPerformed_at hc ha).trans (when_next (by simp [hl]))

/-- A store writes no register. -/
theorem State.accDone_store (s : State) (c : Nat) (hs : tStores a.top = true) (h5 : a.top ≠ 5) : s.accDone c a = s :=
  if_pos (by simp [hs, h5])

/-- A load of one word writes the word at its address and that word's spoil bit. -/
theorem State.accDone_word {v : W32} {sp : Bool} (s : State) (c : Nat) (ht : a.top = 1) (hg : a.got = [(a.base, v, sp)]) :
    s.accDone c a = s.updCore c fun k => k.setS a.td (v.setWidth 64) sp := by
  have hwords : (accWords a).map (wordIn a.got) = [(v, sp)] := by simp [accWords, ht, hg, wordIn]
  simp only [State.accDone, hwords, loadInto, State.xldReports, ht]
  rfl

theorem execHgetHputComplete_at (hc : c < 512) (ha : (s.core c).hacc[i]? = some a) :
    execHgetHputComplete c i s = when (a.left == 0) s
      ((s.updCore c fun k => { k with hacc := k.hacc.eraseIdx i, async := true }).ctrTrg (.core c 0 0) a.trg) := by
  simp only [execHgetHputComplete, unit_of_lt hc, ha]

/-- An event whose rule's condition fails changes nothing. -/
theorem when_idle {b : Bool} {s t : State} (h : b = false) : when b s t = .next s := by
  rw [h]
  rfl

/-! ## Waits (R110) -/

theorem State.waitHolds_iff {n thr : Nat} (h : (s.core c).waitOn = some (n, thr)) :
    s.waitHolds c = decide (thr ≤ (s.ctrSeen n).toNat) := by
  simp only [State.waitHolds, h, ge_iff_le]

theorem execWaitSatisfied_ends (hc : c < 512) (hw : (s.core c).waiting = true) (h : ((s.core c).waitOk || s.waitHolds c) = true) :
    execWaitSatisfied c s = .next (s.updCore c fun k => { k with waiting := false, waitOk := true, async := true }) := by
  simp only [execWaitSatisfied, unit_of_lt hc]
  exact when_next (by rw [hw, h]; rfl)

theorem execWaitTimeLimit_raises {us : Nat} (hc : c < 512) (hrun : (s.core c).st = .run) (hw : (s.core c).waiting = true)
    (hok : (s.core c).waitOk = false) (hh : s.waitHolds c = false) (hl : (s.core c).waitLimit ≠ 0#32)
    (hus : (s.core c).waitLimit.toNat ≤ us) : execWaitTimeLimit c us s = .next (s.coreException c 7 3) := by
  simp only [execWaitTimeLimit, unit_of_lt hc]
  exact when_next (by simp [hrun, hw, hok, hh, hl, hus])

end

/-- Settles O5: a transfer that its banks have answered takes its one step (`execTAccessPerformed_performs`, `execHgetHputComplete_at`),
and an expired WAIT's exception is one report (`State.coreException_noItem`). -/
theorem coreTransfersAndWaits : Obligations.CoreTransfersAndWaits := by
  refine ⟨?performed, ?word, ?store, ?waits, ?copy, ?trigger, ?satisfied, ?limit⟩
  case performed => exact fun s c i a hc ha hl => execTAccessPerformed_performs hc ha hl
  case word =>
    intro s c i a v sp hc ha hl ht hg htrg
    refine (execTAccessPerformed_performs hc ha hl).trans ?_
    rw [State.accDone_word _ c ht hg, State.updCore_updCore, htrg, State.ctrTrg_none]
  case store =>
    intro s c i a hc ha hl hs h5
    refine (execTAccessPerformed_performs hc ha hl).trans ?_
    rw [State.accDone_store _ c hs h5]
  case waits => exact fun s c i a hc ha hl => (execTAccessPerformed_at hc ha).trans (when_idle (by simp [hl]))
  case copy =>
    exact fun s c i a hc ha =>
      ⟨fun hl => (execHgetHputComplete_at hc ha).trans (when_next (by simp [hl])),
       fun hl => (execHgetHputComplete_at hc ha).trans (when_idle (by simp [hl]))⟩
  case trigger => exact fun s src n => ⟨rfl, s.ctrTrg_none src⟩
  case satisfied =>
    intro s c n thr hc hw hon h
    exact execWaitSatisfied_ends hc hw (by rw [State.waitHolds_iff hon]; simpa using h)
  case limit =>
    intro s c us n thr hc hrun hw hok hon hlt hl hus
    have hholds : s.waitHolds c = false := by simpa [State.waitHolds_iff hon] using hlt
    refine ⟨_, rfl, execWaitTimeLimit_raises hc hrun hw hok hholds hl hus, fun hi => ?_⟩
    have hcore := s.core_faultReported c 0 (7, 3)
    rw [State.coreException_noItem hi (by decide), (hcore c).trans (if_pos rfl)]
    exact ⟨rfl, rfl, rfl, rfl, rfl, fun d hd => (hcore d).trans (if_neg hd), rfl⟩

end Sys2Proof.Machine
end

section
/-! PROOFS. Work taken by a stalled GETW and by balancing (04 R114, R117 to R119), and O6. -/

namespace Sys2Proof.Machine

/-! ## The rotating index (R32) -/

/-- A rotating index comes by every number below `n`. -/
theorem exists_rotation {n x : Nat} (i : Nat) (hx : x < n) : ∃ j < n, (i + j) % n = x := by
  refine ⟨(x + (n - i % n)) % n, Nat.mod_lt _ (by omega), ?_⟩
  have hturns : i + (x + (n - i % n)) = x + n * (i / n + 1) := by
    have hdiv := Nat.div_add_mod i n
    have hmod := Nat.mod_lt i (show 0 < n by omega)
    rw [Nat.mul_add]
    omega
  rw [Nat.add_mod_mod, hturns, Nat.add_mul_mod_self_left, Nat.mod_eq_of_lt hx]

/-- Where one number alone below `n` will do, the rotating index finds it wherever it starts. -/
theorem firstFrom_unique {n x : Nat} (i : Nat) {p : Nat → Bool} (hx : x < n) (hp : ∀ y, p y = true ↔ y = x) :
    firstFrom i n p = some x := by
  unfold firstFrom
  cases h : (List.range n).findSome? fun j => if p ((i + j) % n) then some ((i + j) % n) else none with
  | none =>
    obtain ⟨j, hj, hjx⟩ := exists_rotation i hx
    have hnone := List.findSome?_eq_none_iff.1 h j (List.mem_range.2 hj)
    rw [hjx, if_pos ((hp x).2 rfl)] at hnone
    cases hnone
  | some y =>
    obtain ⟨j, -, hj⟩ := List.exists_of_findSome?_eq_some h
    split at hj
    · rename_i hpj
      rw [← hj, (hp _).1 hpj]
    · cases hj

section
variable {s : State} {c w : Nat}

/-! ## GETW_TAKE (R114) -/

theorem execGetwTake_takes {t : State} {q i : Nat} {ws : List (W32 × Bool)} (hc : c < 512) (hw : (s.core c).wantsWork = true)
    (hcause : lowestCause (s.causes c (s.core c).bundle true) = none) (hscan : getwScan (s.waitingEntries c + 1) s c = (t, some (q, i, ws))) :
    execGetwTake c w s = .next
      ((t.issueGetw c c (s.core c).bundle (issueCycle { s.core c with async := true } (s.core c).bundle w) q i ws).updCore c
        fun k => { k with async := true }) := by
  simp only [execGetwTake, unit_of_lt hc, hw, hscan, if_true, State.getwOr_issues hcause]

theorem execGetwTake_waits {t : State} (hc : c < 512) (hw : (s.core c).wantsWork = true)
    (hscan : getwScan (s.waitingEntries c + 1) s c = (t, none)) : execGetwTake c w s = .next t := by
  simp only [execGetwTake, unit_of_lt hc, hw, hscan, if_true]

/-! ## BALANCING_TAKE (R117 to R119) -/

variable {j : JobCfg} {cs waits : List (Nat × Nat)} {cyc : Nat}

theorem coresExist (h : ∀ c ∈ cs, c.1 < 512) : cs.any (fun c => decide (c.1 ≥ 512)) = false := by
  simpa using h

theorem execBalancingTake_grants (hcs : ∀ c ∈ cs, c.1 < 512) (hj : s.host.job = some j) (hd : j.dlb = true) (hm : j.detmode = 0) :
    execBalancingTake cs waits cyc s = .next
      ((List.range (cs.length + 64)).foldl (fun (a : State × List (Nat × Nat)) _ => a.1.balGrant j a.2 waits) (s.hubAt cyc, cs)).1 := by
  simp [execBalancingTake, coresExist hcs, hj, hd, hm]

theorem execBalancingTake_off (hcs : ∀ c ∈ cs, c.1 < 512) (hj : s.host.job = some j) (h : j.dlb = false ∨ j.detmode ≠ 0) :
    execBalancingTake cs waits cyc s = .next s := by
  have hoff : (j.dlb && j.detmode == 0) = false := by
    rcases h with h | h <;> simp [h]
  simp [execBalancingTake, coresExist hcs, hj, hoff]

/-- A core lies in its balancing group (R117). -/
theorem groupOf_bounds (j : JobCfg) (c : Nat) : (groupOf j c).1 ≤ c ∧ c < (groupOf j c).1 + (groupOf j c).2 := by
  unfold groupOf
  split <;> (dsimp only; omega)

/-- A core that asks alone is picked. -/
theorem State.balPick_alone (s : State) (j : JobCfg) (c : Nat) : s.balPick j [c] = some c := by
  obtain ⟨hlo, hhi⟩ := groupOf_bounds j c
  have hfirst : firstFrom (tget 0 s.train.balRot (groupOf j c).1) (groupOf j c).2 (fun i => [c].contains ((groupOf j c).1 + i)) =
      some (c - (groupOf j c).1) := by
    refine firstFrom_unique _ (by omega) fun y => ?_
    simp only [List.contains_iff_mem, List.mem_singleton]
    omega
  have htied : [c].filter (fun i => (s.core i).idleAt == (s.core c).idleAt) = [c] := by simp
  simp only [State.balPick, List.map_cons, List.map_nil, List.foldl_cons, List.foldl_nil, min_self, htied, List.headD_cons, hfirst,
    Option.map_some]
  exact congrArg some (by omega)

/-- Without requesters left a round grants nothing. -/
theorem State.balGrant_nil (s : State) (j : JobCfg) (waits : List (Nat × Nat)) : s.balGrant j [] waits = (s, []) := rfl

/-- A core that asks alone is granted an entry that passes its check. -/
theorem State.balGrant_alone {u : State} {q o : Nat} {ws : List (W32 × Bool)} (hw : (s.core c).wantsWork = true)
    (hq : s.queuesEmpty c = true) (hcand : s.balCandidate j c waits = some (q, o)) (he : s.entryAt (.core c) q (s.que q).head = (u, ws))
    (hok : entryCheck (ws.getD 0 (0#32, false)).1 = none) (hcause : lowestCause (s.causes c (s.core c).bundle true) = none) :
    s.balGrant j [(c, w)] waits =
      (((u.issueGetw c o (s.core c).bundle (issueCycle { s.core c with async := true } (s.core c).bundle w) q (s.que q).head ws).updCore c
        fun k => { k with async := true }).updTrain fun t =>
          { t with balRot := tput t.balRot (groupOf j c).1 ((c - (groupOf j c).1 + 1) % (groupOf j c).2) }, []) := by
  have hasks : [c].filter (s.balAsks j waits) = [c] := by simp [State.balAsks, hw, hq, hcand]
  simp only [State.balGrant, List.map_cons, List.map_nil, hasks, State.balPick_alone, hcand, he, hok, State.getwOr_issues hcause]
  simp [tget, tdel]

/-- A round with one requester ends with its grant. -/
theorem foldl_balGrant_alone {t : State} (n : Nat) (h : s.balGrant j [(c, w)] waits = (t, [])) :
    (List.range (n + 1)).foldl (fun (a : State × List (Nat × Nat)) _ => a.1.balGrant j a.2 waits) (s, [(c, w)]) = (t, []) := by
  rw [List.range_succ_eq_map, List.foldl_cons, h]
  exact List.foldl_fixed' (fun _ => t.balGrant_nil j waits) _

end

/-- Settles O6: a scan that finds an entry issues the bundle with it (`State.getwOr_issues`), and in a round with one requester the first
grant serves it (`State.balGrant_alone`) and leaves none. -/
theorem coreTakesWork : Obligations.CoreTakesWork := by
  refine ⟨?takes, ?waits, ?alone, ?round, ?off⟩
  case takes => exact fun s c w t q i ws hc hw hcause hscan => execGetwTake_takes hc hw hcause hscan
  case waits => exact fun s c w t hc hw hscan => execGetwTake_waits hc hw hscan
  case alone =>
    rintro s _ u c w q o cyc waits j ws hc rfl hj hd hm hw hq hcand he hok hcause
    have hround := foldl_balGrant_alone 64 (State.balGrant_alone (w := w) hw hq hcand he hok hcause)
    exact (execBalancingTake_grants (by simpa using hc) hj hd hm).trans (congrArg (fun a => Host.Outcome.next a.1) hround)
  case round => exact fun s cs waits cyc j hcs hj hd hm => execBalancingTake_grants hcs hj hd hm
  case off => exact fun s cs waits cyc j hcs hj h => execBalancingTake_off hcs hj h

end Sys2Proof.Machine
end

section
/-! PROOFS. The steps of a self-test window (04 R93, R95, R116, R122, Table 4-13, 14 R396), and O7. -/

namespace Sys2Proof.Machine

section
variable {s : State} {c : Nat}

/-! ## Step 1: select -/

theorem execCoreSelftestSelect_selects {sec : Nat} (hc : c < 512) (hrun : (s.core c).st = .run) (hr : (s.core c).retired = false)
    (hdue : (if (s.core c).tcancel then 1 else (s.host.job.map (·.testInt)).getD 600) ≤ sec)
    (hfree : ∀ d, c / 64 * 64 ≤ d → d < c / 64 * 64 + 64 → (s.core d).tpend = false ∧ (s.core d).st ≠ .test) :
    execCoreSelftestSelect c sec s = .next (s.updCore c fun k => { k with tpend := true, tcancel := false }) := by
  have hbusy : ((from_ (c / 64 * 64) 64).any fun d => (s.core d).tpend || (s.core d).st == .test) = false := by
    rw [List.any_eq_false]
    intro d hd
    obtain ⟨i, hi, rfl⟩ := List.mem_map.1 hd
    obtain ⟨htp, htest⟩ := hfree (c / 64 * 64 + i) (by omega) (by have := List.mem_range.1 hi; omega)
    simp [htp, htest]
  have hdue' : (if (s.core c).tcancel then decide (sec ≥ 1) else decide (sec ≥ (s.host.job.map (·.testInt)).getD 600)) = true := by
    split_ifs at hdue ⊢ <;> exact decide_eq_true hdue
  have hall : ∀ due, due = true → ((s.core c).st == .run && !(s.core c).retired && due && !false) = true := by
    rintro _ rfl
    simp [hrun, hr]
  simp only [execCoreSelftestSelect, unit_of_lt hc, hbusy]
  cases hj : s.host.job with
  | none => exact when_next (hall _ (by rwa [hj] at hdue'))
  | some j => exact when_next (hall _ (by rwa [hj] at hdue'))

/-! ## Steps 2 and 3: enter and start -/

theorem State.between_of {s : State} (ho : s.train.ws ≠ .open_) (hv : s.train.ws ≠ .voting) (hu : s.train.ws ≠ .unresolved)
    (hn : s.train.votes = []) : s.between = true := by
  simp [State.between, ho, hv, hu, hn]

theorem execCoreSelftestEnter_enters (hc : c < 512) (hrun : (s.core c).st = .run) (htp : (s.core c).tpend = true)
    (hi : (s.core c).item = none) (hop : tOp (slotT (s.core c).bundle) = 0x28) (hpc : (s.core c).pc < (s.core c).extent)
    (hstep : ∀ j, s.host.job = some j → j.stepOnly = true → s.between = true) :
    execCoreSelftestEnter c s = .next (s.updCore c fun k => { k with st := .test, tpend := false, testing := false, idleq := true }) := by
  simp only [execCoreSelftestEnter, unit_of_lt hc]
  refine when_next ?_
  cases hj : s.host.job with
  | none => simp [hrun, htp, hi, hop, hpc]
  | some j =>
    have hok : (!j.stepOnly || s.between) = true := by
      cases hso : j.stepOnly with
      | false => rfl
      | true => exact hstep j hj hso
    simp [hrun, htp, hi, hop, hpc, hok]

theorem execCoreSelftestStart_starts (hc : c < 512) (ht : (s.core c).st = .test) (hn : (s.core c).testing = false)
    (hq : s.coreQuiet c = true) : execCoreSelftestStart c s = .next (s.updCore c fun k => { k with testing := true }) := by
  simp only [execCoreSelftestStart, unit_of_lt hc]
  exact when_next (by simp [ht, hn, hq])

/-! ## Step 4: pass -/

/-- A core that passed its test, with the hub cycle at which it waits again (R93, R116). -/
def Cor.tested (k : Cor) (cyc : Nat) : Cor :=
  { k.wiped with st := .run, testing := false, idleq := true, idleAt := cyc, async := true }

theorem execCoreSelftestPass_passes (hc : c < 512) (ht : (s.core c).st = .test) (hn : (s.core c).testing = true) :
    execCoreSelftestPass c s = .next (s.updCore c (·.tested s.hubNow)) := by
  simp only [execCoreSelftestPass, unit_of_lt hc]
  exact when_next (by simp [ht, hn])

/-- Registers after a window read as after reset (R95). -/
theorem Cor.tested_registers (k : Cor) (cyc : Nat) :
    (∀ r, (k.tested cyc).s r = 0#64 ∧ (k.tested cyc).sSpoilt r = false) ∧
    (∀ r i, (k.tested cyc).v r i = 0#32 ∧ (k.tested cyc).x r i = Ex.zero) :=
  ⟨fun _ => ⟨ite_self _, Bool.and_false _⟩, fun _ _ => ⟨rfl, rfl⟩⟩

theorem Cor.tested_arr (k : Cor) (cyc : Nat) {a : Nat} (ha : a < 4) : (k.tested cyc).arr a = (k.arr a).wiped := by
  interval_cases a <;> rfl

/-! ## Step 4a: fail -/

theorem execCoreSelftestFail_fails (hc : c < 512) (ht : (s.core c).st = .test) (hn : (s.core c).testing = true) :
    execCoreSelftestFail c s = .next ((s.report (rep 2 (c / 64) 0 (c % 64) 0x21 0)).finishRetire c 0x21) := by
  simp only [execCoreSelftestFail, unit_of_lt hc]
  exact when_next (by simp [ht, hn])

/-- A core that was not retired is retired in the end, with an entry for the ledger (R396). -/
theorem State.finishRetire_retires (cause : Nat) (hr : (s.core c).retired = false) :
    ∃ u : State, s.finishRetire c cause = (u.updCore c fun k =>
      { k with st := .stopped, retired := true, retiring := false, tpend := false, testing := false }).ledg
        1 (c / 64) 0 (c % 64) [BitVec.ofNat 8 cause] :=
  ⟨_, if_neg (by simp [hr])⟩

/-! ## Cancel -/

theorem execCoreSelftestCancel_cancels {ms : Nat} (hc : c < 512) (htp : (s.core c).tpend = true) (ht : (s.core c).st ≠ .test)
    (hms : 50 ≤ ms) : execCoreSelftestCancel c ms s = .next (s.updCore c fun k =>
      { k with tpend := false, tcancel := true, idleAt := if k.idleq then s.hubNow else k.idleAt }) := by
  simp only [execCoreSelftestCancel, unit_of_lt hc]
  exact when_next (by simp [htp, ht, hms])

end

/-- Settles O7: under each step's hypotheses its command's condition holds (`when_next`); what a passed test leaves is `Cor.tested`, and
what a failed one leaves is said by `State.finishRetire_retires`. -/
theorem coreSelftestWindow : Obligations.CoreSelftestWindow := by
  refine ⟨?select, ?enter, ?start, ?pass, ?fail, ?cancel⟩
  case select => exact fun s c sec hc hrun hr hdue hfree => execCoreSelftestSelect_selects hc hrun hr hdue hfree
  case enter =>
    intro s c hc hrun htp hi hop hpc hstep
    refine execCoreSelftestEnter_enters hc hrun htp hi hop hpc fun j hj hso => ?_
    obtain ⟨ho, hv, hu, hn⟩ := hstep j hj hso
    exact State.between_of ho hv hu hn
  case start => exact fun s c hc ht hn hq => execCoreSelftestStart_starts hc ht hn hq
  case pass =>
    intro s c hc ht hn
    refine ⟨_, execCoreSelftestPass_passes hc ht hn, .updCore s c _, ?_⟩
    rw [State.core_updCore_same]
    obtain ⟨hs, hv⟩ := (s.core c).tested_registers s.hubNow
    refine ⟨rfl, rfl, rfl, rfl, hs, hv, fun a ha => ?_⟩
    rw [Cor.tested_arr _ _ ha]
    exact ⟨rfl, rfl, rfl, rfl, rfl, rfl⟩
  case fail =>
    intro s c hc ht hn hr
    obtain ⟨u, hu⟩ := (s.report (rep 2 (c / 64) 0 (c % 64) 0x21 0)).finishRetire_retires 0x21 (by rwa [State.core_report])
    refine ⟨_, (execCoreSelftestFail_fails hc ht hn).trans (congrArg _ hu), ?_⟩
    have hcore := u.core_updCore_same c fun k =>
      { k with st := .stopped, retired := true, retiring := false, tpend := false, testing := false }
    exact ⟨congrArg Cor.st hcore, congrArg Cor.retired hcore, congrArg Cor.testing hcore, u.flt.ledgq, rfl⟩
  case cancel => exact fun s c ms hc htp ht hms => execCoreSelftestCancel_cancels hc htp ht hms

end Sys2Proof.Machine
end

section
/-! PROOFS. The counter unit's one operation and the request that a bank grants (09 R250, R251, 04 R110, R113, 12 R336), and O24. -/

namespace Sys2Proof.Machine

/-! ## What a counter's change leaves (R110, R250, R336) -/

/-- A change of every entry that keeps the default changes each read alike. -/
theorem tget_map {α : Type} {d : α} {f : α → α} (hf : f d = d) (t : Tab α) (k : Nat) :
    tget d (t.map fun e => (e.1, f e.2)) k = f (tget d t k) := by
  induction t with
  | nil => exact hf.symm
  | cons e t ih =>
    simp only [List.map_cons, tget]
    split
    · rfl
    · exact ih

theorem tget_of_lookup_none {α : Type} (d : α) (t : Tab α) {k : Nat} (h : (t.lookup k).isSome = false) : tget d t k = d := by
  induction t with
  | nil => rfl
  | cons e t ih =>
    obtain ⟨j, v⟩ := e
    rw [List.lookup_cons] at h
    by_cases hj : j = k
    · simp [hj] at h
    · rw [beq_false_of_ne (Ne.symm hj)] at h
      rw [tget, if_neg hj, ih h]

/-- A queue entry after counter `n` has become `v` (R336). -/
def QEnt.follow (e : QEnt) (n : Nat) (v : W48) : QEnt :=
  if e.dbc && e.dbctr == n then { e with tail := v.toNat % 2 ^ e.log2n } else e

section
variable (s : State) (n : Nat) (v : W48)

/-- A change of a counter changes the counters, the queues that follow it, and the cores that wait. -/
theorem State.setCtr_frame : s.setCtr n v = { s with
    coll := { s.coll with ctrs := tput s.coll.ctrs n v }
    host := { s.host with qs := s.host.qs.map fun e => (e.1, e.2.follow n v) }
    cores := if s.ctrMine n then s.cores.map fun e => (e.1, e.2.retest n v) else s.cores } := by
  have hqs : (fun e : Nat × QEnt => if e.2.dbc && e.2.dbctr == n then (e.1, { e.2 with tail := v.toNat % 2 ^ e.2.log2n }) else e) =
      fun e => (e.1, e.2.follow n v) := by
    funext e
    unfold QEnt.follow
    split <;> rfl
  unfold State.setCtr
  rw [← hqs]
  split <;> rfl

theorem State.ctr_setCtr (m : Nat) : (s.setCtr n v).ctr m = if m = n then v else s.ctr m := by
  rw [State.setCtr_frame]
  exact tget_tput ..

@[simp] theorem State.ctr_addCtr_same : (s.addCtr n v).ctr n = s.ctr n + v := by
  rw [State.addCtr, State.ctr_setCtr, if_pos rfl]

theorem State.tail_setCtr (q : Nat) : ((s.setCtr n v).que q).tail =
    if (s.host.qs.lookup q).isSome ∧ (s.que q).dbc = true ∧ (s.que q).dbctr = n then v.toNat % 2 ^ (s.que q).log2n else (s.que q).tail := by
  have hque : (s.setCtr n v).que q = (s.que q).follow n v := by
    rw [State.setCtr_frame]
    exact tget_map (d := QEnt.free) (f := (·.follow n v)) rfl s.host.qs q
  have hlisted : (s.que q).dbc = true → (s.host.qs.lookup q).isSome = true := by
    intro hd
    by_contra hl
    rw [State.que, tget_of_lookup_none _ _ (Bool.not_eq_true _ ▸ hl)] at hd
    cases hd
  have hfollow : (s.host.qs.lookup q).isSome ∧ (s.que q).dbc = true ∧ (s.que q).dbctr = n ↔ ((s.que q).dbc && (s.que q).dbctr == n) = true := by
    rw [Bool.and_eq_true, beq_iff_eq]
    exact ⟨And.right, fun h => ⟨hlisted h.1, h⟩⟩
  rw [hque, QEnt.follow, apply_ite QEnt.tail]
  exact if_congr hfollow.symm rfl rfl

/-- Every core stalled on a counter of its job re-tests at the counter's change (R110). -/
theorem State.core_setCtr (h : s.ctrMine n = true) (c : Nat) : (s.setCtr n v).core c = (s.core c).retest n v := by
  rw [State.setCtr_frame, if_pos h]
  exact s.core_mapCores (f := (·.retest n v)) rfl c

end

theorem State.ctrMine_of_owned {s : State} {n : Nat} (h : s.ctrOwned n = true) : s.ctrMine n = true := by
  rw [State.ctrMine, h, Bool.true_or]

/-! ## The request that a bank grants (R250) -/

/-- The oldest age of some requests is at most each one's. -/
theorem foldl_min_age_le (l : List CtrReq) (a : Nat) :
    l.foldl (fun a r => min a r.age) a ≤ a ∧ ∀ x ∈ l, l.foldl (fun a r => min a r.age) a ≤ x.age := by
  induction l generalizing a with
  | nil => simp
  | cons r l ih =>
    obtain ⟨ha, hl⟩ := ih (min a r.age)
    rw [List.foldl_cons]
    refine ⟨by omega, fun x hx => ?_⟩
    rcases List.mem_cons.1 hx with rfl | hx
    · omega
    · exact hl x hx

/-- The granted request waits at the bank, is ready, and is as old as any that is. -/
theorem State.ctrGrant_oldest {s : State} {b cyc : Nat} {r x : CtrReq} {tie : Bool} (h : s.ctrGrant b cyc = some (r, tie))
    (hx : x ∈ s.coll.reqs) (hb : x.ctr % 16 = b) (hage : x.age ≤ cyc) (hready : s.ctrReady x = true) :
    r ∈ s.coll.reqs ∧ r.ctr % 16 = b ∧ s.ctrReady r = true ∧ r.age ≤ x.age := by
  unfold State.ctrGrant at h
  split at h
  · cases h
  · rename_i y l hl
    have hmem : ∀ z ∈ y :: l, z ∈ s.coll.reqs ∧ z.ctr % 16 = b ∧ s.ctrReady z = true := by
      intro z hz
      rw [← hl, List.mem_filter] at hz
      simp_all
    have hxl : x ∈ y :: l := by
      rw [← hl, List.mem_filter]
      simp [hx, hb, hage, hready]
    simp only [Option.bind_eq_some_iff, Option.map_eq_some_iff] at h
    obtain ⟨i, -, z, hz, hzr⟩ := h
    obtain ⟨rfl, -⟩ := Prod.mk.inj hzr
    obtain ⟨hz, hold⟩ := List.mem_filter.1 (List.mem_of_find?_eq_some hz)
    obtain ⟨hreq, hbank, hrdy⟩ := hmem z hz
    obtain ⟨hy, hle⟩ := foldl_min_age_le l y.age
    refine ⟨hreq, hbank, hrdy, ?_⟩
    rw [beq_iff_eq.1 hold]
    rcases List.mem_cons.1 hxl with rfl | hxl
    · exact hy
    · exact hle x hxl

/-- A request that waits alone and is ready is granted, and no tie was settled. -/
theorem State.ctrGrant_alone {s : State} {b cyc : Nat} {r : CtrReq} (hreqs : s.coll.reqs = [r]) (hb : r.ctr % 16 = b) (hage : r.age ≤ cyc)
    (hready : s.ctrReady r = true) (hport : ctrPort r.src < 16) : s.ctrGrant b cyc = some (r, false) := by
  have hwaits : s.coll.reqs.filter (fun r => r.ctr % 16 == b && decide (r.age ≤ cyc) && s.ctrReady r) = [r] := by
    simp [hreqs, hb, hage, hready]
  have hfirst : firstFrom (tget 0 s.coll.rot b) 16 (fun i => [r].any fun r => ctrPort r.src == i) = some (ctrPort r.src) :=
    firstFrom_unique _ hport fun y => by simpa using eq_comm
  simp only [State.ctrGrant, hwaits, List.foldl_nil, List.filter_cons, beq_self_eq_true, if_true, List.filter_nil, hfirst,
    Option.bind_some]
  simp

/-! ## COUNTER_REQUEST on a request that waits alone -/

/-- The state with no request waiting and hub cycle `cyc` named. -/
def State.ctrServed (s : State) (cyc : Nat) : State := s.updColl fun c => { c with reqs := [], clk := max c.clk cyc }

section
variable {s : State} {b cyc n e : Nat} {r : CtrReq} {v : W48}

theorem execCounterRequest_alone (hb : b < 16) (hreqs : s.coll.reqs = [r]) (hbank : r.ctr % 16 = b) (hage : r.age ≤ cyc)
    (hready : s.ctrReady r = true) (hport : ctrPort r.src < 16) :
    execCounterRequest b cyc s = .next ((s.ctrServed cyc).ctrDo r) := by
  simp only [execCounterRequest, unit_of_lt hb, State.ctrGrant_alone hreqs hbank hage hready hport]
  simp [State.updColl, State.hubAt, State.ctrServed, hreqs]

/-- A request of an engine, the sequencer or the arbiter waits for no store (R113). -/
theorem State.ctrReady_hub (s : State) (h : (∃ e, r.src = .engine e) ∨ r.src = .sequencer ∨ r.src = .arbiter) : s.ctrReady r = true := by
  rcases h with ⟨e, h⟩ | h | h <;> simp [State.ctrReady, h]

/-! ## What an operation does, by its source (R250, R251) -/

theorem State.ctrDo_engineAdd (hs : r.src = .engine e) (ho : r.op = .add v) (hown : s.ctrOwned r.ctr = true) :
    s.ctrDo r = s.setCtr r.ctr (s.ctr r.ctr + v) := by
  simp only [State.ctrDo, hs, ho, State.ctrAdd, hown, if_true, State.addCtr]

theorem State.ctrDo_engineSet (hs : r.src = .engine e) (ho : r.op = .set v) (hown : s.ctrOwned r.ctr = true) :
    s.ctrDo r = s.setCtr r.ctr v := by
  simp only [State.ctrDo, hs, ho, State.ctrSet, hown, if_true]

/-- A write of a counter that is not the job's own is reported and has no other effect (R251). -/
theorem State.ctrDo_engineRefused (hs : r.src = .engine e) (ho : r.op = .add v ∨ r.op = .set v) (hown : s.ctrOwned r.ctr = false) :
    s.ctrDo r = s.report (rep 2 (10 + e) 0 18 0x24 (r.ctr + 65536)) := by
  rcases ho with ho | ho
  · simp [State.ctrDo, hs, ho, State.ctrAdd, hown, State.ctrReport, ctrSite, b2n]
  · simp [State.ctrDo, hs, ho, State.ctrSet, hown, State.ctrReport, ctrSite, b2n]

theorem State.ctrDo_hubAdd (hs : r.src = .sequencer ∨ r.src = .arbiter) (ho : r.op = .add v) : s.ctrDo r = s.addCtr r.ctr v := by
  rcases hs with hs | hs <;> simp only [State.ctrDo, hs, ho]

theorem State.ctrDo_coreRead {c d a : Nat} (hs : r.src = .core c d a) (ho : r.op = .read) (hown : s.ctrOwned r.ctr = true) :
    s.ctrDo r = s.updCore c fun k => { (k.setS d ((s.ctr r.ctr).setWidth 64) false) with async := true } := by
  simp only [State.ctrDo, hs, ho, State.ctrRead, State.ctrSeen, State.ctrMine_of_owned hown, if_true]

end

/-- Settles O24: a request that waits alone is the one granted (`State.ctrGrant_alone`); a write of an owned counter is `State.setCtr`,
whose reads are said field by field; among several the grant is as old as any (`State.ctrGrant_oldest`). -/
theorem countersServeTheirOwners : Obligations.CountersServeTheirOwners := by
  refine ⟨?alone, fun s b cyc r x tie h hx hb hage hready => State.ctrGrant_oldest h hx hb hage hready, ?commute⟩
  case alone =>
    rintro s b cyc n r u hb _ hbank hn hage hreqs rfl
    subst hn
    have hserves : ctrPort r.src < 16 → s.ctrReady r = true → execCounterRequest b cyc s = .next ((s.ctrServed cyc).ctrDo r) :=
      fun hport hready => execCounterRequest_alone hb hreqs hbank hage hready hport
    have hengine : ∀ e < 6, r.src = .engine e → execCounterRequest b cyc s = .next ((s.ctrServed cyc).ctrDo r) := fun e he hs =>
      hserves (by rw [hs, ctrPort]; omega) (s.ctrReady_hub (.inl ⟨e, hs⟩))
    refine ⟨?add, ?set, ?read, ?refuse, ?own⟩
    case add =>
      intro e v he hs ho hown
      have hmine : (s.ctrServed cyc).ctrMine r.ctr = true := State.ctrMine_of_owned hown
      refine ⟨_, (hengine e he hs).trans (congrArg _ (State.ctrDo_engineAdd hs ho hown)), ?_, ?_, ?_, ?_, ?_⟩
      · exact ((s.ctrServed cyc).ctr_setCtr ..).trans (if_pos rfl)
      · exact fun m hm => ((s.ctrServed cyc).ctr_setCtr _ _ m).trans (if_neg hm)
      · exact (s.ctrServed cyc).tail_setCtr _ _
      · exact (s.ctrServed cyc).core_setCtr _ _ hmine
      · rw [State.setCtr_frame]
        rfl
    case set => exact fun e v he hs ho hown => (hengine e he hs).trans (congrArg _ (State.ctrDo_engineSet hs ho hown))
    case read =>
      intro c d a hc hs ho hown
      have hready : s.ctrReady r = true := by simp only [State.ctrReady, hs, ho]
      exact (hserves (by rw [hs, ctrPort]; omega) hready).trans (congrArg _ (State.ctrDo_coreRead hs ho hown))
    case refuse => exact fun e v he hs ho hown => (hengine e he hs).trans (congrArg _ (State.ctrDo_engineRefused hs ho hown))
    case own =>
      intro v hs ho
      have hport : ctrPort r.src < 16 := by rcases hs with hs | hs <;> simp [hs, ctrPort]
      exact (hserves hport (s.ctrReady_hub (.inr hs))).trans (congrArg _ (State.ctrDo_hubAdd hs ho))
  case commute =>
    intro s n v w
    simp only [State.ctr_addCtr_same]
    exact add_right_comm _ _ _

end Sys2Proof.Machine
end

section
/-! PROOFS. The mesh, the bonded streams and their lanes (05 R129, R132, R136 to R140), and O11. -/

namespace Sys2Proof.Machine

/-! ## The mesh (R129, R132) -/

section
variable {s : State} {stop plane out cyc : Nat} {f : Flit}

/-- A flit that waits alone at a stop is forwarded by its output, and no tie is settled. -/
theorem flitNext_alone (rot : Nat) (hf : f.inp < 5) : flitNext [f] stop (meshOut stop f.dst) rot = some (f, false) := by
  have hfirst : firstFrom rot 5 (fun i => [f].any fun f => f.inp == i) = some f.inp :=
    firstFrom_unique rot hf fun y => by simpa using eq_comm
  have hout : [f].filter (fun x => meshOut stop x.dst == meshOut stop f.dst) = [f] := by simp
  have hage : [f].filter (fun x => x.age == f.age) = [f] := by simp
  simp only [flitNext, hout, List.foldl_nil, hage, hfirst, Option.bind_some]
  simp

/-- The state whose stop has forwarded a flit of `plane` in floor cycle `cyc`, and owes the credit of a command of its own core. -/
def State.flitTaken (s : State) (stop plane cyc : Nat) (f : Flit) : State :=
  ((s.updFloor fun x => { x with stops := tupd [] x.stops (2 * stop + plane) (·.erase f) }).floorAt cyc).flitOwe stop f

/-- MESH_FLIT_ARRIVAL on a flit that waits alone and leaves by `out`. -/
theorem execMeshFlitArrival_alone (hup : s.floorUp = true) (hstop : stop < 512) (hplane : plane < 2) (hout : meshOut stop f.dst = out)
    (h5 : out < 5) (hf : f.inp < 5) (halone : tget [] s.floor.stops (2 * stop + plane) = [f]) :
    execMeshFlitArrival stop plane out cyc s =
      if out ≠ 0 then .next ((s.flitTaken stop plane cyc f).updFloor fun x => { x with
        stops := tupd [] x.stops (2 * (meshNext stop out).1 + plane) (· ++ [{ f with inp := (meshNext stop out).2, age := cyc + 1 }]) })
      else .next ((s.flitTaken stop plane cyc f).flitHome f cyc) := by
  subst hout
  simp only [execMeshFlitArrival, unit_of_lt hstop, unit_of_lt hplane, unit_of_lt h5, hup, halone, flitNext_alone _ hf]
  rfl

/-- A flit that carries no request owes no credit. -/
theorem State.flitTaken_reply (h : f.req = none) : s.flitTaken stop plane cyc f =
    (s.updFloor fun x => { x with stops := tupd [] x.stops (2 * stop + plane) (·.erase f) }).floorAt cyc := by
  simp only [State.flitTaken, State.flitOwe, h]
  split
  · contradiction
  · rfl

end

/-! ## Bonded streams (R136 to R138) -/

/-- Two updates that agree on the group as it stands have one result. -/
theorem State.updGroup_congr {s : State} {c g : Nat} {u v : Group → Group} (h : u (s.group c g) = v (s.group c g)) :
    s.updGroup c g u = s.updGroup c g v :=
  congrArg (fun e => s.updFloor fun x => { x with groups := tput x.groups (512 * c + g) e }) h

section
variable {s : State} {c g : Nat} {x : BondXfer}

/-- A group receives a transfer of at most a line, whose code names one of its 17 lanes, once every terrace is ready. -/
theorem BondXfer.receivable (hup : s.floorUp = true) (hx : x.words.length ≤ 4) (hlane : ∀ l, x.lane = some l → l < 17) :
    ¬(x.words.length > 4 ∨ (!x.lane.all fun l => decide (l < 17)) = true ∨ (!s.floorUp) = true) := by
  have hnamed : x.lane.all (fun l => decide (l < 17)) = true := by
    cases hl : x.lane with
    | none => rfl
    | some l => exact decide_eq_true (hlane l hl)
  simp [hup, hx, hnamed]

/-- A transfer found good without a corrected lane is delivered. -/
theorem State.bondDeliver_clean (h : x.lane = none) (rest : List BondXfer) : s.bondDeliver c g x rest =
    s.updGroup c g fun k => { k with got := x.words.zip (x.spoil ++ List.replicate x.words.length false), replay := rest, fails := 0 } := by
  simp only [State.bondDeliver, h]

/-- One found good in a corrected lane is delivered, and the lane's event is counted and reported (R140). -/
theorem State.bondDeliver_corrected {l : Nat} (h : x.lane = some l) (rest : List BondXfer) : s.bondDeliver c g x rest =
    (((s.updGroup c g fun k =>
        { k with got := x.words.zip (x.spoil ++ List.replicate x.words.length false), replay := rest, fails := 0 }).updBond c
      fun b => { b with laneEvt := satAdd 8 b.laneEvt 1 }).report (bondRep 1 c 0x03 (g + l * 65536))).winEvent 0
      (c * 2 ^ 20 + g * 32 + l) (·.laneLasting c g l) := by
  simp only [State.bondDeliver, h]

section
variable (hup : s.floorUp = true) (hc : c < 519) (hg : g < 336) (hx : x.words.length ≤ 4) (hlane : ∀ l, x.lane = some l → l < 17)
include hup hc hg hx hlane

/-- While a retry is asked, what arrives waits in the replay buffer. -/
theorem execBondTransferReceive_waits (hretry : (s.group c g).retry = true) (hroom : (s.group c g).replay.length < 32) :
    execBondTransferReceive c g x s = .next (s.updGroup c g fun k => { k with replay := k.replay ++ [x] }) := by
  simp only [execBondTransferReceive, unit_of_lt hc, unit_of_lt hg, if_neg (BondXfer.receivable hup hx hlane), hretry, hroom, if_true]

variable (hretry : (s.group c g).retry = false) (hreplay : (s.group c g).replay = [])
include hretry hreplay

theorem execBondTransferReceive_good (hb : x.bad = false) : execBondTransferReceive c g x s = .next (s.bondDeliver c g x []) := by
  simp only [execBondTransferReceive, unit_of_lt hc, unit_of_lt hg, if_neg (BondXfer.receivable hup hx hlane), hretry, hreplay, hb]
  rfl

/-- On a data group a transfer found uncorrectable is delivered with every word spoiled, and reported. -/
theorem execBondTransferReceive_spoilt (hb : x.bad = true) (hd : g < 320) : execBondTransferReceive c g x s =
    .next ((s.updGroup c g fun k => { k with got := spoilAll x, replay := [], fails := 0 }).report (bondRep 2 c 0x04 g)) := by
  have hdata : dataGroup g = true := decide_eq_true hd
  have hupd : s.updGroup c g (fun k => { k with got := spoilAll x, replay := k.replay.tail, fails := 0 }) =
      s.updGroup c g fun k => { k with got := spoilAll x, replay := [], fails := 0 } :=
    State.updGroup_congr (by rw [hreplay]; rfl)
  simp only [execBondTransferReceive, unit_of_lt hc, unit_of_lt hg, if_neg (BondXfer.receivable hup hx hlane), hretry, hreplay, hb, hdata]
  exact congrArg (fun t : State => Host.Outcome.next (t.report _)) hupd

/-- On a command group it asks for a retry and waits in the replay buffer. -/
theorem execBondTransferReceive_asks (hb : x.bad = true) (hd : 320 ≤ g) (hfails : (s.group c g).fails < 3) :
    execBondTransferReceive c g x s =
      .next (s.updGroup c g fun k => { k with retry := true, fails := k.fails + 1, replay := [x] }) := by
  have hdata : dataGroup g = false := decide_eq_false (by omega)
  have hfew : ¬(s.group c g).fails + 1 > 3 := by omega
  have hupd : s.updGroup c g (fun k => { k with retry := true, fails := k.fails + 1, replay := x :: k.replay.tail }) =
      s.updGroup c g fun k => { k with retry := true, fails := k.fails + 1, replay := [x] } :=
    State.updGroup_congr (by rw [hreplay]; rfl)
  simp only [execBondTransferReceive, unit_of_lt hc, unit_of_lt hg, if_neg (BondXfer.receivable hup hx hlane), hretry, hreplay, hb, hdata,
    if_neg hfew]
  exact congrArg Host.Outcome.next hupd

end

theorem execBondReplay_replays (hc : c < 519) (hg : g < 336) (hretry : (s.group c g).retry = true) :
    execBondReplay c g s = .next (s.updGroup c g fun k => { k with retry := false }) := by
  simp only [execBondReplay, unit_of_lt hc, unit_of_lt hg]
  exact when_next hretry

theorem execBondCreditReturn_returns {k : Nat} (hc : c < 519) (hk : k < 67) (howed : 0 < tget 0 s.floor.owed (1024 * c + k))
    (hheld : s.creditHeld c k = false) :
    execBondCreditReturn c k s = .next ((List.range 4).foldl (fun t j => t.pumpAll (4 * c + j))
      (s.updFloor fun f => { f with owed := tupd 0 f.owed (1024 * c + k) (· - 1), spent := tupd 0 f.spent (1024 * c + k) (· - 1) })) := by
  simp only [execBondCreditReturn, unit_of_lt hc, unit_of_lt hk]
  exact if_pos ⟨howed, by rw [hheld]; rfl⟩

/-! ## Lanes (R139, R140) -/

theorem State.updFlt_updFlt (s : State) (f g : Flt → Flt) : (s.updFlt f).updFlt g = s.updFlt fun x => g (f x) := rfl

/-- A CORRECTED report changes the fault unit alone: it raises no vote of the job (R286). -/
theorem State.report_corrected {r : Report} (h : r.cls = 1) : ∃ f, s.report r = s.updFlt f := by
  unfold State.report
  rw [if_pos h]
  exact ⟨_, rfl⟩

theorem State.laneFound_flt (lane : Nat) : ∃ f, s.laneFound c g lane = s.updFlt f := by
  obtain ⟨f, hf⟩ := State.report_corrected (s := s) (r := bondRep 1 c 0x05 (g + lane * 65536)) rfl
  unfold State.laneFound
  dsimp only
  rw [hf]
  split
  · exact ⟨f, rfl⟩
  · exact ⟨_, State.updFlt_updFlt s f _⟩

theorem execLaneRetireSwitch_switches {l : Nat} (hc : c < 519) (hg : g < 336) (hretire : (s.group c g).retire = some l)
    (hretry : (s.group c g).retry = false) (hreplay : (s.group c g).replay = []) :
    execLaneRetireSwitch c g s = .next (s.laneSpared c g l) := by
  simp only [execLaneRetireSwitch, unit_of_lt hc, unit_of_lt hg, hretire]
  exact when_next (by rw [hretry, hreplay]; rfl)

/-- A lane that moves to the spare changes its group and its interface, and is found failing. -/
theorem State.laneSpared_frame (l : Nat) : ∃ f, s.laneSpared c g l =
    ((s.updGroup c g fun k => { k with spare := some l, retire := none }).updBond c fun b =>
      { b with spared := b.spared + 1, lastGrp := g, lastLane := l }).updFlt f :=
  State.laneFound_flt l

theorem State.laneSpared_group (l : Nat) : (s.laneSpared c g l).group c g = { s.group c g with spare := some l, retire := none } := by
  obtain ⟨f, hf⟩ := State.laneSpared_frame (s := s) (c := c) (g := g) l
  rw [hf]
  exact s.group_updGroup_same c g fun k => { k with spare := some l, retire := none }

theorem State.laneSpared_bond (l : Nat) :
    (s.laneSpared c g l).bond c = { s.bond c with spared := (s.bond c).spared + 1, lastGrp := g, lastLane := l } := by
  obtain ⟨f, hf⟩ := State.laneSpared_frame (s := s) (c := c) (g := g) l
  rw [hf]
  exact State.bond_updBond_same _ c fun b => { b with spared := b.spared + 1, lastGrp := g, lastLane := l }

end

/-- Settles O11: a flit that waits alone is the one forwarded (`flitNext_alone`); a transfer is told apart by its check and by its group,
and a lane that moves to the spare leaves all but the floor and the fault unit (`State.laneSpared_frame`). -/
theorem floorWiresMoveAndRepair : Obligations.FloorWiresMoveAndRepair := by
  refine ⟨?forward, ?request, ?reply, ?good, ?spoilt, ?asks, ?waits, ?replay, ?credit, ?lane⟩
  case forward =>
    exact fun s stop plane cyc f hup hstop hplane hf hout h5 halone =>
      (execMeshFlitArrival_alone hup hstop hplane rfl h5 hf halone).trans (if_pos hout)
  case request =>
    intro s stop plane cyc f q hup hstop hplane hf hout hreq hrep halone
    refine (execMeshFlitArrival_alone hup hstop hplane hout (by omega) hf halone).trans ?_
    simp only [State.flitHome, hreq, hrep]
    rfl
  case reply =>
    intro s stop plane cyc f x hup hstop hplane hf hout hreq hrep halone
    refine (execMeshFlitArrival_alone hup hstop hplane hout (by omega) hf halone).trans ?_
    simp only [State.flitHome, hreq, hrep, State.flitTaken_reply hreq]
    rfl
  case good =>
    rintro s c g x _ hup hc hg hx hretry hreplay hb rfl
    refine ⟨fun hl => ?_, fun l hl h17 => ?_⟩
    · exact (execBondTransferReceive_good hup hc hg hx (by simp [hl]) hretry hreplay hb).trans (congrArg _ (State.bondDeliver_clean hl _))
    · exact (execBondTransferReceive_good hup hc hg hx (by simpa [hl] using h17) hretry hreplay hb).trans
        (congrArg _ (State.bondDeliver_corrected hl _))
  case spoilt =>
    exact fun s c g x hup hc hg hx hl hretry hreplay hb =>
      execBondTransferReceive_spoilt hup hc (by omega) hx (by simp [hl]) hretry hreplay hb hg
  case asks =>
    exact fun s c g x hup hc hd hg hx hl hretry hreplay hb hfails =>
      execBondTransferReceive_asks hup hc hg hx (by simp [hl]) hretry hreplay hb hd hfails
  case waits =>
    exact fun s c g x hup hc hg hx hl hretry hroom => execBondTransferReceive_waits hup hc hg hx (by simp [hl]) hretry hroom
  case replay => exact fun s c g => execBondReplay_replays
  case credit => exact fun s c k => execBondCreditReturn_returns
  case lane =>
    intro s c g l hc hg hretire hretry hreplay
    obtain ⟨f, hf⟩ := State.laneSpared_frame (s := s) (c := c) (g := g) l
    refine ⟨_, execLaneRetireSwitch_switches hc hg hretire hretry hreplay, ?_, ?_, ?_, ?_, ?_, ?_⟩
    · rw [State.laneSpared_group]
    · rw [State.laneSpared_group]
    · rw [State.laneSpared_bond]
    · rw [State.laneSpared_bond]
    · rw [State.laneSpared_bond]
    · rw [hf]
      rfl

end Sys2Proof.Machine
end

section
/-! PROOFS. A patrol scrub whose row the bank has, and the row past the bank's last (05 R145, R147), and O10. -/

namespace Sys2Proof.Machine

/-! ## The line of a scrub (R145) -/

/-- The words of a row lie in the bank, and in the region where the row is one of the bank's 8,192. -/
theorem lineWords_home {r b row w : Nat} (hb : b < 32) (hw : w ∈ lineWords r b row) :
    regionOf w = (r + row / 8192) % 512 ∧ bankOf w = b := by
  obtain ⟨j, hj, rfl⟩ := List.mem_map.1 hw
  have hj4 := List.mem_range.1 hj
  unfold regionOf bankOf
  omega

/-- A check that finds nothing changes nothing at a bank in service. -/
theorem State.spReadAs_clean (s : State) (w : Nat) :
    s.spReadAs false w { fixed := [], bad := [] } = (s, s.floor.ram.word w, s.floor.ram.spoilt w) := rfl

/-- Nor does a read of several words, none of them in a retired bank. -/
theorem State.spReads_clean {s : State} {ws : List Nat} (h : ∀ w ∈ ws, s.bankDead (regionOf w) (bankOf w) = false) :
    (s.spReads ws { fixed := [], bad := [] }).1 = s := by
  refine (List.foldlRecOn ws _ (motive := fun a : State × List (W32 × Bool) × Option (Nat × Bool) =>
    a.1 = s ∧ ∀ l ∈ a.2.2, l.2 = false) (b := (s, [], none)) ⟨rfl, by simp⟩ ?_).1
  rintro ⟨_, got, last⟩ ⟨rfl, hlast⟩ w hw
  cases last with
  | none => simp [h w hw, State.spReadAs_clean]
  | some l =>
    have hl : l.2 = false := hlast l rfl
    by_cases hline : l.1 = w / 4
    · simp [hline, hl, State.spReadAs_clean]
    · simp [hline, h w hw, State.spReadAs_clean]

/-! ## MAINT alone (R133, R134) -/

section
variable {s : State} {r b cyc : Nat}

/-- Where no other port asks, MAINT is granted, however long its request has waited. -/
theorem bankGrant_maint {k : Bank} {m : BankReq} {l : List BankReq} (hm : k.maint = m :: l) (ht : k.homeT = []) (hh : k.homeM = [])
    (hx : k.mesh = []) : bankGrant k cyc = some (3, false) := by
  have hothers : bankGrant.others k (some (3, false)) = some (3, false) := by
    simp [bankGrant.others, List.range_succ, Bank.port, ht, hh, hx]
  simp only [bankGrant, hm, hothers, ite_self]

/-- What MAINT's head asks for is then next. -/
theorem State.maintNext_alone {m : BankReq} {l : List BankReq} (hup : s.regionUp r = true) (hbusy : (s.bank r b).busy ≤ cyc)
    (hm : (s.bank r b).maint = m :: l) (ht : (s.bank r b).homeT = []) (hh : (s.bank r b).homeM = []) (hx : (s.bank r b).mesh = [])
    (hport : m.port = .maint) : s.maintNext r b cyc m.who = some ((3, false), m) := by
  simp [State.maintNext, State.bankNext, hup, Nat.not_lt.2 hbusy, bankGrant_maint hm ht hh hx, Bank.port, hm, hport]

theorem State.updBank_congr {f g : Bank → Bank} (h : f (s.bank r b) = g (s.bank r b)) : s.updBank r b f = s.updBank r b g :=
  congrArg (fun k => s.updFloor fun x => { x with banks := tput x.banks (32 * r + b) k }) h

theorem State.updBank_updBank (s : State) (r b : Nat) (f g : Bank → Bank) :
    (s.updBank r b f).updBank r b g = s.updBank r b fun k => g (f k) := by
  simp [State.updBank, State.updFloor, tupd]

theorem State.floorAt_updBank (s : State) (cyc r b : Nat) (f : Bank → Bank) :
    (s.floorAt cyc).updBank r b f = (s.updBank r b f).floorAt cyc := rfl

theorem State.floorAt_floorAt (s : State) (cyc : Nat) : (s.floorAt cyc).floorAt cyc = s.floorAt cyc := by
  simp [State.floorAt, State.updFloor]

/-- A scrub or a slice joins an empty MAINT queue. -/
theorem State.maintAsk_empty (hm : (s.bank r b).maint = []) (who : Acc) :
    s.maintAsk r b cyc who = s.updBank r b fun k => { k with maint := [maintReq cyc who 0] } := by
  simp only [State.maintAsk, hm, List.any_nil]
  exact State.updBank_congr (by rw [hm]; rfl)

/-- A request that joins an empty MAINT queue and is granted at once leaves the bank occupied for its cycle. -/
theorem State.bankTake_joined (hm : (s.bank r b).maint = []) (who : Acc) :
    ((s.updBank r b fun k => { k with maint := [maintReq cyc who 0] }).floorAt cyc).bankTake r b cyc (3, false) (maintReq cyc who 0) =
      (s.updBank r b fun k => { k with busy := cyc + 1 }).floorAt cyc := by
  rw [State.bankTake, State.floorAt_updBank, State.floorAt_floorAt, State.updBank_updBank]
  exact congrArg (State.floorAt · cyc) (State.updBank_congr (by rw [← hm]; rfl))

/-- A scrub of a row that the bank has, whose check finds nothing, moves on to the next row. -/
theorem State.bankDo_scrub (hr : r < 512) (hb : b < 32) (hlive : s.bankDead r b = false) (hrow : (s.bank r b).scrubRow < 8192) :
    (s.bankDo r b (maintReq cyc .scrub 0) { fixed := [], bad := [] }).1 =
      s.updBank r b fun k => { k with scrubRow := (k.scrubRow + 1) % 8192 } := by
  have hread : (s.spReads (lineWords r b (s.bank r b).scrubRow) { fixed := [], bad := [] }).1 = s := by
    refine State.spReads_clean fun w hw => ?_
    obtain ⟨hreg, hbk⟩ := lineWords_home hb hw
    rw [hbk, hreg, Nat.div_eq_of_lt hrow, Nat.add_zero, Nat.mod_eq_of_lt hr]
    exact hlive
  exact congrArg (State.updBank · r b _) hread

/-- A patrol scrub of a row that the bank has, whose check finds nothing, occupies the bank for a cycle and moves on to the next row. -/
theorem execPatrolScrub_rowInRange (hr : r < 512) (hb : b < 32) (hup : s.regionUp r = true) (hbusy : (s.bank r b).busy ≤ cyc)
    (hscrub : (s.terr (r / 128)).scrub = true) (hlive : s.bankDead r b = false) (ht : (s.bank r b).homeT = [])
    (hh : (s.bank r b).homeM = []) (hx : (s.bank r b).mesh = []) (hm : (s.bank r b).maint = []) (hrow : (s.bank r b).scrubRow < 8192) :
    execPatrolScrub r b cyc { fixed := [], bad := [] } s =
      .next ((s.updBank r b fun k => { k with busy := cyc + 1, scrubRow := (k.scrubRow + 1) % 8192 }).floorAt cyc) := by
  have hbank : ((s.updBank r b fun k => { k with maint := [maintReq cyc .scrub 0] }).floorAt cyc).bank r b =
      { s.bank r b with maint := [maintReq cyc .scrub 0] } :=
    s.bank_updBank_same r b fun k => { k with maint := [maintReq cyc .scrub 0] }
  have hnext : ((s.updBank r b fun k => { k with maint := [maintReq cyc .scrub 0] }).floorAt cyc).maintNext r b cyc .scrub =
      some ((3, false), maintReq cyc .scrub 0) :=
    State.maintNext_alone (m := maintReq cyc .scrub 0) (l := []) hup (by rw [hbank]; exact hbusy) (by rw [hbank]) (by rw [hbank]; exact ht)
      (by rw [hbank]; exact hh) (by rw [hbank]; exact hx) rfl
  have hrow' : (((s.updBank r b fun k => { k with busy := cyc + 1 }).floorAt cyc).bank r b).scrubRow < 8192 := by
    have hbank' := s.bank_updBank_same r b fun k => { k with busy := cyc + 1 }
    exact (congrArg Bank.scrubRow hbank').trans_lt hrow
  simp only [execPatrolScrub, unit_of_lt hr, unit_of_lt hb, hscrub, hlive, State.maintAsk_empty hm, hnext, State.bankTake_joined hm]
  rw [State.bankDo_scrub hr hb (by exact hlive) hrow']
  refine congrArg Host.Outcome.next ?_
  rw [State.floorAt_updBank, State.updBank_updBank]

end

/-! ## A row past the last -/

/-- Terrace 0 is ready with its scrub on, bank 0 of region 0 stands at row 8,192, one past its last, and bank 0 of region 1, where the
line of that number lies, is retired. -/
def pastLastRow : State := State.reset.updFloor fun f =>
  { f with terr := [(0, { Terr.init with ready := true, scrub := true })]
           banks := [(0, { Bank.init with scrubRow := 8192 })]
           retbank := [(1, 1#32)] }

/-- The scrub reads the retired bank and reports it, which the job's vote sees (R147, R286). -/
theorem patrolScrub_pastLastRow_reports :
    ∃ t, Runs (.patrolScrub 0 0 0 { fixed := [], bad := [] }) pastLastRow t ∧ t.train.errSince = true :=
  ⟨_, rfl, by decide⟩

/-- Refutes O10: clause 6 lets the bank's next row be any number, where R145 has 8,192 rows, and a scrub of row 8,192 of region 0 with nothing
found reads region 1, whose bank may be retired, and so changes more than the floor (`patrolScrub_pastLastRow_reports`). A row below 8,192
is scrubbed as the clause says (`execPatrolScrub_rowInRange`). -/
theorem not_bankGrantsOneAccess : ¬ Obligations.BankGrantsOneAccess := by
  rintro ⟨-, -, -, -, -, hscrub, -, -⟩
  obtain ⟨t, ht, -, -, -, -, -, hclean⟩ := hscrub pastLastRow 0 0 0 { fixed := [], bad := [] } (by decide) (by decide) (by decide)
    (by decide) (by decide) (by decide) (by decide) (by decide) (by decide) (by decide)
  obtain ⟨-, hfloor⟩ := hclean rfl
  obtain ⟨u, hu, herr⟩ := patrolScrub_pastLastRow_reports
  have htu : t = u := Host.Outcome.next.inj (ht.symm.trans hu)
  have hquiet : t.train.errSince = false := congrArg (·.train.errSince) hfloor
  rw [htu, herr] at hquiet
  cases hquiet

end Sys2Proof.Machine
end

section
/-! PROOFS. The interleave maps (06 R155, R158, R159, Table 6-1), and O13. -/

namespace Sys2Proof.Machine

/-! ## The stack that FINE gives a group of three (R159) -/

/-- The terrace of stacks that holds group of three `u` under FINE. -/
def fineTerrace (u : Nat) : Nat := u % 4 ^^^ u / 2 ^ 10 % 4 ^^^ u / 2 ^ 20 % 4

theorem fineTerrace_lt (u : Nat) : fineTerrace u < 4 :=
  Nat.xor_lt_two_pow (n := 2) (Nat.xor_lt_two_pow (Nat.mod_lt _ (by decide)) (Nat.mod_lt _ (by decide))) (Nat.mod_lt _ (by decide))

/-- The four groups of three that share their higher bits lie in different terraces. -/
theorem fineTerrace_inj {u v : Nat} (hhigh : u / 4 = v / 4) (h : fineTerrace u = fineTerrace v) : u = v := by
  have h10 : u / 2 ^ 10 = v / 2 ^ 10 := by omega
  have h20 : u / 2 ^ 20 = v / 2 ^ 20 := by omega
  have hlow : u % 4 = v % 4 := by
    rwa [fineTerrace, fineTerrace, h10, h20, Nat.xor_left_inj, Nat.xor_left_inj] at h
  omega

/-! ## Places by map (Table 6-1) -/

section
variable {e : Region} {a b : Nat}

theorem Region.place_fine (h : e.map = 0) (a : Nat) : e.place a =
    (3 * fineTerrace ((a - e.base * 2 ^ 26) / 256 / 3) + (a - e.base * 2 ^ 26) / 256 % 3,
     e.soff * 2 ^ 24 + (a - e.base * 2 ^ 26) / 256 / 3 / 4 * 256 + (a - e.base * 2 ^ 26) % 256) := by
  simp only [Region.place, h]
  rfl

theorem Region.place_terrace (h : e.map = 1) (a : Nat) : e.place a =
    (3 * e.sel + (a - e.base * 2 ^ 26) / 256 % 3,
     e.soff * 2 ^ 24 + (a - e.base * 2 ^ 26) / 256 / 3 * 256 + (a - e.base * 2 ^ 26) % 256) := by
  simp only [Region.place, h]

theorem Region.place_stack (h : e.map = 2) (a : Nat) : e.place a = (e.sel, e.soff * 2 ^ 24 + (a - e.base * 2 ^ 26)) := by
  simp only [Region.place, h]

theorem Region.place_channel {n : Nat} (h : e.map = n + 3) (a : Nat) : e.place a =
    (e.sel, (e.soff * 2 ^ 24 + (a - e.base * 2 ^ 26)) / 256 / 2 * 2 ^ 14 + (e.soff * 2 ^ 24 + (a - e.base * 2 ^ 26)) / 256 % 2 * 2 ^ 13 +
      e.chan * 2 ^ 8 + (e.soff * 2 ^ 24 + (a - e.base * 2 ^ 26)) % 256) := by
  simp only [Region.place, h]

theorem Region.covers_bounds (h : e.covers a = true) : e.base * 2 ^ 26 ≤ a ∧ a < (e.base + e.size) * 2 ^ 26 := by
  simp only [Region.covers, Bool.and_eq_true, decide_eq_true_eq] at h
  exact h.2

/-- Two addresses of one region that share their place are one (R158). -/
theorem Region.place_inj (hs : e.selOk = true) (ha : e.covers a = true) (hb : e.covers b = true) (h : e.place a = e.place b) : a = b := by
  obtain ⟨hla, -⟩ := Region.covers_bounds ha
  obtain ⟨hlb, -⟩ := Region.covers_bounds hb
  match hm : e.map with
  | 0 =>
    rw [Region.place_fine hm, Region.place_fine hm] at h
    obtain ⟨hst, hso⟩ := Prod.mk.inj h
    have hu : (a - e.base * 2 ^ 26) / 256 / 3 = (b - e.base * 2 ^ 26) / 256 / 3 := fineTerrace_inj (by omega) (by omega)
    omega
  | 1 =>
    rw [Region.place_terrace hm, Region.place_terrace hm] at h
    obtain ⟨hst, hso⟩ := Prod.mk.inj h
    omega
  | 2 =>
    rw [Region.place_stack hm, Region.place_stack hm] at h
    obtain ⟨-, hso⟩ := Prod.mk.inj h
    omega
  | n + 3 =>
    rw [Region.place_channel hm, Region.place_channel hm] at h
    obtain ⟨-, hso⟩ := Prod.mk.inj h
    have hchan : e.chan < 32 := by
      simp only [Region.selOk, hm, decide_eq_true_eq] at hs
      exact hs.2
    omega

/-- A place lies on a stack that the map names. -/
theorem Region.place_mem_stacks (e : Region) (a : Nat) : (e.place a).1 ∈ e.stacks := by
  match hm : e.map with
  | 0 =>
    have ht := fineTerrace_lt ((a - e.base * 2 ^ 26) / 256 / 3)
    simp only [Region.place_fine hm, Region.stacks, hm, List.mem_range]
    omega
  | 1 =>
    simp only [Region.place_terrace hm, Region.stacks, hm, from_, List.mem_map, List.mem_range]
    exact ⟨_, Nat.mod_lt _ (by decide), rfl⟩
  | 2 => simp only [Region.place_stack hm, Region.stacks, hm, List.mem_singleton]
  | n + 3 => simp only [Region.place_channel hm, Region.stacks, hm, List.mem_singleton]

/-- Under FINE, TERRACE and STACK a place lies in the entry's backing range. -/
theorem Region.place_backed (hsize : e.map < 2 → e.size % 3 = 0) (hmap : e.map < 3) (ha : e.covers a = true) :
    e.backing.1 ≤ (e.place a).2 ∧ (e.place a).2 < e.backing.1 + e.backing.2 := by
  obtain ⟨hla, hha⟩ := Region.covers_bounds ha
  match hm : e.map with
  | 0 =>
    simp only [Region.place_fine hm, Region.backing, hm]
    omega
  | 1 =>
    simp only [Region.place_terrace hm, Region.backing, hm]
    omega
  | 2 =>
    simp only [Region.place_stack hm, Region.backing, hm]
    omega
  | n + 3 => omega

end

/-- Settles O13, map by map: a place gives back the offset that it was made from (`Region.place_inj`), under FINE because groups that share
their higher bits lie in different terraces (`fineTerrace_inj`). -/
theorem interleaveMapsKeepBytesApart : Obligations.InterleaveMapsKeepBytesApart :=
  fun e hs hsize => ⟨fun _ _ => Region.place_inj hs, fun a _ => e.place_mem_stacks a, fun _ => Region.place_backed hsize⟩

end Sys2Proof.Machine
end

section
/-! PROOFS. A unit's translation with its checks (06 R154, R157), and O12. -/

namespace Sys2Proof.Machine

section
variable {s t : State} {r : UnitReq} {who : Requester} {p a n : Nat} {e : Region}

/-! ## Translation (R154, R157) -/

theorem State.admitUnit_unmapped (h : s.rgnAt a = none) : s.admitUnit who p a = (s.report (reqRep who 0x15 a), none) := by
  simp only [State.admitUnit, h]

/-- A mapped unit is admitted where its requester's partition is not checked or is the region's. -/
theorem State.admitUnit_admits (h : s.rgnAt a = some (n, e)) (hp : reqChecked who = true → e.part = p) :
    s.admitUnit who p a = (s, some (n, (e.place a).1, (e.place a).2)) := by
  simp +contextual [State.admitUnit, h, hp]

theorem State.admitUnit_foreign (h : s.rgnAt a = some (n, e)) (hc : reqChecked who = true) (hp : e.part ≠ p) :
    s.admitUnit who p a = (s.report (reqRep who 0x16 a), none) := by
  simp [State.admitUnit, h, hc, hp]

/-! ## A unit of a copy -/

section
variable {c m : Nat} {x : TAcc} (hx : (s.core c).copyUnit r.addr = some (x, m))
include hx

theorem State.coreUnit_unmapped (h : s.rgnAt r.addr = none) :
    s.coreUnit c r = (s.copyTaken c x m (x.unitEnds m)).coreException c 5 3 := by
  simp only [State.coreUnit, hx, h]

theorem State.coreUnit_foreign (h : s.rgnAt r.addr = some (n, e)) (hp : e.part ≠ s.fab.part) :
    s.coreUnit c r = (s.copyTaken c x m (x.unitEnds m)).report (reqRep (.core c) 0x16 r.addr) := by
  simp only [State.coreUnit, hx, h]
  exact if_pos hp

theorem State.coreUnit_admits (h : s.rgnAt r.addr = some (n, e)) (hp : e.part = s.fab.part) :
    s.coreUnit c r = (s.copyTaken c x m 0).unitWait (copyReq { r with part := s.fab.part } x m)
      (n, (e.place r.addr).1, (e.place r.addr).2) := by
  simp only [State.coreUnit, hx, h]
  exact if_neg (not_not.2 hp)

end

/-! ## HBM_UNIT_REQUEST -/

/-- The request is for one whole unit, in a group that its requester may use (R160, Table 6-2). -/
def State.UnitAsked (s : State) (r : UnitReq) : Prop :=
  r.addr % 32 = 0 ∧ r.addr < 2 ^ 40 ∧ r.group < 16 ∧ s.groupFits r = true

section
variable (hr : s.UnitAsked r)
include hr

theorem State.UnitAsked.occurs : ¬(r.addr % 32 ≠ 0 ∨ r.addr ≥ 2 ^ 40 ∨ r.group ≥ 16 ∨ (!s.groupFits r) = true) := by
  obtain ⟨halign, hlt, hgroup, hfits⟩ := hr
  simpa [halign, hfits, Nat.not_le.2 hgroup] using hlt

theorem execHbmUnitRequest_core {c : Nat} (hw : r.who = .core c) (hc : c < 512) :
    execHbmUnitRequest r s = .next (s.coreUnit c r) := by
  simp only [execHbmUnitRequest, if_neg hr.occurs, hw, unit_of_lt hc]

/-- Another requester's unit waits at its group where translation admits it. -/
theorem execHbmUnitRequest_other {x : Option (Nat × Nat × Nat)} (hw : ∀ c, r.who ≠ .core c)
    (hx : s.admitUnit r.who r.part r.addr = (t, x)) : execHbmUnitRequest r s = .next (x.elim t (t.unitWait r)) := by
  rw [execHbmUnitRequest, if_neg hr.occurs]
  split
  · exact absurd ‹_› (hw _)
  · rw [hx]
    cases x <;> rfl

end

/-- Requesters of the fabric are checked and are no cores. -/
theorem fabricRequester (hw : (∃ i, who = .engine i) ∨ ∃ i, who = .coll i) : reqChecked who = true ∧ ∀ c, who ≠ .core c := by
  rcases hw with ⟨i, rfl⟩ | ⟨i, rfl⟩ <;> exact ⟨rfl, fun _ h => Requester.noConfusion h⟩

end

/-- Settles O12: a mapped unit is admitted, or discarded for its partition (`State.admitUnit_admits`, `State.admitUnit_foreign`); a core's is
compared with the device's partition (`State.coreUnit_admits`, `State.coreUnit_foreign`). -/
theorem partitionIsCheckedAtTranslation : Obligations.PartitionIsCheckedAtTranslation := by
  refine ⟨?fabric, ?core, ?host, ?maint⟩
  case fabric =>
    intro s r n e halign hlt hg hfits h hw
    obtain ⟨hchecked, hcore⟩ := fabricRequester hw
    have hr : s.UnitAsked r := ⟨halign, hlt, hg, hfits⟩
    exact ⟨fun hp => execHbmUnitRequest_other hr hcore (State.admitUnit_admits h fun _ => hp),
      fun hp => execHbmUnitRequest_other hr hcore (State.admitUnit_foreign h hchecked hp)⟩
  case core =>
    intro s r c m n e x halign hlt hg hfits hw hc hx h
    have hrun := execHbmUnitRequest_core ⟨halign, hlt, hg, hfits⟩ hw hc
    exact ⟨fun hp => hrun.trans (congrArg _ (State.coreUnit_admits hx h hp)),
      fun hp => hrun.trans (congrArg _ (State.coreUnit_foreign hx h hp))⟩
  case host =>
    intro s r n e halign hlt hg hfits h hw
    have hunchecked : reqChecked r.who = true → e.part = r.part := by simp [hw, reqChecked]
    exact execHbmUnitRequest_other ⟨halign, hlt, hg, hfits⟩ (by simp [hw]) (State.admitUnit_admits h hunchecked)
  case maint => exact fun s part a n e h => State.admitUnit_admits h (by simp [reqChecked])

end Sys2Proof.Machine
end

section
/-! PROOFS. A unit's path from its regulator group to its stack (06 R154, R160 to R164, R167, R171), and O14. -/

namespace Sys2Proof.Machine

/-! ## The order of units (R161, R164) -/

/-- A fold that takes the smaller age ends no higher than any age. -/
theorem foldl_min_le {α : Type} (f : α → Nat) {l : List α} {x y : α} (hy : y ∈ x :: l) : l.foldl (fun a z => min a (f z)) (f x) ≤ f y :=
  List.foldl_map.ge.trans (List.min_le_of_mem (List.mem_map_of_mem (f := f) hy))

/-- What goes first is one of the units, and none is older. -/
theorem oldest_le {l : List HUnit} {rot n : Nat} {f : HUnit → Nat} {u : HUnit} {tie : Bool} (h : oldest l rot n f = some (u, tie)) :
    u ∈ l ∧ ∀ x ∈ l, u.req.cyc ≤ x.req.cyc := by
  cases l with
  | nil => cases h
  | cons y l =>
    simp only [oldest, Option.bind_eq_some_iff, Option.map_eq_some_iff] at h
    obtain ⟨i, -, z, hz, hzu⟩ := h
    obtain ⟨rfl, -⟩ := Prod.mk.inj hzu
    obtain ⟨hmem, hlow⟩ := List.mem_filter.1 (List.mem_of_find?_eq_some hz)
    refine ⟨hmem, fun x hx => ?_⟩
    rw [beq_iff_eq.1 hlow]
    exact foldl_min_le (fun u : HUnit => u.req.cyc) hx

/-! ## Regulators (R163, R164) -/

@[simp] theorem State.grp_updGrp_same (s : State) (g : Nat) (f : RGrp → RGrp) : (s.updGrp g f).grp g = f (s.grp g) :=
  tget_tupd_same ..

/-- A unit that passes moves its group's index past it after a tie, and takes its token where it needs one. -/
theorem State.grp_regPass (s : State) (g cyc : Nat) (u : HUnit) (tie token : Bool) : (s.regPass g cyc u tie token).grp g =
    { s.grp g with rot := if tie then (reqNo u.req.who + 1) % reqCount else (s.grp g).rot
                   level := if token then (s.grp g).level - 160 else (s.grp g).level } :=
  s.grp_updGrp_same g fun k =>
    { k with rot := if tie then (reqNo u.req.who + 1) % reqCount else k.rot, level := if token then k.level - 160 else k.level }

section
variable {s : State} {g cyc : Nat} {u : HUnit} {tie : Bool} (hg : g < 16)
  (hu : oldest ((s.regFill g cyc).waiting g) ((s.regFill g cyc).grp g).rot reqCount (fun u => reqNo u.req.who) = some (u, tie))
include hg hu

/-- The oldest unit of a group passes, with a token or without, or waits. -/
theorem execRegulatorAdmit_oldest : execRegulatorAdmit g cyc s = .next (
    if ((s.regFill g cyc).grp g).rate = 0 then (s.regFill g cyc).regPass g cyc u tie false
    else if 160 ≤ ((s.regFill g cyc).grp g).level then (s.regFill g cyc).regPass g cyc u tie true
    else if ((s.regFill g cyc).grp g).borrow && (s.regFill g cyc).mayBorrow u then (s.regFill g cyc).regPass g cyc u tie false
    else s.regFill g cyc) := by
  simp only [execRegulatorAdmit, unit_of_lt hg, hu, ge_iff_le]
  split_ifs <;> rfl

theorem execBorrowAgeExpiry_passes (hb : ((s.regFill g cyc).grp g).borrow = true) (hage : u.req.cyc + 4096 ≤ cyc) :
    execBorrowAgeExpiry g cyc s = .next ((s.regFill g cyc).regPass g cyc u tie false) := by
  simp only [execBorrowAgeExpiry, unit_of_lt hg, hu]
  exact if_pos ⟨hb, hage⟩

end

/-! ## Pseudo-channel queues (R161, R162, R171) -/

section
variable {s : State} {st pc cyc i : Nat} {x : Nat × HUnit}

theorem unit_pseudoChannel {r : Res} (hst : st < 12) (hpc : pc < 64) : unit st 12 (unit pc 64 r) = r :=
  (unit_of_lt hst).trans (unit_of_lt hpc)

theorem execPcQueueAccept_accepts {u : HUnit} {tie : Bool} (hst : st < 12) (hpc : pc < 64)
    (hu : oldest (s.hbm.offer.filter fun u => u.st == st && u.pc == pc) (tget 0 s.hbm.pcRot (64 * st + pc)) 5 (fun u => u.req.input) =
      some (u, tie))
    (hroom : (s.pcEntries st pc).length < 64) (hfree : tget 0 s.hbm.accAt (64 * st + pc) ≤ cyc)
    (hlevel : cyclePermitted (s.gate (16 + st)).eff cyc = true) :
    execPcQueueAccept st pc cyc s = .next (s.updHbm fun h => { h with
      offer := h.offer.erase u, pcq := h.pcq ++ [(cyc, u)], accAt := tput h.accAt (64 * st + pc) (cyc + 1),
      pcRot := if tie then tput h.pcRot (64 * st + pc) ((u.req.input + 1) % 5) else h.pcRot }) := by
  simp only [execPcQueueAccept, unit_pseudoChannel hst hpc, hu]
  exact if_neg (by simp [Nat.not_le.2 hroom, Nat.not_lt.2 hfree, hlevel])

theorem execHbmRequestServe_serves {e : Ecc} (hst : st < 12) (hpc : pc < 64) (hx : s.mayServe st pc i cyc = some x) :
    execHbmRequestServe st pc i cyc e s = .next (s.unitServe x e) := by
  simp only [execHbmRequestServe, unit_pseudoChannel hst hpc, hx]

theorem State.unitHeld_noSlice (h : s.hbm.test = []) (u : HUnit) : s.unitHeld u = false := by
  simp [State.unitHeld, State.underTest, h]

/-- Without a slice an entry waits for earlier ones of its unit and for those that have waited 512 cycles (R162). -/
theorem State.mayServe_noSlice (htest : s.hbm.test = []) (hfirst : s.hbm.first = []) (hx : (s.pcEntries st pc)[i]? = some x) :
    s.mayServe st pc i cyc = some x ↔ ∀ y ∈ (s.pcEntries st pc).take i, y.2.so / 32 ≠ x.2.so / 32 ∧ cyc < y.1 + 512 := by
  simp [State.mayServe, hx, hfirst, State.unitHeld_noSlice htest, Option.filter_eq_some_iff]

theorem execHbmAgeLimit_serves {e : Ecc} {l : List (Nat × HUnit)} (hst : st < 12) (hpc : pc < 64) (hl : s.pcEntries st pc = x :: l)
    (hheld : s.unitHeld x.2 = false) (hage : x.1 + 512 ≤ cyc) : execHbmAgeLimit st pc cyc e s = .next (s.unitServe x e) := by
  have haged : s.aged st pc cyc = some x := by simp [State.aged, hl, hheld, hage]
  simp only [execHbmAgeLimit, unit_pseudoChannel hst hpc, haged]

/-! ## Units performed (R160, R167) -/

/-- A clean unit of a serving stack is read with no further effect. -/
theorem State.unitRead_clean {so info : Nat} (h : (s.stack st).st ≠ 3) : s.unitRead st so info .clean = (s, s.unitData st so) := if_neg h

/-- Serving a unit takes it from its queue first. -/
def State.unitTaken (s : State) (x : Nat × HUnit) : State := s.updHbm fun h => { h with pcq := h.pcq.erase x, first := h.first.erase x }

theorem State.unitServe_read (hw : x.2.req.write = false) (hst : (s.stack x.2.st).st ≠ 3) :
    s.unitServe x .clean = (s.unitTaken x).unitAnswer x.2 (s.unitData x.2.st x.2.so) := by
  have hread : (s.unitTaken x).unitRead x.2.st x.2.so x.2.req.addr .clean = (s.unitTaken x, s.unitData x.2.st x.2.so) :=
    State.unitRead_clean (by exact hst)
  simp only [State.unitServe, hw, Bool.false_eq_true, and_false, if_false]
  exact congrArg (fun r : State × List Byte × List Bool => r.1.unitAnswer x.2 r.2) hread

theorem State.unitAnswer_out {u : HUnit} {d : List Byte × List Bool} (hc : ∀ c, u.req.who ≠ .core c) (hm : u.req.who ≠ .maint) :
    s.unitAnswer u d = s.emit (.unitData u.req.id d.1 (BitVec.ofNat 8 ((d.2.map b2n).foldr (fun b a => b + 2 * a) 0))) := by
  unfold State.unitAnswer
  split
  · exact absurd ‹_› (hc _)
  · exact absurd ‹_› hm
  · rfl

/-- A write that no maintenance asks for is one write of its stack, a partial one after a clean read too. -/
theorem State.unitServe_write (hw : x.2.req.write = true) (hst : (s.stack x.2.st).st ≠ 3) (hm : x.2.req.who ≠ .maint) :
    s.unitServe x .clean = ((s.unitTaken x).unitWrite x.2.st x.2.so x.2.req.addr x.2.req.data
      ((List.range 32).map fun i => x.2.req.mask.getLsbD i) ((List.range 8).map fun i => x.2.req.spoil.getLsbD i)).unitWritten x.2 := by
  have hread : (if ((s.unitTaken x).stack x.2.st).st = 3 ∨ x.2.req.mask = BitVec.allOnes 32 then s.unitTaken x
      else ((s.unitTaken x).unitRead x.2.st x.2.so x.2.req.addr .clean).1) = s.unitTaken x := by
    split
    · rfl
    · rw [State.unitRead_clean (by exact hst)]
  simp only [State.unitServe, hw, hm, false_and, if_false, if_true]
  exact congrArg (fun t : State => (t.unitWrite _ _ _ _ _ _).unitWritten x.2) hread

/-- A write's completion at its requester stores nothing. -/
@[simp] theorem State.unitWritten_hbm (s : State) (u : HUnit) : (s.unitWritten u).hbm = s.hbm := by
  unfold State.unitWritten
  split <;> rfl

end

/-! ## The bytes of a write (R160) -/

/-- The first `n` bytes of `data` from key `k`, those that `p` names. -/
def putBytes (m : List Host.Cell) (k : Nat) (data : List Byte) (p : Nat → Bool) (n : Nat) : List Host.Cell :=
  (List.range n).foldl (fun m i => if p i then cellPut m (k + i) (data.getD i 0#8) else m) m

theorem putBytes_succ (m : List Host.Cell) (k : Nat) (data : List Byte) (p : Nat → Bool) (n : Nat) : putBytes m k data p (n + 1) =
    if p n then cellPut (putBytes m k data p n) (k + n) (data.getD n 0#8) else putBytes m k data p n := by
  rw [putBytes, List.range_succ, List.foldl_append]
  rfl

section
variable {m : List Host.Cell} (hm : Memory.wf m = true) (k : Nat) (data : List Byte) (p : Nat → Bool)
include hm

theorem putBytes_wf (n : Nat) : Memory.wf (putBytes m k data p n) = true := by
  induction n with
  | zero => exact hm
  | succ n ih =>
    rw [putBytes_succ]
    split
    · exact cellPut_wf _ _ ih
    · exact ih

/-- A write changes exactly the bytes that it names. -/
theorem cellGet_putBytes (n a : Nat) : cellGet (putBytes m k data p n) a =
    if k ≤ a ∧ a < k + n ∧ p (a - k) = true then data.getD (a - k) 0#8 else cellGet m a := by
  induction n with
  | zero => exact (if_neg (by omega)).symm
  | succ n ih =>
    rw [putBytes_succ]
    by_cases ha : a = k + n
    · subst ha
      have hout : ¬(k ≤ k + n ∧ k + n < k + n ∧ p (k + n - k) = true) := by omega
      rw [if_neg hout] at ih
      by_cases hp : p n = true
      · simp [hp, cellGet_cellPut_same _ _ _ 0 (putBytes_wf hm k data p n)]
      · simp [hp, ih]
    · have hin : a < k + (n + 1) ↔ a < k + n := by omega
      simp only [hin]
      rw [← ih]
      split
      · rw [cellGet_cellPut_ne _ _ ha]
      · rfl

end

/-- The stored bytes after a write of a serving stack. -/
theorem State.unitWrite_bytes {s : State} {st so info : Nat} {data : List Byte} {spoil : List Bool} (mask : BitVec 32)
    (h : (s.stack st).st ≠ 3) :
    (s.unitWrite st so info data ((List.range 32).map fun i => mask.getLsbD i) spoil).hbm.ram.bytes =
      putBytes s.hbm.ram.bytes (hkey st so) data mask.getLsbD 32 := by
  rw [State.unitWrite, if_neg h]
  refine List.foldl_ext _ _ _ fun m i hi => ?_
  simp [List.getD_eq_getElem?_getD, List.mem_range.1 hi]

/-- Settles O14: under each clause's hypotheses the command's condition holds; what goes first is as old as any (`oldest_le`), and a write
of a serving stack stores the bytes that its mask names (`cellGet_putBytes`). -/
theorem deviceMemoryRequestsPass : Obligations.DeviceMemoryRequestsPass := by
  refine ⟨?unmapped, ?regulator, ?pass, ?accept, fun l rot n f u tie => oldest_le, ?serve, ?order, ?aged, ?read, ?write⟩
  case unmapped =>
    intro s r halign hlt hg hfits h
    have hr : s.UnitAsked r := ⟨halign, hlt, hg, hfits⟩
    exact ⟨fun hw => execHbmUnitRequest_other hr hw (State.admitUnit_unmapped h),
      fun c a n hw hc hx => (execHbmUnitRequest_core hr hw hc).trans (congrArg _ (State.coreUnit_unmapped hx h))⟩
  case regulator =>
    rintro s _ g cyc u tie hg rfl hu
    have hrun := execRegulatorAdmit_oldest hg hu
    refine ⟨fun h0 => hrun.trans ?_, fun h0 hl => hrun.trans ?_, fun h0 hl hb hm => hrun.trans ?_, fun h0 hl hb => hrun.trans ?_,
      fun hb hage => execBorrowAgeExpiry_passes hg hu hb hage⟩
    · rw [if_pos h0]
    · rw [if_neg h0, if_pos hl]
    · rw [if_neg h0, if_neg (Nat.not_le.2 hl), if_pos (by simp [hb, hm])]
    · rw [if_neg h0, if_neg (Nat.not_le.2 hl), if_neg (by rcases hb with hb | hb <;> simp [hb])]
  case pass =>
    intro s g cyc u tie token
    refine ⟨_, rfl, ?_, rfl, rfl, rfl⟩
    rw [State.grp_regPass]
    cases token <;> rfl
  case accept =>
    exact fun s st pc cyc u tie hst hpc hu hroom hfree hlevel => execPcQueueAccept_accepts hst hpc hu hroom hfree hlevel
  case serve => exact fun s st pc i cyc e x hst hpc hx => execHbmRequestServe_serves hst hpc hx
  case order => exact fun s st pc i cyc x htest hfirst hx => State.mayServe_noSlice htest hfirst hx
  case aged => exact fun s st pc cyc e x l hst hpc hl hheld hage => execHbmAgeLimit_serves hst hpc hl hheld hage
  case read => exact fun s x hw hst hc hm => (State.unitServe_read hw hst).trans (State.unitAnswer_out hc hm)
  case write =>
    intro s x a hw hst hm hwf
    rw [State.unitServe_write hw hst hm, State.unitWritten_hbm, State.unitWrite_bytes _ (by exact hst)]
    exact cellGet_putBytes hwf _ _ _ 32 a

end Sys2Proof.Machine
end

section
/-! PROOFS. Maintenance of the stacks (06 R153, R167 to R171) and the end of a region entry's replacement (06 R156), and O15. -/

namespace Sys2Proof.Machine

section
variable {s : State} {st pc : Nat}

/-! ## Write-backs and scrub (R167, R168) -/

theorem State.unitServe_writeback {x : Nat × HUnit} (e : Ecc) (hm : x.2.req.who = .maint) (hw : x.2.req.write = true) :
    s.unitServe x e = s.unitTaken x := if_pos ⟨hm, hw⟩

theorem execHbmMaintWriteback_performs {so cyc i : Nat} {x : Nat × HUnit} (hst : st < 12)
    (hi : (s.pcEntries st (2 * chanOf so + pcOf so)).findIdx? (fun x => x.2.isBack st so) = some i)
    (hx : s.mayServe st (2 * chanOf so + pcOf so) i cyc = some x) (hm : x.2.req.who = .maint) (hw : x.2.req.write = true) :
    execHbmMaintWriteback st so cyc s = .next (s.unitTaken x) := by
  simp only [execHbmMaintWriteback, unit_of_lt hst, hi, hx, State.unitServe_writeback .clean hm hw]

theorem execHbmPatrolScrub_asks {cyc : Nat} (hst : st < 12) (hrun : s.stackRuns st = true) (hon : (s.stack st).scrub = true)
    (hdue : (s.stack st).scrubDue ≤ cyc) (hheld : s.unitHeld (maintUnit st (32 * (s.stack st).scrubAt) 0 cyc) = false) :
    execHbmPatrolScrub st cyc s = .next ((s.updStack st fun k =>
      { k with scrubAt := (k.scrubAt + 1) % (stackBytes / 32), scrubDue := cyc + scrubGap s.hbm.scrubH }).updHbm fun h =>
        { h with waitq := h.waitq ++ [maintUnit st (32 * (s.stack st).scrubAt) 0 cyc] }) := by
  simp only [execHbmPatrolScrub, unit_of_lt hst]
  exact when_next (by simp [hrun, hon, hdue, hheld])

/-! ## Self-test slices (R170, R171, Table 6-3) -/

theorem execHbmSelftestSlice_starts {row ms faults : Nat} {spare : Bool} {e : Ecc} (hst : st < 12) (hpc : pc < 64)
    (hrun : s.stackRuns st = true) (hnone : s.hbm.test.find? (fun x => x.1 == st && x.2.1 == pc) = none) (hms : s.hbm.sliceMs ≤ ms)
    (hturn : rowBg (Config.hbmRowFirst row * 64 + pc) = tget 0 s.hbm.sliceBg (64 * st + pc) % 4) :
    execHbmSelftestSlice st pc row ms faults false false spare e s =
      .next (s.sliceStart st pc (Config.hbmRowFirst row * 64 + pc)) := by
  simp only [execHbmSelftestSlice, unit_pseudoChannel hst hpc, hnone]
  exact when_next (by simp [hrun, hms, hturn])

theorem execHbmSelftestSlice_ends {row ms faults bg r : Nat} {ref spare : Bool} {e : Ecc} (hst : st < 12) (hpc : pc < 64)
    (hslice : s.hbm.test.find? (fun x => x.1 == st && x.2.1 == pc) = some (st, pc, bg, r)) :
    execHbmSelftestSlice st pc row ms faults true ref spare e s = .next (s.sliceEnd st pc bg r faults spare e) := by
  simp only [execHbmSelftestSlice, unit_pseudoChannel hst hpc, hslice]
  exact when_next rfl

/-- The slice of a pseudo-channel has let its bank group go, and the turn is the next one's. -/
def State.sliceReleased (s : State) (st pc bg : Nat) : State :=
  let t := s.updHbm fun h => { h with
    sliceBg := tput h.sliceBg (64 * st + pc) ((bg + 1) % 4)
    test := h.test.filter fun x => !(x.1 == st && x.2.1 == pc)
    first := h.first ++ ((s.pcEntries st pc).find? fun x => rowBg (rowOfSo x.2.so) == bg).toList }
  t.updStack st fun k => { k with slice := t.hbm.test.any fun x => x.1 == st }

/-- A slice that found no fault, on a stack with no marked row, only lets its bank group go. -/
theorem State.sliceEnd_noFault {bg row : Nat} {spare : Bool} {e : Ecc} (h : (s.stack st).marked = []) :
    s.sliceEnd st pc bg row 0 spare e = s.sliceReleased st pc bg := by
  simp [State.sliceEnd, State.sliceReleased, h]

/-! ## The end of a long command (R345, R346) -/

/-- The end of a long command changes the host interface alone. -/
theorem State.finishLong_host (s : State) (i status : Nat) (d0 d1 d2 d3 : W32) :
    s.finishLong i status d0 d1 d2 d3 = { s with host := (s.finishLong i status d0 d1 d2 d3).host } := by
  unfold State.finishLong State.finishOn
  cases s.longAt i <;> rfl

@[simp] theorem State.finishLong_hbm (s : State) (i status : Nat) (d0 d1 d2 d3 : W32) :
    (s.finishLong i status d0 d1 d2 d3).hbm = s.hbm := by
  rw [s.finishLong_host]

/-- A long command that ends leaves its record and frees its handle. -/
theorem State.finishLong_ended {l : Long} (hl : s.longAt l.idx = some l) (status : Nat) (d0 d1 d2 d3 : W32) :
    Ended s (s.finishLong l.idx status d0 d1 d2 d3) l (s.finalCeq l.q l.sid) status d0 d1 d2 d3 := by
  simp only [State.finishLong, State.finishOn, hl]
  exact ⟨rfl, rfl, rfl⟩

/-! ## REGION_SET_DRAINED (R156) -/

theorem State.rgnSettle_noSets (n k : Nat) (h : s.hbm.sets = []) : s.rgnSettle n k = s := by
  cases k with
  | zero => rfl
  | succ k => simp [State.rgnSettle, h]

/-- A replacement that acts, alone, ends once every unit of its entry is of the new one. -/
theorem State.rgnSettle_ends {n k : Nat} {x : RgnSet} (hsets : s.hbm.sets = [x]) (hn : x.n = n) (hlive : x.live = true)
    (hdrained : ∀ u ∈ s.unitsIn n, u.gen = s.rgnGen n) :
    s.rgnSettle n (k + 1) = (s.updHbm fun h => { h with sets := [] }).doneLong x.hnd := by
  have hall : ((s.unitsIn n).all fun u => u.gen == s.rgnGen n) = true := by simpa using hdrained
  have hgone : s.updHbm (fun h => { h with sets := h.sets.erase x }) = s.updHbm fun h => { h with sets := [] } := by
    simp [State.updHbm, hsets]
  have hfind : s.hbm.sets.find? (fun x => x.n == n) = some x := by simp [hsets, hn]
  simp only [State.rgnSettle, hfind, hlive, hall, hgone, if_true]
  exact State.rgnSettle_noSets n k (congrArg Hbm.sets (State.finishLong_hbm ..))

end

/-- Settles O15: under each clause's hypotheses the command's condition holds (`when_next`); a slice without a fault leaves
`State.sliceReleased`, and a replacement whose old units are complete ends its command (`State.rgnSettle_ends`). -/
theorem deviceMemoryIsMaintained : Obligations.DeviceMemoryIsMaintained := by
  refine ⟨?writeback, ?scrub, ?refresh, ?sensor, ?start, ?finish, ?drained⟩
  case writeback => exact fun s st so cyc i x hst hi hx hm hw => execHbmMaintWriteback_performs hst hi hx hm hw
  case scrub => exact fun s st cyc hst hrun hon hdue hheld => execHbmPatrolScrub_asks hst hrun hon hdue hheld
  case refresh => exact fun s st bank hst hrun => (unit_of_lt hst).trans (when_next hrun)
  case sensor => exact fun s st temp hst => unit_of_lt hst
  case start =>
    exact fun s st pc row ms faults spare e hst hpc hrun hnone hms hturn => execHbmSelftestSlice_starts hst hpc hrun hnone hms hturn
  case finish =>
    intro s st pc row ms bg r ref spare e hst hpc hslice hmarked
    have hrun := execHbmSelftestSlice_ends (row := row) (ms := ms) (faults := 0) (ref := ref) (spare := spare) (e := e) hst hpc hslice
    rw [State.sliceEnd_noFault hmarked] at hrun
    exact ⟨_, hrun, tget_tput_same .., rfl, rfl, rfl, rfl, rfl⟩
  case drained =>
    intro s n x l hn hsets hxn hlive hdrained hl hi
    rw [← hi] at hl
    have hends := State.rgnSettle_ends (k := 1) hsets hxn hlive hdrained
    rw [← hi] at hends
    have hrun : execRegionSetDrained n s = .next ((s.updHbm fun h => { h with sets := [] }).doneLong l.idx) := by
      rw [execRegionSetDrained, unit_of_lt hn, hsets]
      exact congrArg _ hends
    refine ⟨_, hrun, ?_, ?_, ?_, ?_⟩
    · rw [State.doneLong, State.finishLong_hbm]
      rfl
    · rw [State.doneLong, State.finishLong_hbm]
      rfl
    · exact State.finishLong_ended (s := s.updHbm fun h => { h with sets := [] }) hl 2 _ _ _ _
    · rw [State.doneLong, State.finishLong_host]
      rfl

end Sys2Proof.Machine
end

section
/-! PROOFS. The rules of QCP group 0x01 on a command that meets their conditions (06 R155, R156, R164, R168, 07 R181, 12 R331, R348, R349,
R351), and O40. -/

namespace Sys2Proof.Machine

section
variable {s a : State} {c : Cmd} {i : Nat}

/-! ## Regions, regulators, the aperture -/

theorem runRegionSet_accepts (h2 : c.only 2 0x3F = true) (h3 : c.only 3 0xFFF00FFF = true) (h4 : c.only 4 0x7FFF3FFF = true)
    (h5 : c.only 5 0xFFF = true) (h6 : c.only 6 0xFFFF = true) (h7 : c.zero 7 = true) (hok : s.regionOk (c.f 2 5 0) c.region = true)
    (ha : Accepts s c i a) : runRegionSet c s = (a.updHbm fun h =>
      { h with sets := h.sets ++ [{ n := c.f 2 5 0, hnd := i, ent := c.region, live := false }] }).rgnSettle (c.f 2 5 0) 3 := by
  have hwords : ¬(!c.only 2 0x3F ∨ !c.only 3 0xFFF00FFF ∨ !c.only 4 0x7FFF3FFF ∨ !c.only 5 0xFFF ∨ !c.only 6 0xFFFF ∨ !c.zero 7) := by
    simp [h2, h3, h4, h5, h6, h7]
  simp only [runRegionSet, if_neg hwords, hok, Bool.not_true, Bool.false_eq_true, and_false, if_false]
  exact accepted_runs _ ha

section
variable (h2 : c.only 2 0x30F = true) (h4 : c.only 4 1 = true) (h5 : c.only 5 0xFF = true) (h6 : c.zero 6 = true)
include h2 h4 h5 h6

theorem runMemConfig_sets (hrg : c.bit 2 8 = true) (hsc : c.bit 2 9 = false) (hd : c.f 3 15 0 ≠ 0) :
    runMemConfig c s = ((s.regFill (c.f 2 3 0) s.hbmCycle).updGrp (c.f 2 3 0) fun k => { k with
      rate := c.f 3 31 16, depth := c.f 3 15 0, borrow := c.bit 4 0, level := min k.level (c.f 3 15 0 * 1024 * 5) }).ok c := by
  simp [runMemConfig, h2, h4, h5, h6, hrg, hsc, hd]

theorem runMemConfig_scrubs (hrg : c.bit 2 8 = false) (hsc : c.bit 2 9 = true) (hh : c.f 5 7 0 ≤ 168) :
    runMemConfig c s = (s.updHbm fun h => { h with scrubH := if c.f 5 7 0 = 0 then 24 else c.f 5 7 0 }).ok c := by
  simp [runMemConfig, h2, h4, h5, h6, hrg, hsc, hh]

end

theorem runApertureSet_moves (h4 : c.zero 4 = true) (ha : c.addrOk 2 = true) (hm : c.dw 2 % 2 ^ s.host.b4log2 = 0) :
    runApertureSet c s = (s.updHost fun h => { h with b4base := c.dw 2 }).ok c := by
  simp [runApertureSet, h4, ha, hm]

/-! ## Copies -/

/-- The copy is not closed by a replay (R322). -/
theorem notReplayed (h : (s.det.replay && s.intoJob c) = false) : ¬(s.det.replay = true ∧ s.intoJob c = true) := by
  simpa using h

section
variable (hd : c.dmaOk = true) (ha : Accepts s c i a)
include hd ha

theorem runDmaH2d_accepts (h4 : c.rangeOk 4 = true) (hopen : (s.det.replay && s.intoJob c) = false) :
    (c.dw 6 = 0 → runDmaH2d c s = a.doneLong i) ∧
    (c.dw 6 ≠ 0 → runDmaH2d c s = (a.updHost fun h => { h with
      reads := h.reads ++ [{ tag := h.nextTag, use := 1, q := i, addr := c.dw 2, len := c.dw 6, dst := c.dw 4 }]
      nextTag := h.nextTag + 1 }).emit (.hostRead a.host.nextTag (c.dw 2) (c.dw 6))) := by
  simp only [runDmaH2d, hd, h4, notReplayed hopen, Bool.not_true, Bool.false_eq_true, or_self, if_false, accepted_runs _ ha]
  exact ⟨fun h0 => if_pos h0, fun h0 => if_neg h0⟩

theorem runDmaD2h_moves {r : State × Option Nat} (h2 : c.rangeOk 2 = true)
    (hr : r = a.moveParts (c.f 8 3 0) (c.dw 2) (c.dw 6)
      (fun a o b => (if b.isEmpty then a else a.emit (.hostWrite (c.dw 4 + o) b), none))) :
    runDmaD2h c s = r.1.endCopy i c none r.2 := by
  subst hr
  simp only [runDmaD2h, hd, h2, Bool.not_true, Bool.false_eq_true, or_self, if_false, accepted_runs _ ha]

theorem runDmaD2d_moves {r : State × Option Nat} {t : State} {x : State × List Byte × List Bool × Option Nat}
    (h2 : c.rangeOk 2 = true) (h4 : c.rangeOk 4 = true) (hopen : (s.det.replay && s.intoJob c) = false)
    (hr : r = a.moveParts (c.f 8 3 0) (c.dw 2) (c.dw 6)
      (fun b o x => b.putParts (c.f 8 3 0) (c.dw 4 + o) (freeOverlap (c.dw 2) (c.dw 4) (c.dw 6) a.free o x)))
    (ht : t = if meets (c.dw 2) (c.dw 6) (c.dw 4) (c.dw 6) then { r.1 with free := r.1.free + c.dw 6 } else r.1)
    (hx : x = t.memRead .hub 0 (c.dw 4) (if t.intoJob c ∧ r.2.isNone then c.dw 6 else 0)) :
    runDmaD2d c s = t.endCopy i c (some x.2.1) r.2 := by
  subst hx ht hr
  simp only [runDmaD2d, hd, h2, h4, notReplayed hopen, Bool.not_true, Bool.false_eq_true, or_self, if_false, accepted_runs _ ha]

theorem runMemFill_fills (h4 : c.rangeOk 4 = true) (hopen : (s.det.replay && s.intoJob c) = false) :
    runMemFill c s = (a.putParts (c.f 8 3 0) (c.dw 4) (c.pattern (c.dw 6))).1.endCopy i c (some (c.pattern (c.dw 6)))
      (a.putParts (c.f 8 3 0) (c.dw 4) (c.pattern (c.dw 6))).2 := by
  simp only [runMemFill, hd, h4, notReplayed hopen, Bool.not_true, Bool.false_eq_true, or_self, if_false, accepted_runs _ ha]

end

theorem State.endCopy_fails (s : State) (i : Nat) (c : Cmd) (b : Option (List Byte)) (f : Nat) :
    s.endCopy i c b (some f) = s.endMemError i f := rfl

theorem State.endCopy_outside (h : s.intoJob c = false) (b : Option (List Byte)) : s.endCopy i c b none = s.doneLong i := by
  cases b <;> simp [State.endCopy, h]

/-- A copy that wrote the job's regions is an input (R319). -/
theorem State.endCopy_input {b : List Byte} (h : s.intoJob c = true) (hb : b ≠ []) :
    s.endCopy i c (some b) none = (s.addInput 2 (c.n 1) 0 (c.dw 4) b).doneLong i := by
  simp [State.endCopy, h, hb]

/-! ## Memory windows (R181, R351) -/

theorem runWindowSet_installs {n : Nat} {w : Window} (hw : parseWindow (wordsBytes ((from_ 2 8).map c.w)) = some (n, w))
    (h10 : c.zero 10 = true) :
    runWindowSet c s = (s.updFab fun f => { f with cur := { f.cur with wins := tput f.cur.wins n w } }).ok c := by
  simp [runWindowSet, hw, h10]

theorem runWindowClear_removes (h2 : c.only 2 0x3FF = true) (h3 : c.zero 3 = true) :
    runWindowClear c s = (s.updFab fun f => { f with cur := { f.cur with wins := tdel f.cur.wins c.windowNo } }).ok c := by
  simp [runWindowClear, h2, h3]

end

/-- A window command that passes its frame waits where its window is in use. -/
theorem State.windowWaits_eq {s : State} {c : Cmd} {o : Nat} (h : Passes s c o) (ho : o = 0x0120 ∨ o = 0x0121) :
    s.windowWaits c = s.windowBusy c.windowNo := by
  obtain ⟨-, hopc, -, -, hrefusal⟩ := h
  rcases ho with rfl | rfl <;> simp [State.windowWaits, hopc, hrefusal]

/-- A row of a window command: it waits, or runs as any QCP row. -/
theorem windowRow_runs {s t : State} {o q : Nat} {d : Desc} {i : Instr} {run : Cmd → State → State}
    (hrow : exec i s = if s.windowWaits { q := q, d := d, hd := 0 } then unit q 8192 (.next s) else qcpRow o q d s run)
    (h : Passes s (cmdOf s q d) o) (ho : o = 0x0120 ∨ o = 0x0121) (hrun : run (cmdOf s q d) s = t) :
    (s.windowBusy (cmdOf s q d).windowNo = false → Runs i s t) ∧ (s.windowBusy (cmdOf s q d).windowNo = true → Runs i s s) := by
  have hwaits : s.windowWaits { q := q, d := d, hd := 0 } = s.windowBusy (cmdOf s q d).windowNo := State.windowWaits_eq h ho
  rw [hwaits] at hrow
  constructor
  · intro hb
    exact Runs.of_passes (hrow.trans (if_neg (by simp [hb]))) h hrun
  · intro hb
    exact hrow.trans ((if_pos hb).trans (unit_of_lt h.1))

/-- Settles O40: each command of group 0x01 that passes its frame is its rule's effect (`Runs.of_passes`), with its handle given; a window
command waits instead while its window is in use (`windowRow_runs`). -/
theorem memoryCommandsComplete : Obligations.MemoryCommandsComplete := by
  refine ⟨?commands, ?ends, fun s i c b => State.endCopy_input⟩
  case commands =>
    rintro s q _ d _ rfl rfl
    refine ⟨?regionSet, ?memConfig, ?aperture, ?h2d, ?d2h, ?d2d, ?fill, ?windowSet, ?windowClear⟩
    case regionSet =>
      exact fun i a h h2 h3 h4 h5 h6 h7 hok ha => .of_passes rfl h (runRegionSet_accepts h2 h3 h4 h5 h6 h7 hok ha)
    case memConfig =>
      exact fun h h2 h4 h5 h6 => ⟨fun hrg hsc hd => .of_passes rfl h (runMemConfig_sets h2 h4 h5 h6 hrg hsc hd),
        fun hrg hsc hh => .of_passes rfl h (runMemConfig_scrubs h2 h4 h5 h6 hrg hsc hh)⟩
    case aperture => exact fun h h4 ha hm => .of_passes rfl h (runApertureSet_moves h4 ha hm)
    case h2d =>
      intro i a h hd h4 hopen ha
      obtain ⟨hnone, hsome⟩ := runDmaH2d_accepts hd ha h4 hopen
      exact ⟨fun h0 => .of_passes rfl h (hnone h0), fun h0 => .of_passes rfl h (hsome h0)⟩
    case d2h => exact fun i a r h hd h2 ha hr => .of_passes rfl h (runDmaD2h_moves hd ha h2 hr)
    case d2d =>
      exact fun i a r t x h hd h2 h4 hopen ha hr ht hx => .of_passes rfl h (runDmaD2d_moves hd ha h2 h4 hopen hr ht hx)
    case fill =>
      rintro i a _ h hd h4 hopen ha rfl
      exact .of_passes rfl h (runMemFill_fills hd ha h4 hopen)
    case windowSet => exact fun n w h hw h10 => windowRow_runs rfl h (.inl rfl) (runWindowSet_installs hw h10)
    case windowClear => exact fun h h2 h3 => windowRow_runs rfl h (.inr rfl) (runWindowClear_removes h2 h3)
  case ends =>
    exact fun s i f c b => ⟨s.endCopy_fails i c b f, fun h => State.endCopy_outside h b, rfl⟩

end Sys2Proof.Machine
end

section
/-! PROOFS. Cells and their frames as bytes (07 R179, R185, Table 7-2), and O16. -/

namespace Sys2Proof.Machine

/-! ## Fields of a structure in memory (R10) -/

/-- A field that begins a structure is the number whose bytes stand there. -/
theorem fieldLe_natLe_append (x n : Nat) (t : List Byte) : fieldLe (natLe x n ++ t) 0 n = x % 2 ^ (8 * n) := by
  rw [fieldLe, List.drop_zero, List.take_left' (natLe_length x n), leNat_natLe]

/-- A field that lies behind `a` is a field of what follows `a`. -/
theorem fieldLe_append {a : List Byte} {k : Nat} (t : List Byte) (o n : Nat) (h : a.length = k) : fieldLe (a ++ t) (k + o) n = fieldLe t o n := by
  rw [fieldLe, List.drop_append, h, List.drop_eq_nil_of_le (by omega), List.nil_append, Nat.add_sub_cancel_left, fieldLe]

/-! ## Cells (Table 7-2) -/

/-- The fields of a cell lie in the widths of Table 7-2, no reserved bit is set, and LEN is the number of its payload bytes, at most 240. -/
structure Cell.Fits (c : Cell) : Prop where
  src : c.src < 65536
  dest : c.dest < 65536
  typ : c.typ < 256
  gen : c.gen < 4
  epoch : c.epoch < 4
  vc : c.vc < 16
  qtag : c.qtag < 65536
  flags : c.flags.toNat < 32
  len : c.len = c.payload.length
  payload : c.payload.length ≤ 240
  part : c.part < 4096
  msgoff : c.msgoff < 2 ^ 24
  rsv : c.rsv = false

/-- Words 0 to 2 of a cell's header; word 3 is MSGOFF. -/
def Cell.word0 (c : Cell) : Nat := c.src * 65536 + c.dest
def Cell.word1 (c : Cell) : Nat := c.typ * 2 ^ 24 + c.gen * 2 ^ 22 + c.epoch * 2 ^ 20 + c.vc * 65536 + c.qtag
def Cell.word2 (c : Cell) : Nat := c.flags.toNat * 2 ^ 20 + c.len * 2 ^ 12 + c.part

/-- The 240 bytes behind a cell's header: its payload and zeros. -/
def Cell.body (c : Cell) : List Byte := c.payload ++ List.replicate (240 - c.payload.length) 0#8

section
variable {c : Cell} (h : c.Fits)
include h

theorem Cell.Fits.len_lt : c.len < 256 := by
  have := h.payload
  rw [h.len]
  omega

theorem Cell.Fits.word_lt : c.word0 < 2 ^ 32 ∧ c.word1 < 2 ^ 32 ∧ c.word2 < 2 ^ 25 := by
  have hlen := h.len_lt
  obtain ⟨hsrc, hdest, htyp, hgen, hepoch, hvc, hqtag, hflags, -, -, hpart, -, -⟩ := h
  simp only [Cell.word0, Cell.word1, Cell.word2]
  omega

/-- The bytes of a cell are its header's four words and its body. -/
theorem Cell.Fits.bytes_eq : c.bytes = natLe c.word0 4 ++ (natLe c.word1 4 ++ (natLe c.word2 4 ++ (natLe c.msgoff 4 ++ c.body))) := by
  have hbody : (c.payload ++ List.replicate 240 0#8).take 240 = c.body := by
    rw [List.take_append, List.take_of_length_le h.payload, List.take_replicate, Nat.min_eq_left (Nat.sub_le _ _)]
    rfl
  simp only [Cell.bytes, Cell.word0, Cell.word1, Cell.word2, hbody, Nat.mod_eq_of_lt h.src, Nat.mod_eq_of_lt h.dest, Nat.mod_eq_of_lt h.typ,
    Nat.mod_eq_of_lt h.gen, Nat.mod_eq_of_lt h.epoch, Nat.mod_eq_of_lt h.vc, Nat.mod_eq_of_lt h.qtag, Nat.mod_eq_of_lt h.len_lt,
    Nat.mod_eq_of_lt h.part, Nat.mod_eq_of_lt h.msgoff, List.append_assoc]

/-- The header's words, read where a cell's bytes begin. -/
theorem Cell.Fits.words (t : List Byte) : fieldLe (c.bytes ++ t) 0 4 = c.word0 ∧ fieldLe (c.bytes ++ t) 4 4 = c.word1 ∧
    fieldLe (c.bytes ++ t) 8 4 = c.word2 ∧ fieldLe (c.bytes ++ t) 12 4 = c.msgoff := by
  obtain ⟨h0, h1, h2⟩ := h.word_lt
  have h3 := h.msgoff
  have hlen (x : Nat) : (natLe x 4).length = 4 := natLe_length x 4
  simp only [h.bytes_eq, List.append_assoc]
  refine ⟨?_, ?_, ?_, ?_⟩
  · rw [fieldLe_natLe_append, Nat.mod_eq_of_lt h0]
  · rw [fieldLe_append _ 0 4 (hlen _), fieldLe_natLe_append, Nat.mod_eq_of_lt h1]
  · rw [fieldLe_append _ 4 4 (hlen _), fieldLe_append _ 0 4 (hlen _), fieldLe_natLe_append, Nat.mod_eq_of_lt (by omega)]
  · rw [fieldLe_append _ 8 4 (hlen _), fieldLe_append _ 4 4 (hlen _), fieldLe_append _ 0 4 (hlen _), fieldLe_natLe_append,
      Nat.mod_eq_of_lt (by omega)]

/-- The fields of the header's words. -/
theorem Cell.Fits.word0_fields : c.word0 / 65536 = c.src ∧ c.word0 % 65536 = c.dest := by
  have := h.dest
  simp only [Cell.word0]
  omega

theorem Cell.Fits.word1_fields : c.word1 / 2 ^ 24 = c.typ ∧ c.word1 / 2 ^ 22 % 4 = c.gen ∧ c.word1 / 2 ^ 20 % 4 = c.epoch ∧
    c.word1 / 65536 % 16 = c.vc ∧ c.word1 % 65536 = c.qtag := by
  obtain ⟨-, -, -, hgen, hepoch, hvc, hqtag, -, -, -, -, -, -⟩ := h
  simp only [Cell.word1]
  omega

theorem Cell.Fits.word2_fields : c.word2 / 2 ^ 20 = c.flags.toNat ∧ c.word2 / 2 ^ 12 % 256 = c.len ∧ c.word2 % 4096 = c.part ∧
    c.word2 / 2 ^ 28 = 0 ∧ c.word2 / 2 ^ 25 = 0 := by
  have hlen := h.len_lt
  obtain ⟨-, -, -, -, -, -, -, hflags, -, -, hpart, -, -⟩ := h
  simp only [Cell.word2]
  omega

/-- Behind the header stands the body. -/
theorem Cell.Fits.drop_header (t : List Byte) : (c.bytes ++ t).drop 16 = c.body ++ t := by
  have hhead : (natLe c.word0 4 ++ (natLe c.word1 4 ++ (natLe c.word2 4 ++ natLe c.msgoff 4))).length = 16 := by
    simp only [List.length_append, natLe_length]
  rw [← List.drop_left' (l₂ := c.body ++ t) hhead, h.bytes_eq]
  simp only [List.append_assoc]

theorem Cell.Fits.payload_eq (t : List Byte) : ((c.bytes ++ t).drop 16).take c.len = c.payload := by
  rw [h.drop_header, Cell.body, List.append_assoc, List.take_left' h.len.symm]

/-- Behind the payload a cell's bytes are zeros. -/
theorem Cell.Fits.padding (t : List Byte) : (((c.bytes ++ t).take 256).drop (16 + c.len)).any (· != 0#8) = false := by
  have hdrop := h.drop_header []
  rw [List.append_nil, List.append_nil] at hdrop
  rw [List.take_left' c.bytes_length, ← List.drop_drop, hdrop, Cell.body, List.drop_left' h.len.symm]
  simp

/-- Whatever follows a cell's bytes, they read back as the cell. -/
theorem Cell.Fits.cellOf_bytes_append (t : List Byte) : cellOf (c.bytes ++ t) = c := by
  obtain ⟨h0, h1, h2, h3⟩ := h.words t
  obtain ⟨hsrc, hdest⟩ := h.word0_fields
  obtain ⟨htyp, hgen, hepoch, hvc, hqtag⟩ := h.word1_fields
  obtain ⟨hflags, hlen, hpart, hw28, hw25⟩ := h.word2_fields
  have hmsgoff : c.msgoff / 2 ^ 24 = 0 := Nat.div_eq_of_lt h.msgoff
  have hrsv : (c.word2 / 2 ^ 28 != 0 || c.msgoff / 2 ^ 24 != 0 || decide (c.word2 / 2 ^ 25 % 8 ≠ 0)) = false := by
    rw [hw28, hw25, hmsgoff]
    rfl
  simp only [cellOf, h0, h1, h2, h3, hsrc, hdest, htyp, hgen, hepoch, hvc, hqtag, hflags, hlen, hpart, Nat.mod_eq_of_lt h.msgoff, h.payload_eq,
    hrsv, h.padding, Bool.or_false]
  rw [BitVec.ofNat_toNat, BitVec.setWidth_eq, ← h.rsv]

theorem Cell.Fits.cellOf_bytes : cellOf c.bytes = c := by
  simpa using h.cellOf_bytes_append []

end

/-! ## Frames (R185) -/

theorem frameBytes_eq (c : Cell) (seq ack : Nat) : ∃ crc, frameBytes c seq ack =
    c.bytes ++ (natLe (seq % 65536) 2 ++ (natLe (ack % 65536) 2 ++ natLe crc 4)) := by
  simp only [frameBytes, List.append_assoc]
  exact ⟨_, rfl⟩

theorem frameBytes_seq (c : Cell) {seq : Nat} (ack : Nat) (hseq : seq < 65536) : fieldLe (frameBytes c seq ack) 256 2 = seq := by
  obtain ⟨crc, hframe⟩ := frameBytes_eq c seq ack
  rw [hframe, fieldLe_append _ 0 2 c.bytes_length, fieldLe_natLe_append]
  omega

theorem frameBytes_ack (c : Cell) (seq : Nat) {ack : Nat} (hack : ack < 65536) : fieldLe (frameBytes c seq ack) 258 2 = ack := by
  obtain ⟨crc, hframe⟩ := frameBytes_eq c seq ack
  rw [hframe, fieldLe_append _ 2 2 c.bytes_length, fieldLe_append _ 0 2 (natLe_length _ 2), fieldLe_natLe_append]
  omega

/-- Settles O16: a cell's bytes read back as the cell whatever follows them (`Cell.Fits.cellOf_bytes_append`), and SEQ, ACK and the CRC are
what follows them in a frame. -/
theorem cellsSurviveTheirFrame : Obligations.CellsSurviveTheirFrame := by
  intro c seq ack hsrc hdest htyp hgen hepoch hvc hqtag hflags hlen hpayload hpart hmsgoff hrsv hseq hack
  have h : c.Fits := ⟨hsrc, hdest, htyp, hgen, hepoch, hvc, hqtag, hflags, hlen, hpayload, hpart, hmsgoff, hrsv⟩
  obtain ⟨crc, hframe⟩ := frameBytes_eq c seq ack
  refine ⟨c.bytes_length, h.cellOf_bytes, ?length, ?cell, frameGood_frameBytes c seq ack, frameBytes_seq c ack hseq, frameBytes_ack c seq hack⟩
  case length => simp [hframe]
  case cell => rw [hframe, h.cellOf_bytes_append]

end Sys2Proof.Machine
end

section
/-! PROOFS. Cells injected and frames that leave a LID (07 R180, R185 to R187, R190 to R195, R201, R207, R208, 13 R361), and O17. -/

namespace Sys2Proof.Machine

/-! ## Injection (R180, R201) -/

section
variable {s : State} {x : InjReq}

theorem State.mayForm_of (hfence : s.fencedPart x.part = false) (hpart : x.part ≠ 0 ∨ vcClassOf x.vc = 5) (hvc : x.vc < 14)
    (hlen : x.payload.length ≤ 240) (htyp : typClass x.typ = some (vcClassOf x.vc)) : s.mayForm x = true := by
  simpa [State.mayForm, hfence, hvc, hlen, htyp] using hpart

/-- A cell of a partition under no fence is formed, counted and routed. -/
theorem State.inject_unfenced {part : Nat} (hfence : s.fencedPart part = false) (dest typ vc qtag : Nat) (flags : Byte) (off : Nat)
    (payload : List Byte) : s.inject dest typ vc qtag flags part off payload =
      (s.countInj s.fab.curEp).routeCell 127 (s.form dest typ vc qtag flags part off payload) :=
  if_neg (by simp [hfence])

theorem execCellInject_routed (cyc : Nat) (hform : s.mayForm x = true) (hfence : s.fencedPart x.part = false) (hvc : vcRouted x.vc = true) :
    execCellInject x cyc s = .next (((s.linkAt cyc).countInj s.fab.curEp).routeCell 127
      (s.form (s.l2p x.dest) x.typ (x.vc / 2 * 2) x.qtag x.flags x.part x.msgoff x.payload)) := by
  have hinject := State.inject_unfenced (s := s.linkAt cyc) hfence (s.l2p x.dest) x.typ (x.vc / 2 * 2) x.qtag x.flags x.msgoff x.payload
  simp only [execCellInject, hform, hvc, hinject, Bool.not_true, Bool.false_eq_true, if_false, if_true]
  rfl

theorem execCellInject_singleHop (cyc : Nat) (hform : s.mayForm x = true) (hvc : vcRouted x.vc = false) (hlid : x.lid < 96)
    (hup : (s.lid x.lid).st = .up) (hpart : s.fab.part ≠ 0) :
    execCellInject x cyc s = .next (((s.linkAt cyc).countInj s.fab.curEp).enqueue x.lid 0
      (s.form (s.lid x.lid).peer x.typ x.vc x.qtag x.flags s.fab.part x.msgoff x.payload)) := by
  simp only [execCellInject, hform, hvc, unit_of_lt hlid, Bool.not_true, Bool.false_eq_true, if_false]
  exact when_next (by simp [hup, hpart])

end

/-- Only what an update makes of the LID as it stands counts. -/
theorem State.updLid_congr {s : State} {l : Nat} {f g : Lid → Lid} (h : f (s.lid l) = g (s.lid l)) : s.updLid l f = s.updLid l g :=
  congrArg (fun k => s.updFab fun b => { b with lids := tput b.lids l k }) h

/-! ## FRAME_SEND (R185, R187, R191, R361) -/

section
variable {s : State} {l : Nat}

theorem Lid.carries_of_up {k : Lid} (h : k.st = .up) : k.carries = true := by
  rw [Lid.carries, h]
  rfl

theorem execFrameSend_replays {cyc : Nat} {x : Nat × Cell} {q : List (Nat × Cell)} (hl : l < 96) (hc : (s.lid l).carries = true)
    (hreplay : (s.lid l).replay = x :: q) (hdue : (s.lid l).due = false) : execFrameSend l cyc s =
      .next ((s.updLid l fun k => { k with replay := q }).emitData l x.2 x.1 ((s.lid l).shrSeqs.contains x.1)) := by
  simp only [execFrameSend, unit_of_lt hl, hreplay, hdue]
  exact when_next hc

section
variable {cyc : Nat} (hl : l < 96) (hc : (s.lid l).carries = true) (hreplay : (s.lid l).replay = [])
include hl hc hreplay

/-- Without a frame to replay, the arbiter's choice goes in a cycle that the LINK level permits; without a choice the slot passes idle. -/
theorem execFrameSend_some {p : Nat × Nat} (hpick : s.dataPick l = some p) : execFrameSend l cyc s =
    .next (if cyclePermitted (s.gate (32 + (s.lid l).port)).eff cyc then s.sendData l p.1 p.2
      else s.frameSlot (s.lid l).port (s.lid l).nextLine) := by
  simp only [execFrameSend, unit_of_lt hl, hreplay, hpick]
  exact when_next hc

theorem execFrameSend_none (hpick : s.dataPick l = none) :
    execFrameSend l cyc s = .next (s.frameSlot (s.lid l).port (s.lid l).nextLine) := by
  simp only [execFrameSend, unit_of_lt hl, hreplay, hpick]
  exact when_next hc

end

theorem State.dataPick_eq_pick (hup : (s.lid l).st = .up) (hroom : (s.lid l).retry.length < (s.lid l).window)
    (hlevel : (s.gate (32 + (s.lid l).port)).eff ≠ 0) : s.dataPick l = (s.lid l).pick :=
  if_neg (by simp [hup, hroom, hlevel])

theorem State.dataPick_none (h : (s.lid l).pick = none ∨ (s.lid l).window ≤ (s.lid l).retry.length) : s.dataPick l = none := by
  rcases h with h | h
  · simp [State.dataPick, h]
  · exact if_pos (.inr (.inl h))

theorem execFrameSend_sends {cyc v n : Nat} (hl : l < 96) (hup : (s.lid l).st = .up) (hreplay : (s.lid l).replay = [])
    (hroom : (s.lid l).retry.length < (s.lid l).window) (hcyc : cyclePermitted (s.gate (32 + (s.lid l).port)).eff cyc = true)
    (hlevel : (s.gate (32 + (s.lid l).port)).eff ≠ 0) (hpick : (s.lid l).pick = some (v, n)) :
    execFrameSend l cyc s = .next (s.sendData l v n) := by
  have hchoice := (State.dataPick_eq_pick hup hroom hlevel).trans hpick
  rw [execFrameSend_some hl (Lid.carries_of_up hup) hreplay hchoice, if_pos hcyc]

theorem execFrameSend_idles {cyc : Nat} (hl : l < 96) (hup : (s.lid l).st = .up) (hreplay : (s.lid l).replay = [])
    (hidle : (s.lid l).pick = none ∨ (s.lid l).window ≤ (s.lid l).retry.length ∨
      cyclePermitted (s.gate (32 + (s.lid l).port)).eff cyc = false) :
    execFrameSend l cyc s = .next (s.frameSlot (s.lid l).port (s.lid l).nextLine) := by
  have hc := Lid.carries_of_up hup
  rcases or_assoc.2 hidle with hnone | hcyc
  · exact execFrameSend_none hl hc hreplay (State.dataPick_none hnone)
  · cases hpick : s.dataPick l with
    | none => exact execFrameSend_none hl hc hreplay hpick
    | some p => rw [execFrameSend_some hl hc hreplay hpick, if_neg (by simp [hcyc])]

/-! ## A new data frame (R190 to R193) -/

/-- A frame slot that passes changes the light and the connectors alone. -/
theorem State.frameSlot_fab (s : State) (p w : Nat) : (s.frameSlot p w).fab = s.fab := by
  unfold State.frameSlot
  split <;> rfl

/-- What has left the connectors stays so. -/
theorem State.mem_outs_frameSlot {o : Out} (p w : Nat) (h : o ∈ s.outs) : o ∈ (s.frameSlot p w).outs := by
  unfold State.frameSlot
  split
  · exact h
  · exact List.mem_append_left _ h

/-- The frame has left on the LID's next line, and of the LID only the index of lines and the lines of unacknowledged frames have changed. -/
theorem State.lid_emitData (s : State) (l : Nat) (c : Cell) (seq : Nat) (shared : Bool) : (s.emitData l c seq shared).lid l =
    { s.lid l with rr := ((s.lid l).nextLine + 1) % 17, lines := (s.lid l).lines ++ [(seq, (s.lid l).nextLine)] } := by
  have hlid : (s.emitFrame l c seq shared).lid l = s.lid l := by
    simp only [State.lid, State.emitFrame, State.frameSlot_fab, State.emit_fab]
  simp only [State.emitData, State.lid_updLid_same, hlid]

theorem State.frame_mem_outs_emitData (s : State) (l : Nat) (c : Cell) (seq : Nat) (shared : Bool) :
    Out.frame l (s.lid l).nextLine (frameBytes c seq (s.lid l).exp) shared ∈ (s.emitData l c seq shared).outs :=
  State.mem_outs_frameSlot _ _ (by simp)

/-- The LID as a data frame leaves it, of a cell injected here (requester 0) and for a shared credit. -/
def Lid.sent (k : Lid) (v n : Nat) (e : Nat × Nat × Cell) : Lid :=
  { k with
    outq := k.outq.erase e, visit := (v, n), retry := k.retry ++ [(k.seq, e.2.2)], seq := (k.seq + 1) % 65536
    vcRot := if k.outq.any (fun x => x.2.2.vc == v && x.1 == e.1 && x.2.1 != 0) then tput k.vcRot v 1 else k.vcRot
    shrSeqs := k.shrSeqs ++ [k.seq], shared := k.shared - 1 }

theorem State.sendData_shared {v n : Nat} {e : Nat × Nat × Cell} (hhead : (s.lid l).head v = some e) (hown : e.2.1 = 0)
    (hvc : vcRouted v = true) (hshared : 0 < (s.lid l).shared) :
    s.sendData l v n = (s.updLid l fun k => k.sent v n e).emitData l e.2.2 (s.lid l).seq true := by
  simp only [State.sendData, hhead, hown, hvc, hshared, decide_true, Bool.and_self, if_true]
  exact congrArg (State.emitData · l e.2.2 (s.lid l).seq true) (State.updLid_congr rfl)

end

/-! ## Control frames, timeouts, mask reports (R186, R187, R193 to R195) -/

section
variable {s : State} {l : Nat}

theorem execControlFrameSend_sends (hl : l < 96) (hc : (s.lid l).carries = true) (hdue : (s.lid l).due = true)
    (hgo : (s.lid l).replay ≠ [] ∨ s.dataPick l = none) : execControlFrameSend l s = .next (s.sendCtlFrame l) := by
  simp only [execControlFrameSend, unit_of_lt hl]
  exact when_next (by simpa [hc, hdue] using hgo)

theorem execControlFrameDue_sends {us : Nat} (hl : l < 96) (hc : (s.lid l).carries = true) (hdue : (s.lid l).due = true) (hus : 2 ≤ us) :
    execControlFrameDue l us s = .next (s.sendCtlFrame l) := by
  simp only [execControlFrameDue, unit_of_lt hl]
  exact when_next (by simp [hc, hdue, hus])

theorem execRetryTimeout_replays {us : Nat} (hl : l < 96) (hc : (s.lid l).carries = true) (hretry : (s.lid l).retry ≠ []) (hus : 16 ≤ us) :
    execRetryTimeout l us s = .next (s.startReplay l (s.lid l).retry) := by
  simp only [execRetryTimeout, unit_of_lt hl]
  exact when_next (by simp [hc, hretry, hus])

theorem execMaskChangeReport_reports {m : BitVec 17} (hl : l < 96) (hc : (s.lid l).carries = true) (hmask : (s.lid l).newMask = some m)
    (hleft : (s.lid l).left m = true) :
    execMaskChangeReport l s = .next ((s.updLid l fun k => { k with repMask := m }).sendCtlFrame l) := by
  simp only [execMaskChangeReport, unit_of_lt hl, hmask]
  exact when_next (by simp [hc, hleft])

/-- Seven replays in a row without ACK advance leave a LID up; the eighth is one too many (R194). -/
theorem State.startReplay_lt {frames : List (Nat × Cell)} (h : (s.lid l).replays < 7) : s.startReplay l frames =
    s.updLid l fun k => { k with replay := frames, replays := k.replays + 1, replayCnt := satAdd 8 k.replayCnt 1 } :=
  if_neg (by omega)

theorem State.startReplay_ge {frames : List (Nat × Cell)} (h : 7 ≤ (s.lid l).replays) : s.startReplay l frames =
    (s.updLid l fun k => { k with replay := frames, replays := k.replays + 1, replayCnt := satAdd 8 k.replayCnt 1 }).lidReplayLimit l :=
  if_pos (by omega)

end

/-- Settles O17: under each clause's hypotheses its command's condition holds (`when_next`); what a new data frame leaves in its LID is
`Lid.sent` (`State.sendData_shared`) and what its emission adds (`State.lid_emitData`). -/
theorem framesLeaveTheLid : Obligations.FramesLeaveTheLid := by
  refine ⟨?inject, ?replay, ?new, ?data, ?control, ?due, ?timeout, ?report⟩
  case inject =>
    intro s x cyc hfence hpart hvc hlen htyp
    have hform := State.mayForm_of hfence hpart hvc hlen htyp
    exact ⟨fun hrouted => execCellInject_routed cyc hform hfence hrouted,
      fun hsingle hlid hup hown => execCellInject_singleHop cyc hform hsingle hlid hup hown⟩
  case replay => exact fun s l cyc x q hl hc hreplay hdue => execFrameSend_replays hl hc hreplay hdue
  case new =>
    exact fun s l cyc hl hup hreplay => ⟨fun v n hroom hcyc hlevel hpick => execFrameSend_sends hl hup hreplay hroom hcyc hlevel hpick,
      fun hidle => execFrameSend_idles hl hup hreplay hidle⟩
  case data =>
    intro s l v n e hhead hown hvc hshared
    have hlid : (s.sendData l v n).lid l = _ :=
      (congrArg (State.lid · l) (State.sendData_shared hhead hown hvc hshared)).trans (State.lid_emitData ..)
    have hframe := State.frame_mem_outs_emitData (s.updLid l fun k => k.sent v n e) l e.2.2 (s.lid l).seq true
    rw [← State.sendData_shared hhead hown hvc hshared, State.lid_updLid_same] at hframe
    rw [State.lid_updLid_same] at hlid
    refine ⟨_, rfl, ?_, ?_, ?_, ?_, hframe⟩ <;> rw [hlid] <;> rfl
  case control => exact fun s l hl hc hdue hgo => execControlFrameSend_sends hl hc hdue hgo
  case due => exact fun s l us hl hc hdue hus => execControlFrameDue_sends hl hc hdue hus
  case timeout =>
    intro s l us hl hc hretry hus
    have hruns := execRetryTimeout_replays hl hc hretry hus
    exact ⟨_, rfl, fun h => hruns.trans (congrArg _ (State.startReplay_lt h)), fun h => hruns.trans (congrArg _ (State.startReplay_ge h))⟩
  case report => exact fun s l m hl hc hmask hleft => execMaskChangeReport_reports hl hc hmask hleft

end Sys2Proof.Machine
end

section
/-! PROOFS. Frames that arrive at a LID, its training and the ends of its fences (07 R183, R186, R189, R193 to R196, R206, R208, R212,
R442), and O18. -/

namespace Sys2Proof.Machine

/-! ## Entries of distinct keys, updated one after another -/

section
variable {α β : Type} {d : α} {f : Nat × β → α → α} {l : List (Nat × β)} {t : Tab α}

theorem tget_foldl_tupd_of_notMem {v : Nat} (h : v ∉ l.map (·.1)) : tget d (l.foldl (fun a x => tupd d a x.1 (f x)) t) v = tget d t v := by
  induction l generalizing t with
  | nil => rfl
  | cons x l ih =>
    rw [List.map_cons, List.mem_cons, not_or] at h
    rw [List.foldl_cons, ih h.2, tget_tupd, if_neg h.1]

theorem tget_foldl_tupd {x : Nat × β} (hl : (l.map (·.1)).Nodup) (hx : x ∈ l) :
    tget d (l.foldl (fun a x => tupd d a x.1 (f x)) t) x.1 = f x (tget d t x.1) := by
  induction l generalizing t with
  | nil => cases hx
  | cons y l ih =>
    rw [List.map_cons, List.nodup_cons] at hl
    rw [List.foldl_cons]
    rcases List.mem_cons.1 hx with rfl | hx
    · rw [tget_foldl_tupd_of_notMem hl.1, tget_tupd_same]
    · have hne : x.1 ≠ y.1 := fun h => hl.1 (h ▸ List.mem_map_of_mem hx)
      rw [ih hl.2 hx, tget_tupd, if_neg hne]

end

/-! ## Credits of a control frame (R186, R190) -/

/-- The CRD counts of a control frame's payload, by VC. -/
def crdCounts (p : List Byte) : List (Nat × W32) := (List.range 16).map fun v => (v, bytesWord ((p.drop (4 * v)).take 4))

theorem crdCounts_keys (p : List Byte) : (crdCounts p).map (·.1) = List.range 16 := by
  simp [crdCounts, Function.comp_def]

theorem mem_crdCounts (p : List Byte) {v : Nat} (hv : v < 16) : (v, bytesWord ((p.drop (4 * v)).take 4)) ∈ crdCounts p :=
  List.mem_map_of_mem (List.mem_range.2 hv)

theorem crdCounts_nodup (p : List Byte) : ((crdCounts p).map (·.1)).Nodup := by
  rw [crdCounts_keys]
  exact List.nodup_range

section
variable (k : Lid) (p : List Byte) {v : Nat} (hv : v < 16)
include hv

theorem Lid.tget_resv_takeCredits : tget 0 (k.takeCredits p).resv v =
    tget 0 k.resv v + gained (bytesWord ((p.drop (4 * v)).take 4)) (tget 0#32 k.crdIn v) := by
  have hfold : (k.takeCredits p).resv =
      (crdCounts p).foldl (fun a x => tupd 0 a x.1 (· + gained x.2 (tget 0#32 k.crdIn x.1))) k.resv := by
    simp only [Lid.takeCredits, crdCounts]
  rw [hfold]
  exact tget_foldl_tupd (x := (v, _)) (f := fun x n => n + gained x.2 (tget 0#32 k.crdIn x.1)) (crdCounts_nodup p) (mem_crdCounts p hv)

theorem Lid.tget_crdIn_takeCredits : tget 0#32 (k.takeCredits p).crdIn v = bytesWord ((p.drop (4 * v)).take 4) := by
  have hfold : (k.takeCredits p).crdIn = (crdCounts p).foldl (fun a x => tupd 0#32 a x.1 fun _ => x.2) k.crdIn := by
    simp only [Lid.takeCredits, tputAll, tupd, crdCounts]
  rw [hfold]
  exact tget_foldl_tupd (x := (v, _)) (f := fun x _ => x.2) (crdCounts_nodup p) (mem_crdCounts p hv)

end

/-! ## Data frames (R185, R193, R194, R219) -/

section
variable {s u : State} {l line : Nat} {bs : List Byte} {rd : LineRead}

/-- A line whose receiver found no uncorrectable codeword only keeps what it counted. -/
theorem State.lineRead_clean (s : State) (p w : Nat) (h : rd.unc = 0) :
    s.lineRead p w rd = s.updLine p w fun x => x.count rd.corr 0 rd.power := by
  simp [State.lineRead, h]

/-- The start and the count of the second in which one frame more is rejected for its CRC (R194). -/
def State.crcCount (s : State) (l : Nat) : Nat × Nat :=
  if (s.lid l).crcWin.2 = 0 ∨ s.now - (s.lid l).crcWin.1 > 1000000 then (s.now, 1) else ((s.lid l).crcWin.1, (s.lid l).crcWin.2 + 1)

theorem State.crcCount_le (h : (s.lid l).crcWin.2 < 8) : (s.crcCount l).2 ≤ 8 := by
  unfold State.crcCount
  split <;> omega

/-- Up to eight data frames rejected in a second cost a LID a NAK. -/
theorem State.badCrc_data (h : (s.lid l).crcWin.2 < 8) : s.badCrc l true = s.updLid l fun k =>
    { k with crcErr := satAdd 16 k.crcErr 1, crcWin := s.crcCount l, nak := true, due := k.due || !k.nak } := by
  have hbad : s.badCrc l true = s.updLid l fun k =>
      { k with crcErr := satAdd 16 k.crcErr 1, crcWin := s.crcCount l, nak := k.nak || true, due := k.due || (true && !k.nak) } :=
    if_neg (Nat.not_lt.2 (State.crcCount_le h))
  simpa only [Bool.or_true, Bool.true_and] using hbad

section
variable {cyc : Nat} (sh : Bool) (hl : l < 96) (hline : line < 17) (hlen : bs.length = 264)
  (hu : u = (s.linkAt cyc).lineRead (s.lid l).port line rd) (hst : (s.lid l).st ≠ .fenced) (hc : (u.lid l).carries = true)
  (hown : (u.line (s.lid l).port line).foreign_ = false)
include hl hline hlen hu hst hc hown

/-- A frame on a line that is not foreign, of a LID that carries frames, goes by its CRC and its SEQ. -/
theorem execFrameReceive_arrives : execFrameReceive l line cyc bs sh rd s =
    if !frameGood bs then .next (u.badCrc l true)
    else if fieldLe bs 256 2 = (s.lid l).exp then .next ((u.takeAck l (fieldLe bs 258 2)).accept l (cellOf bs) sh)
    else .next ((u.takeAck l (fieldLe bs 258 2)).updLid l fun k => { k with due := k.due || !k.nak, nak := true }) := by
  subst hu
  have hfence : ¬((s.lid l).st = .fenced ∧ (s.lid l).fenceCyc = some cyc) := fun h => hst h.1
  simp only [execFrameReceive, unit_of_lt hl, unit_of_lt hline, hlen, hfence, hc, hown, ne_eq, not_true, Bool.not_true, Bool.false_eq_true,
    if_false]

theorem execFrameReceive_inOrder (hgood : frameGood bs = true) (hseq : fieldLe bs 256 2 = (s.lid l).exp) :
    execFrameReceive l line cyc bs sh rd s = .next ((u.takeAck l (fieldLe bs 258 2)).accept l (cellOf bs) sh) := by
  rw [execFrameReceive_arrives sh hl hline hlen hu hst hc hown, if_neg (by simp [hgood]), if_pos hseq]

theorem execFrameReceive_outOfOrder (hgood : frameGood bs = true) (hseq : fieldLe bs 256 2 ≠ (s.lid l).exp) :
    execFrameReceive l line cyc bs sh rd s =
      .next ((u.takeAck l (fieldLe bs 258 2)).updLid l fun k => { k with due := k.due || !k.nak, nak := true }) := by
  rw [execFrameReceive_arrives sh hl hline hlen hu hst hc hown, if_neg (by simp [hgood]), if_neg hseq]

theorem execFrameReceive_badCrc (hbad : frameGood bs = false) :
    execFrameReceive l line cyc bs sh rd s = .next (u.badCrc l true) := by
  rw [execFrameReceive_arrives sh hl hline hlen hu hst hc hown, if_pos (by simp [hbad])]

end

/-- A well-formed cell of the LID's partition is routed once its frame is accepted (R193, R206). -/
theorem State.accept_routes {c : Cell} (sh : Bool) (hformat : cellFormatBad c = false) (hpart : s.partOk l c = true) :
    s.accept l c sh = (s.updLid l fun k => { k with
      exp := (k.exp + 1) % 65536, nak := false, due := k.due || k.nak, acc := tupd 0 k.acc c.epoch (satAdd 64 · 1)
      held := if vcRouted c.vc then k.held ++ [(c, sh)] else k.held }).routeCell l c := by
  have hpart' : (s.updLid l fun k => { k with
      exp := (k.exp + 1) % 65536, nak := false, due := k.due || k.nak, acc := tupd 0 k.acc c.epoch (satAdd 64 · 1)
      held := if vcRouted c.vc then k.held ++ [(c, sh)] else k.held }).partOk l c = true := by
    simp only [State.partOk, State.lid_updLid_same]
    exact hpart
  simp only [State.accept, hformat, hpart', Bool.not_true, Bool.false_eq_true, if_false]

/-! ## Control frames (R186) -/

/-- What a well-formed control frame gives its LID: credits, the peer's mask, and what its ACK acknowledges. -/
def State.controlTaken (u : State) (l p : Nat) (bs : List Byte) : State :=
  (u.updLid l fun k => (k.takeCredits (cellOf bs).payload).takeMask (BitVec.ofNat 17 (fieldLe (cellOf bs).payload 72 8)) (u.usable p)
    (nbit ((cellOf bs).payload.getD 70 0#8).toNat 1)).takeAck l (fieldLe bs 258 2)

section
variable {t : State} (hl : l < 96) (hline : line < 17) (hlen : bs.length = 264) (hu : u = s.lineRead (s.lid l).port line rd)
  (hc : (u.lid l).carries = true) (hown : (u.line (s.lid l).port line).foreign_ = false) (hgood : frameGood bs = true)
  (hcell : u.ctlBad (cellOf bs) = false) (ht : t = u.controlTaken l (s.lid l).port bs)
include hl hline hlen hu hc hown hgood hcell ht

theorem execControlFrameReceive_arrives : execControlFrameReceive l line bs rd s =
    if (t.lid l).target = 0#17 then .next (t.lidDown l)
    else if nbit ((cellOf bs).payload.getD 70 0#8).toNat 0 ∧ (t.lid l).replay.isEmpty ∧ !(t.lid l).retry.isEmpty then
      .next (t.startReplay l ((t.lid l).retry.dropWhile fun f => f.1 != fieldLe (cellOf bs).payload 68 2))
    else .next t := by
  subst hu ht
  simp only [execControlFrameReceive, unit_of_lt hl, unit_of_lt hline, hlen, hc, hown, hgood, hcell, ne_eq, not_true, Bool.not_true,
    Bool.false_eq_true, or_self, if_false]
  rfl

theorem execControlFrameReceive_noLine (h0 : (t.lid l).target = 0#17) : execControlFrameReceive l line bs rd s = .next (t.lidDown l) := by
  rw [execControlFrameReceive_arrives hl hline hlen hu hc hown hgood hcell ht, if_pos h0]

theorem execControlFrameReceive_noNak (h0 : (t.lid l).target ≠ 0#17) (hnak : nbit ((cellOf bs).payload.getD 70 0#8).toNat 0 = false) :
    execControlFrameReceive l line bs rd s = .next t := by
  rw [execControlFrameReceive_arrives hl hline hlen hu hc hown hgood hcell ht, if_neg h0,
    if_neg fun h => Bool.false_ne_true (hnak.symm.trans h.1)]

theorem execControlFrameReceive_nak (h0 : (t.lid l).target ≠ 0#17) (hnak : nbit ((cellOf bs).payload.getD 70 0#8).toNat 0 = true)
    (hreplay : (t.lid l).replay = []) (hretry : (t.lid l).retry ≠ []) : execControlFrameReceive l line bs rd s =
      .next (t.startReplay l ((t.lid l).retry.dropWhile fun f => f.1 != fieldLe (cellOf bs).payload 68 2)) := by
  rw [execControlFrameReceive_arrives hl hline hlen hu hc hown hgood hcell ht, if_neg h0, if_pos ⟨hnak, by simp [hreplay], by simp [hretry]⟩]

end

/-! ## Training (R189, R196, R212) -/

theorem State.train_starts {e : LinkEnt} (he : s.linkEnt l = some e)
    (hmask : s.maskOf e.port (s.linesOf s.light.actSet e.port l) ≠ 0#17) (hnode : s.mod.nodebad = false) :
    s.train_ l = s.updLid l fun k => { k with
      st := .training, port := e.port, peer := e.peer, part := e.part, w := (s.linesOf s.light.actSet e.port l).length
      wmask := s.maskOf e.port (s.linesOf s.light.actSet e.port l) } := by
  simp only [State.train_, he]
  exact if_neg (by simp [hmask, hnode])

theorem execLidTrainingStart_trains {e : LinkEnt} (hl : l < 96) (he : s.linkEnt l = some e) (hst : (s.lid l).st = .down)
    (hopen : (s.port e.port).open_ = true) (hsw : s.light.swPend = false ∨ l ∉ s.light.swLids)
    (hmask : s.maskOf e.port (s.linesOf s.light.actSet e.port l) ≠ 0#17) (hnode : s.mod.nodebad = false) :
    execLidTrainingStart l s = .next (s.updLid l fun k => { k with
      st := .training, port := e.port, peer := e.peer, part := e.part, w := (s.linesOf s.light.actSet e.port l).length
      wmask := s.maskOf e.port (s.linesOf s.light.actSet e.port l) }) := by
  rw [← State.train_starts he hmask hnode]
  simp only [execLidTrainingStart, unit_of_lt hl, he]
  exact when_next (by rcases hsw with h | h <;> simp [hst, hopen, h])

theorem execLidTrainingComplete_up {rtt gen : Nat} (hl : l < 96) (hst : (s.lid l).st = .training) (hgen : nbit gen 1 = true)
    (hrtt : rtt ≤ 11200) : execLidTrainingComplete l rtt gen (s.lid l).peer (s.lid l).part s = .next (s.lidUp l rtt) := by
  simp only [execLidTrainingComplete, unit_of_lt hl, hst, hgen, ne_eq, not_true, Bool.not_true, Bool.false_eq_true, if_false]
  exact if_neg (by simpa using hrtt)

theorem execLidTrainingComplete_noGeneration {gen : Nat} (rtt node part : Nat) (hl : l < 96) (hst : (s.lid l).st = .training)
    (hgen : nbit gen 1 = false) : execLidTrainingComplete l rtt gen node part s =
      .next ((s.updLid l fun k => { k with st := .down }).lidRep 2 l 0x30 gen) := by
  simp only [execLidTrainingComplete, unit_of_lt hl, hst, hgen, ne_eq, not_true, Bool.not_false, if_false, if_true]

/-- Training that succeeds changes its LID alone. -/
theorem State.lidUp_others (s : State) {l m : Nat} (rtt : Nat) (h : m ≠ l) : (s.lidUp l rtt).lid m = s.lid m :=
  (s.lid_updLid l m _).trans (if_neg h)

/-! ## Ends of fences (R177, R208) -/

theorem execSoftFenceComplete_fences (hl : l < 96) (hst : (s.lid l).st = .draining) (hdrained : (s.lid l).drained = true)
    (hfence : (s.lid l).fencing = true) : execSoftFenceComplete l s = .next (s.hardFence l) := by
  simp only [execSoftFenceComplete, unit_of_lt hl, hfence, if_true]
  exact when_next (by simp [hst, hdrained])

theorem execSoftFenceComplete_retires (hl : l < 96) (hst : (s.lid l).st = .draining) (hdrained : (s.lid l).drained = true)
    (hfence : (s.lid l).fencing = false) (hretire : (s.lid l).retire = true) :
    execSoftFenceComplete l s = .next (s.lidOff l .down) := by
  simp only [execSoftFenceComplete, unit_of_lt hl, hfence, Bool.false_eq_true, if_false]
  exact when_next (by simp [hst, hdrained, hretire])

section
variable {ms : Nat} (hl : l < 96) (hst : (s.lid l).st = .draining) (hms : 50 ≤ ms)
include hl hst hms

theorem execSoftFenceTimeout_fences (hfence : (s.lid l).fencing = true) : execSoftFenceTimeout l ms s = .next (s.hardFence l) := by
  simp only [execSoftFenceTimeout, unit_of_lt hl, hfence, if_true]
  exact when_next (by simp [hst, hms])

theorem execSoftFenceTimeout_retires (hfence : (s.lid l).fencing = false) (hretire : (s.lid l).retire = true) :
    execSoftFenceTimeout l ms s = .next (s.lidOff l .down) := by
  simp only [execSoftFenceTimeout, unit_of_lt hl, hfence, hretire, Bool.false_eq_true, if_false, if_true]
  exact when_next (by simp [hst, hms])

end

end

/-- Settles O18: a frame goes by its CRC and SEQ (`execFrameReceive_arrives`), a control frame by its mask and NAK
(`execControlFrameReceive_arrives`), with the credits of `Lid.tget_resv_takeCredits`; the other rows act where their conditions hold. -/
theorem framesArriveAtTheLid : Obligations.FramesArriveAtTheLid := by
  refine ⟨?data, ?line, ?accept, ?control, ?credits, ?start, ?up, ?noGeneration, ?fences⟩
  case data =>
    intro s u l line cyc bs sh rd hl hline hlen hu hst hc hown
    refine ⟨fun hgood hseq => execFrameReceive_inOrder sh hl hline hlen hu hst hc hown hgood hseq,
      fun hgood hseq => execFrameReceive_outOfOrder sh hl hline hlen hu hst hc hown hgood hseq, fun hbad hcrc => ?_⟩
    exact ⟨_, (execFrameReceive_badCrc sh hl hline hlen hu hst hc hown hbad).trans (congrArg _ (State.badCrc_data hcrc))⟩
  case line => exact fun s p w rd hunc => s.lineRead_clean p w hunc
  case accept => exact fun s l c sh hformat hpart => State.accept_routes sh hformat hpart
  case control =>
    intro s u l line bs rd hl hline hlen hu hc hown hgood hcell
    refine ⟨_, rfl, fun h0 => ⟨fun hnak => ?_, fun hnak hreplay hretry => ?_⟩, fun h0 => ?_⟩
    · exact execControlFrameReceive_noNak hl hline hlen hu hc hown hgood hcell rfl h0 hnak
    · exact execControlFrameReceive_nak hl hline hlen hu hc hown hgood hcell rfl h0 hnak hreplay hretry
    · exact execControlFrameReceive_noLine hl hline hlen hu hc hown hgood hcell rfl h0
  case credits => exact fun k p => ⟨_, rfl, rfl, rfl, fun v hv => k.tget_resv_takeCredits p hv, fun v hv => k.tget_crdIn_takeCredits p hv⟩
  case start => exact fun s l e hl he hst hopen hsw hmask hnode => execLidTrainingStart_trains hl he hst hopen hsw hmask hnode
  case up =>
    intro s l rtt gen hl hst hgen hrtt
    have hlid : (s.lidUp l rtt).lid l = _ := s.lid_updLid_same l _
    refine ⟨_, execLidTrainingComplete_up hl hst hgen hrtt, fun m hm => s.lidUp_others rtt hm, rfl, ?_⟩
    rw [hlid]
    refine ⟨rfl, rfl, rfl, rfl, rfl, rfl, ?_⟩
    rintro v (hv | rfl | rfl)
    · interval_cases v <;> rfl
    · rfl
    · rfl
  case noGeneration => exact fun s l rtt gen node part hl hst hgen => execLidTrainingComplete_noGeneration rtt node part hl hst hgen
  case fences =>
    exact fun s l ms hl hst => ⟨fun hfence hdrained => execSoftFenceComplete_fences hl hst hdrained hfence,
      fun hfence hms => execSoftFenceTimeout_fences hl hst hms hfence,
      fun hfence hretire hdrained => execSoftFenceComplete_retires hl hst hdrained hfence hretire,
      fun hfence hretire hms => execSoftFenceTimeout_retires hl hst hms hfence hretire⟩

end Sys2Proof.Machine
end

section
/-! PROOFS. Messages at their target and at their requester, batches of completions, and the end of an old epoch (07 R181, R182, R184,
R204, R205, R208, 12 R337), and O19. -/

namespace Sys2Proof.Machine

/-! ## Messages at the target (R182) -/

section
variable {s : State} {i : Nat} {m : InMsg}

theorem execReqMessageServe_serves (hm : s.fab.inMsgs[i]? = some m) (h : m.refuse = none ∨ (m.acked = false ∧ m.buf.isSome = true)) :
    execReqMessageServe i s = .next (if m.cell.typ = 1 then s.serveSend m else if m.cell.typ = 2 then s.serveWrite m else s.serveGet m) := by
  simp only [execReqMessageServe, hm]
  rcases h with hnone | ⟨hacked, hbuf⟩
  · simp only [hnone]
    split_ifs <;> rfl
  · obtain ⟨b, hb⟩ := Option.isSome_iff_exists.1 hbuf
    simp only [hacked, hb]
    cases m.refuse <;> split_ifs <;> rfl

theorem execReqMessageServe_refuses {st : Nat} (hm : s.fab.inMsgs[i]? = some m) (hst : m.refuse = some st) (hacked : m.acked = false)
    (hbuf : m.buf = none) : execReqMessageServe i s = .next (s.refuseMsg m st) := by
  simp only [execReqMessageServe, hm, hst, hacked, hbuf]

theorem execReqMessageServe_discards {st : Nat} (hm : s.fab.inMsgs[i]? = some m) (hst : m.refuse = some st) (hacked : m.acked = true) :
    execReqMessageServe i s = .next (if m.last then (s.freeMsg m).endIn m else (s.freeMsg m).setIn m { m with data := [] }) := by
  simp only [execReqMessageServe, hm, hst, hacked]

theorem execNrqWaitExpiry_answers {us : Nat} (hm : s.fab.inMsgs[i]? = some m) (hwaits : m.waits = true) (hbuf : m.buf = none)
    (hus : (s.host.job.map (·.nrqWait)).getD 1000 ≤ us) :
    execNrqWaitExpiry i us s = .next (if m.last then ((s.freeMsg m).sendAck m m.cell.src 0x105).endIn m
      else ((s.freeMsg m).sendAck m m.cell.src 0x105).setIn m { m with data := [], waits := false, refuse := some 0x105, acked := true }) := by
  simp only [execNrqWaitExpiry, hm]
  exact if_pos ⟨hwaits, by rw [hbuf]; rfl, hus⟩

end

/-! ## Messages that are lost (R182) -/

section
variable {s : State} {i ms c q : Nat} {m : OutMsg}

theorem State.postOn_of_ceq (h : s.ceqOf q = some c) (r : Rec) : s.postOn q r = s.postRec c r := by
  rw [State.postOn, h]

theorem execMessageLostTimeout_ends (hm : s.fab.outMsgs[i]? = some m) (hsent : m.sent = true) (hms : 100 ≤ ms) :
    execMessageLostTimeout i ms s = .next (s.endOut m 0x10C) := by
  simp only [execMessageLostTimeout, hm]
  exact when_next (by simp [hsent, hms])

theorem State.endOut_entry (huse : m.use = 0) (hc : s.ceqOf m.q = some c) (status : Nat) :
    s.endOut m status = (s.updFab fun f => { f with outMsgs := f.outMsgs.erase m }).postRec c
      (rec0 m.tag m.q status m.sqh (BitVec.ofNat 32 m.len) 0#32 0#32 0#32 false) :=
  (if_pos huse).trans (State.postOn_of_ceq (s := s.updFab fun f => { f with outMsgs := f.outMsgs.erase m }) hc _)

/-- A mirror whose status is not DONE was acknowledged badly. -/
theorem State.endOut_mirror {status : Nat} (huse : m.use = 1) (hstatus : status ≠ 2) :
    s.endOut m status = (s.updFab fun f => { f with outMsgs := f.outMsgs.erase m }).updTrain fun t =>
      { t with mirrors := t.mirrors - 1, mirBad := true } := by
  have hbad : (status != 2) = true := bne_iff_ne.2 hstatus
  simp only [State.endOut, huse, hbad, Bool.or_true, Nat.one_ne_zero, if_false]
  rfl

end

/-! ## Batches (R184) -/

/-- The completion of a received message that its batch held. -/
def NrqHold.record (h : NrqHold) (q head : Nat) : Rec :=
  rec0 h.tag q h.status head (BitVec.ofNat 32 h.len) (BitVec.ofNat 32 h.node) 0#32 0#32 false

/-- Completions posted one after another wait on the queue's CEQ in that order. -/
theorem State.foldl_postOn_holds {q c : Nat} (out : List NrqHold) {s : State} (hc : s.ceqOf q = some c) :
    out.foldl (fun a h => a.postOn q (h.record q (a.que q).head)) s =
      s.updHost fun x => { x with recs := x.recs ++ out.map fun h => (c, h.record q (s.que q).head) } := by
  induction out generalizing s with
  | nil => simp [State.updHost]
  | cons h out ih =>
    have hc' : (s.postRec c (h.record q (s.que q).head)).ceqOf q = some c := hc
    rw [List.foldl_cons, State.postOn_of_ceq hc, ih hc']
    simp only [State.postRec, State.updHost, List.append_assoc, List.map_cons, List.singleton_append]
    rfl

/-- The completions of a batch, in ascending order of logical node. -/
def batchOrder (l : List NrqHold) : List NrqHold := l.mergeSort fun x y => decide (x.node ≤ y.node)

theorem batchOrder_perm (l : List NrqHold) : (batchOrder l).Perm l := List.mergeSort_perm l _

theorem batchOrder_ascends (l : List NrqHold) : (batchOrder l).Pairwise fun x y => x.node ≤ y.node := by
  have hsorted := List.pairwise_mergeSort (le := fun x y : NrqHold => decide (x.node ≤ y.node))
    (fun x y z hxy hyz => by simp only [decide_eq_true_eq] at *; omega) (fun x y => by simp only [Bool.or_eq_true, decide_eq_true_eq]; omega) l
  simpa [batchOrder] using hsorted

theorem execDetseqBatchRelease_posts {s : State} {q c : Nat} (hq : q < 8192) (hb : 0 < (s.que q).batch)
    (hfull : (s.que q).batch ≤ (s.fab.holds.filter fun h => h.q == q).length) (hc : s.ceqOf q = some c) :
    execDetseqBatchRelease q s = .next ((s.updFab fun f => { f with
      holds := f.holds.filter (fun h => h.q != q) ++ (s.fab.holds.filter fun h => h.q == q).drop (s.que q).batch }).updHost fun x =>
        { x with recs := x.recs ++ (batchOrder ((s.fab.holds.filter fun h => h.q == q).take (s.que q).batch)).map fun h =>
            (c, h.record q (s.que q).head) }) := by
  have hposts := State.foldl_postOn_holds (batchOrder ((s.fab.holds.filter fun h => h.q == q).take (s.que q).batch))
    (s := s.updFab fun f => { f with
      holds := f.holds.filter (fun h => h.q != q) ++ (s.fab.holds.filter fun h => h.q == q).drop (s.que q).batch }) hc
  simp only [execDetseqBatchRelease, unit_of_lt hq]
  exact (when_next (by simp [hb, hfull])).trans (congrArg _ hposts)

/-! ## The end of an old epoch (R204, R205) -/

theorem execEpochSum_frees {s : State} {others : Int} {lost : List Nat} {t : TabSet} (hold : s.fab.old = some t)
    (hsum : others + ((tget 0 s.fab.inj s.fab.oldEp : Nat) : Int) - ((tget 0 s.fab.dlv s.fab.oldEp : Nat) : Int) + s.lostSum t lost = 0) :
    execEpochSum others lost s = .next (((s.updFab fun f => { f with
      old := none, stby := f.stbyClr.foldl tdel f.stby, stbyClr := [], shadowHnd := 0 }).retireLids t).doneLong s.fab.shadowHnd) := by
  simp only [execEpochSum, hold]
  exact when_next (decide_eq_true hsum)

/-! ## Messages of this device (R182) -/

/-- A message with a reply slot is opened. -/
def State.openMsg (s : State) (q typ slot len part : Nat) (d : Desc) : State :=
  s.updFab fun f => { f with nextSlot := (slot + 1) % 65536, outMsgs := f.outMsgs ++
    [{ slot := slot, typ := typ, q := q, tag := Desc.word d 1, sqh := (s.que q).head, dev := (Desc.dword d 4).toNat % 2 ^ 40, len := len,
       got := 0, sent := true, use := 0, part := part }] }

section
variable {s u v : State} {q typ : Nat} {d : Desc}

theorem execNet_runs (hq : q < 8192) (hhead : s.nsqHead q d = true) :
    (bitsOf (Desc.word d 0) 15 0 = 0x130 → execNetSend q d s = .next (s.netRun q d 1)) ∧
    (bitsOf (Desc.word d 0) 15 0 = 0x131 → execNetWrite q d s = .next (s.netRun q d 2)) ∧
    (bitsOf (Desc.word d 0) 15 0 = 0x132 → execNetGet q d s = .next (s.netRun q d 3)) := by
  refine ⟨fun hop => ?_, fun hop => ?_, fun hop => ?_⟩
  all_goals exact (unit_of_lt hq).trans (when_next (by rw [hhead, hop]; rfl))

section
variable (hu : u = (s.entryAt .hub q (s.que q).head).1.popHead q) (hentry : entryCheck (Desc.word d 0) = none)
include hu hentry

theorem State.netRun_malformed (hrsv : netRsv d typ = true) : s.netRun q d typ = u.netRec q d 0x103 0#32 0#32 := by
  subst hu
  simp only [State.netRun, hentry]
  exact if_pos (.inr (.inr (.inr hrsv)))

variable (hpart : (s.que q).part ≠ 0) (hlen : (Desc.word d 6).toNat ≠ 0) (hmax : (Desc.word d 6).toNat ≤ 2 ^ 24)
  (hrsv : netRsv d typ = false) (hfence : u.fencedPart (s.que q).part = false)
include hpart hlen hmax hrsv hfence

theorem State.netRun_get (htyp : typ = 3) : s.netRun q d typ =
    (u.openMsg q 3 u.newSlot (Desc.word d 6).toNat (s.que q).part d).inject (u.l2p (bitsOf (Desc.word d 2) 14 0)) 3 0
      (bitsOf (Desc.word d 3) 15 0) 1#8 (s.que q).part 0
      (natLe ((Desc.dword d 8).toNat % 2 ^ 40) 8 ++ natLe (Desc.word d 6).toNat 4 ++ natLe u.newSlot 2 ++ [0#8, 0#8]) := by
  subst hu htyp
  simp only [State.netRun, hentry, hpart, hlen, hmax.not_gt, hrsv, hfence, Bool.false_eq_true, or_self, if_false, if_true]
  rfl

theorem State.netRun_sends {r : List Byte × List Bool × Option Nat} (htyp : typ ≠ 3)
    (hadmit : ∀ x ∈ unitsOf ((Desc.dword d 4).toNat % 2 ^ 40) (Desc.word d 6).toNat,
      (u.admitUnit (.engine 0) (s.que q).part x).2.isSome = true)
    (hread : u.memRead (.engine 0) (s.que q).part ((Desc.dword d 4).toNat % 2 ^ 40) (Desc.word d 6).toNat = (v, r)) :
    s.netRun q d typ = (v.openMsg q typ u.newSlot (Desc.word d 6).toNat (s.que q).part d).sendMsg (u.l2p (bitsOf (Desc.word d 2) 14 0)) typ
      (bitsOf (Desc.word d 3) 15 0) ((Desc.dword d 8).toNat % 2 ^ 40) u.newSlot (s.que q).part ((Desc.word d 2).getLsbD 31)
      (r.1.zip r.2.1) := by
  have hall : (unitsOf ((Desc.dword d 4).toNat % 2 ^ 40) (Desc.word d 6).toNat).find?
      (fun x => (u.admitUnit (.engine 0) (s.que q).part x).2.isNone) = none :=
    List.find?_eq_none.2 fun x hx hnone => by
      have hsome := hadmit x hx
      rw [Option.isNone_iff_eq_none.1 hnone] at hsome
      exact Bool.noConfusion hsome
  subst hu
  simp only [State.netRun, hentry, hpart, hlen, hmax.not_gt, hrsv, hfence, htyp, hall, hread, Bool.false_eq_true, or_self, if_false]
  rfl

end

end

/-- Settles O19: under each clause's hypotheses its row acts; a batch is posted in the order of `batchOrder`, and a well-formed entry of a
network send queue opens its message and sends it (`State.netRun_sends`, `State.netRun_get`). -/
theorem messagesAreServedAndCounted : Obligations.MessagesAreServedAndCounted := by
  refine ⟨?serve, ?refuse, ?discard, ?wait, ?lost, ?mirror, ?batch, ?epoch, ?send, ?get, ?malformed⟩
  case serve => exact fun s i m hm h => execReqMessageServe_serves hm h
  case refuse => exact fun s i st m hm hst hacked hbuf => execReqMessageServe_refuses hm hst hacked hbuf
  case discard => exact fun s i st m hm hst hacked => execReqMessageServe_discards hm hst hacked
  case wait => exact fun s i us m hm hwaits hbuf hus => execNrqWaitExpiry_answers hm hwaits hbuf hus
  case lost =>
    intro s i ms c m hm hsent hms huse hc
    exact ⟨_, (execMessageLostTimeout_ends hm hsent hms).trans (congrArg _ (State.endOut_entry huse hc _)), rfl, rfl, rfl⟩
  case mirror =>
    exact fun s i ms m hm hsent hms huse =>
      (execMessageLostTimeout_ends hm hsent hms).trans (congrArg _ (State.endOut_mirror huse (by decide)))
  case batch =>
    exact fun s q c hq hb hfull hc =>
      ⟨_, _, execDetseqBatchRelease_posts hq hb hfull hc, batchOrder_perm _, batchOrder_ascends _, rfl, rfl⟩
  case epoch => exact fun s others lost t hold hsum => execEpochSum_frees hold hsum
  case send =>
    rintro s u v q typ _ _ _ d r hq hhead hu hentry hpart rfl hlen hmax htyp hrsv hfence rfl rfl hadmit hread hop
    obtain ⟨hsend, hwrite, -⟩ := execNet_runs hq hhead
    have hruns := State.netRun_sends hu hentry hpart hlen hmax hrsv hfence (by omega) hadmit hread
    rcases htyp with rfl | rfl
    · exact (hsend hop).trans (congrArg _ hruns)
    · exact (hwrite hop).trans (congrArg _ hruns)
  case get =>
    rintro s u q _ _ d hq hhead hu hentry hpart rfl hlen hmax hrsv hfence rfl hop
    obtain ⟨-, -, hget⟩ := execNet_runs hq hhead
    exact (hget hop).trans (congrArg _ (State.netRun_get hu hentry hpart hlen hmax hrsv hfence rfl))
  case malformed =>
    intro s u q d hq hhead hu hentry
    obtain ⟨hsend, hwrite, hget⟩ := execNet_runs hq hhead
    exact ⟨fun hop hrsv => (hsend hop).trans (congrArg _ (State.netRun_malformed hu hentry hrsv)),
      fun hop hrsv => (hwrite hop).trans (congrArg _ (State.netRun_malformed hu hentry hrsv)),
      fun hop hrsv => (hget hop).trans (congrArg _ (State.netRun_malformed hu hentry hrsv))⟩

end Sys2Proof.Machine
end

section
/-! PROOFS. The rules of QCP groups 0x03 and 0x04 on a command that meets their conditions (07 R191, R204, R208, 08 R218, R228, R229, R237,
R243, 09 R255, R256, 14 R404), and O42. -/

namespace Sys2Proof.Machine

section
variable {s u a : State} {c : Cmd} {i : Nat} {b : List Byte}

/-! ## Table sets (R197, R200, R204) -/

/-- Table set `t` is the shadow set of the next epoch, with the switch point that `c` names and with cleared counts. -/
def State.shadowSet (a : State) (c : Cmd) (t : TabSet) (i : Nat) : State :=
  a.updFab fun f => { f with
    shadow := some t, shadowEp := (a.fab.curEp + 1) % 4, shadowSw := c.bit 5 0, shadowAt := if c.bit 5 0 then c.f 5 5 4 else c.n 6, shadowHnd := i
    inj := tput f.inj ((a.fab.curEp + 1) % 4) 0, dlv := tput f.dlv ((a.fab.curEp + 1) % 4) 0
    lids := f.lids.map fun k =>
      (k.1, { k.2 with acc := tput k.2.acc ((a.fab.curEp + 1) % 4) 0, txa := tput k.2.txa ((a.fab.curEp + 1) % 4) 0 }) }

/-- The words of FAB_TABLES are good: a watershed's number or a tree pair, not both. -/
theorem fabTables_words (h5 : c.only 5 0x31 = true) (hws : c.bit 5 0 = false → c.f 5 5 4 = 0) (hbar : c.bit 5 0 = true → c.n 6 = 0)
    (h7 : c.zero 7 = true) (hlo : 256 ≤ c.n 4) (hhi : c.n 4 ≤ 34560) :
    (c.only 5 0x31 && (c.bit 5 0 || c.f 5 5 4 == 0) && (!c.bit 5 0 || c.n 6 == 0) && c.zero 7 &&
      decide (256 ≤ c.n 4 ∧ c.n 4 ≤ 34560)) = true := by
  cases hsw : c.bit 5 0
  · simp [h5, h7, hlo, hhi, hws hsw]
  · simp [h5, h7, hlo, hhi, hbar hsw]

theorem runFabTables_shadows {t : TabSet} (ho : s.ownsJob c = true)
    (hwords : (c.only 5 0x31 && (c.bit 5 0 || c.f 5 5 4 == 0) && (!c.bit 5 0 || c.n 6 == 0) && c.zero 7 &&
      decide (256 ≤ c.n 4 ∧ c.n 4 ≤ 34560)) = true)
    (hr : Reads s c u b) (ht : parseTables u.fab.cur b = some t) (hok : u.tablesOk t = true) (hold : u.fab.old = none)
    (hshadow : u.fab.shadow = none) (hvote : u.votingNow = false) (ha : Accepts u c i a) :
    (c.bit 5 0 = false → runFabTables c s = a.shadowSet c t i) ∧
    (c.bit 5 0 = true → u.outsideStep = true → runFabTables c s = (a.shadowSet c t i).updTrain fun x =>
      { x with votes := x.votes ++ [barEntry x.vseq.toNat (c.f 5 5 4)] }) := by
  have hruns : runFabTables c s = if c.bit 5 0 ∧ !u.outsideStep then u.badState c
      else if c.bit 5 0 then (a.shadowSet c t i).updTrain fun x => { x with votes := x.votes ++ [barEntry x.vseq.toNat (c.f 5 5 4)] }
      else a.shadowSet c t i := by
    simp only [runFabTables, ho, Bool.not_true, Bool.false_eq_true, if_false]
    refine (structure_good_runs _ hwords hr).trans ?_
    simp only [ht, hok, hold, hshadow, hvote, Option.isSome_none, Bool.not_true, Bool.false_eq_true, or_self, if_false, accepted_runs _ ha]
    rfl
  exact ⟨fun hsw => by simp [hruns, hsw], fun hsw hout => by simp [hruns, hsw, hout]⟩

/-! ## Fences (R208, R404) -/

theorem runFabFence_fences (hok : c.fenceOk 0x37F = true) (ha : Accepts s c i a) {x : State}
    (hx : x = if c.bit 2 8 then a.updFab fun f => { f with fenced := setIns f.fenced (c.f 3 11 0) } else a) :
    (a.fenceLids c = [] → runFabFence c s = x.doneLong i) ∧
    (a.fenceLids c ≠ [] → runFabFence c s =
      (a.fenceLids c).foldl (fun (y : State) l => if c.bit 2 9 then y.hardFence l else y.softFence l true)
        ((a.fenceLids c).foldl (fun (y : State) l => y.updLid l fun k => { k with fenceHnd := some i }) x)) := by
  subst hx
  simp only [runFabFence, hok, Bool.not_true, Bool.false_eq_true, if_false, accepted_runs _ ha]
  exact ⟨fun h => if_pos (by rw [h]; rfl), fun h => if_neg (by simp [h])⟩

theorem runFabUnfence_readmits (hok : c.fenceOk 0x17F = true) (hst : c.bit 2 8 = false → (s.lid (c.f 2 6 0)).st = .fenced)
    (ha : Accepts s c i a) : runFabUnfence c s = ((s.fenceLids c).foldl
      (fun (x : State) l => if (x.lid l).st = .fenced then x.readmitLid l else x)
      (if c.bit 2 8 then a.updFab fun f => { f with fenced := setDel f.fenced (c.f 3 11 0) } else a)).doneLong i := by
  have hfenced : ¬((!c.bit 2 8) = true ∧ (s.fenceLids c).any (fun l => (s.lid l).st != .fenced) = true) := by
    rintro ⟨hone, hany⟩
    have hone' : c.bit 2 8 = false := by simpa using hone
    simp [State.fenceLids, hone', hst hone'] at hany
  simp only [runFabUnfence, hok, hfenced, Bool.not_true, Bool.false_eq_true, if_false, accepted_runs _ ha]

/-! ## Pass sets and comb inputs (R218, R228, R229, R237) -/

theorem runPassPlan_writes {sets : List Nat} (h5 : c.only 5 0xFF = true) (hsets : sets = (List.range 8).filter fun n => c.bit 5 n)
    (hne : sets ≠ []) (h6 : c.zero 6 = true) (h4 : c.n 4 = 512 * sets.length) (hr : Reads s c u b)
    (hzero : ∀ i, i < sets.length → zeroBytes b (512 * i + 408) 104 = true) (hok : u.passOk (passEntries sets b) sets = true)
    (hsw : u.light.swPend = true → u.light.pendSet ∉ sets) :
    runPassPlan c s = (sets.foldl (fun (x : State) n => x.writeSet (passEntries sets b) n) u).ok c := by
  subst hsets
  have hbytes : ((List.range ((List.range 8).filter fun n => c.bit 5 n).length).all fun i => zeroBytes b (512 * i + 408) 104) = true :=
    List.all_eq_true.2 fun i hi => hzero i (List.mem_range.1 hi)
  have hfree : ¬(u.light.swPend = true ∧ ((List.range 8).filter fun n => c.bit 5 n).contains u.light.pendSet = true) := by
    rintro ⟨hpend, hin⟩
    exact hsw hpend (List.contains_iff_mem.1 hin)
  have hwords : (c.only 5 0xFF && !((List.range 8).filter fun n => c.bit 5 n).isEmpty && c.zero 6 &&
      c.n 4 == 512 * ((List.range 8).filter fun n => c.bit 5 n).length) = true := by
    rw [h5, h6, h4, List.isEmpty_eq_false_iff.2 hne]
    simp
  simp only [runPassPlan]
  refine (structure_good_runs _ hwords hr).trans ?_
  simp only [hbytes, hok, hfree, Bool.not_true, Bool.false_eq_true, or_self, if_false]

section
variable (h2 : c.only 2 7 = true) (h3 : c.only 3 0xFFFF = true) (h4 : c.zero 4 = true)
include h2 h3 h4

theorem runPassConfig_interval (hsel : c.bit 2 0 = false) (hset : c.bit 2 2 = true) (hmax : c.f 3 15 0 ≤ 3600) :
    runPassConfig c s = (s.updLight fun b => { b with rotInt := c.f 3 15 0 }).ok c := by
  simp [runPassConfig, h2, h3, h4, hsel, hset, hmax]

/-- An input is selected by name outside an attempt, in no job but one of attempts (R218). -/
theorem runPassConfig_selects (hsel : c.bit 2 0 = true) (hinput : c.f 2 1 1 = 1) (hset : c.bit 2 2 = false) (hout : s.outsideStep = true)
    (hjob : s.train.js = .run → s.train.train = true) (hst : s.light.bSt = 1) (hcur : s.light.sel = 0) :
    runPassConfig c s = (s.combSwitch 1).ok c := by
  have hrun : (decide (s.train.js = .run) && !s.train.train) = false := by
    by_cases h : s.train.js = .run <;> simp [h, hjob]
  simp [runPassConfig, h2, h3, h4, hsel, hinput, hset, hout, hrun, hst, hcur]

end

/-- A set that is not the active one is written at once, and its VER advances (R229). -/
theorem State.writeSet_other (s : State) (t : Tab W32) {n : Nat} (h : n ≠ s.light.actSet) :
    (s.writeSet t n).light.ver = tupd 0 s.light.ver n (fun v => (v + 1) % 8) ∧ (s.writeSet t n).light.actSet = s.light.actSet := by
  simp only [State.writeSet, State.updLight_light, if_neg h, and_self]

/-- The active set's entries go to its shadow. -/
theorem State.writeSet_active (s : State) (t : Tab W32) {n : Nat} (h : n = s.light.actSet) :
    (s.writeSet t n).light.sets = s.light.sets ∧ (s.writeSet t n).light.ver = s.light.ver := by
  simp only [State.writeSet, State.updLight_light, if_pos h, and_self]

/-! ## Readmission (R243, R404) -/

theorem runPortReadmit_starts {x : Port} (h2 : c.only 2 7 = true) (hp : c.f 2 2 0 ≤ 5) (h3 : c.zero 3 = true) (hx : x = s.port (c.f 2 2 0))
    (hsoak : x.st ≠ .soak) (hapr : x.st ≠ .apr) (hsearch : x.st ≠ .search) (hhnd : x.hnd = none) (hbroken : x.broken = false)
    (hcomb : s.light.aSt = 1 ∨ s.light.bSt = 1) (ha : Accepts s c i a) :
    runPortReadmit c s = (a.readmitPort (c.f 2 2 0)).updPort (c.f 2 2 0) fun y => { y with hnd := some i } := by
  subst hx
  have hlit : ¬(s.light.aSt ≠ 1 ∧ s.light.bSt ≠ 1) := fun h => hcomb.elim h.1 h.2
  simp only [runPortReadmit, h2, hp.not_gt, h3, hsoak, hapr, hsearch, hhnd, hbroken, hlit, Option.isSome_none, Bool.not_true,
    Bool.false_eq_true, or_self, if_false]
  exact accepted_runs _ ha

/-- Locking a line's rings changes the light alone. -/
theorem State.lockLine_fab (s : State) (p w : Nat) : (s.lockLine p w).fab = s.fab := by
  unfold State.lockLine
  split <;> rfl

/-- A fenced LID that is readmitted, before anything becomes of its port. -/
def State.unfencedLid (s : State) (l : Nat) : State := s.updLid l fun k => { k with st := .down, fenceCyc := none }

theorem State.unfencedLid_lidPort (s : State) (l : Nat) : (s.unfencedLid l).lidPort l = s.lidPort l := by
  have hlid : ((s.unfencedLid l).lid l).port = (s.lid l).port := by
    simp only [State.unfencedLid, State.lid_updLid_same]
  simp only [State.lidPort, hlid]
  rfl

theorem State.readmitLid_notReady {l : Nat} (h : (s.port (s.lidPort l)).st ≠ .ready) : s.readmitLid l = s.unfencedLid l := by
  rw [← s.unfencedLid_lidPort l] at h
  exact if_pos h

/-- On a READY port the LID is DOWN, and the port soaks again with nothing else of its LID changed. -/
theorem State.readmitLid_ready {l : Nat} (h : (s.port (s.lidPort l)).st = .ready) : ∃ t : State, t.fab = (s.unfencedLid l).fab ∧
    s.readmitLid l = t.updPort (s.lidPort l) fun x =>
      { x with st := .soak, soaked := false, pend := true, wait := false, soaks := 0, rot := 0, rotDue := none } := by
  rw [← s.unfencedLid_lidPort l] at h ⊢
  refine ⟨_, foldl_keeps (fun x : State => x.fab) (fun x w => ?_) (List.range 17) _, if_neg (not_not.2 h)⟩
  split
  · exact x.lockLine_fab _ w
  · rfl

/-! ## Tree plans (R254 to R256) -/

/-- The entries that a plan of one pair names. -/
theorem treePlan_entries {p : Nat} {x y : TreeEnt} (hx : parseTree (b.drop 0) = some x) (hy : parseTree (b.drop 16) = some y) :
    ([p].zipIdx.flatMap fun n => [0, 1].map fun t => (2 * n.1 + t, parseTree (b.drop (32 * n.2 + 16 * t)))) =
      [(2 * p, some x), (2 * p + 1, some y)] := by
  rw [← hx, ← hy]
  rfl

theorem runTreePlan_plans {p : Nat} {x y : TreeEnt} {plan : Tab TreeEnt} (ho : s.ownsJob c = true) (h5 : c.only 5 0xF = true)
    (hp : (List.range 4).filter (fun n => c.bit 5 n) = [p]) (h6 : c.zero 6 = true) (h4 : c.n 4 = 32) (hr : Reads s c u b)
    (hx : parseTree (b.drop 0) = some x) (hy : parseTree (b.drop 16) = some y) (hxok : u.treeOk x = true) (hyok : u.treeOk y = true)
    (hsplit : splitOk x y = true) (hplan : plan = tputAll u.coll.plan [(2 * p, x), (2 * p + 1, y)]) (happ : ringsApart plan = true)
    (hgx : tget TreeEnt.none plan (2 * p) = x) (hgy : tget TreeEnt.none plan (2 * p + 1) = y) (hnew : u.coll.newPlan = none)
    (hruns : ∀ r ∈ u.coll.runs, r.tp ≠ p) (hvote : u.votingNow = false) (ha : Accepts u c i a) :
    runTreePlan c s = (((a.updColl fun z => { z with newPlan := some (plan, i), census := [], censusDn := [] }).postSlots a).censusUp
      (2 * p)).censusUp (2 * p + 1) := by
  have hentries : [(2 * p, some x), (2 * p + 1, some y)].filterMap (fun e => e.2.map fun x => (e.1, x)) = [(2 * p, x), (2 * p + 1, y)] := rfl
  have hfree : (u.coll.runs.any fun r => [p].contains r.tp) = false := by simpa using hruns
  simp only [runTreePlan, ho, hp, Bool.not_true, Bool.false_eq_true, if_false]
  refine (structure_good_runs _ (by simp [h5, h6, h4]) hr).trans ?_
  simp only [treePlan_entries hx hy, hentries, ← hplan, List.length_cons, List.length_nil, List.all_cons, List.all_nil, hxok, hyok, hgx, hgy,
    hsplit, happ, hnew, hfree, hvote, ne_eq, not_true_eq_false, Bool.and_self, Bool.not_true, Option.isSome_none, Bool.false_eq_true, or_self,
    if_false]
  exact accepted_runs _ ha

/-! ## Weights (R191, R274) -/

section
variable (h2 : c.only 2 0x3F = true) (h5 : c.zero 5 = true)
include h2 h5

theorem runVcWeights_sets (hout : s.outsideStep = true) : runVcWeights c s = (s.setWeights (c.f 2 5 0) (Desc.dword c.d 3)).ok c := by
  simp [runVcWeights, State.askWeights, h2, h5, hout]

theorem runVcWeights_keeps (hin : s.outsideStep = false) : runVcWeights c s = (s.updFab fun f =>
    { f with vcwNext := tputAll f.vcwNext (((List.range 6).filter (nbit (c.f 2 5 0) ·)).map (·, Desc.dword c.d 3)) }).ok c := by
  simp [runVcWeights, State.askWeights, h2, h5, hin]

end

end

/-- Settles O42: each command of groups 0x03 and 0x04 that passes its frame is its rule's effect (`Runs.of_passes`), and each rule's
conditions lead to the one branch that the statement names. -/
theorem fabricCommandsComplete : Obligations.FabricCommandsComplete := by
  refine ⟨?commands, ?writeSet, ?notReady, ?ready⟩
  case commands =>
    rintro s q d _ rfl
    refine ⟨?tables, ?fence, ?unfence, ?passPlan, ?passConfig, ?portReadmit, ?treePlan, ?weights⟩
    case tables =>
      rintro u b t i a _ h ho h5 hws hbar h7 hlo hhi hr ht hok hold hshadow hvote ha rfl
      obtain ⟨hshed, hbarrier⟩ := runFabTables_shadows ho (fabTables_words h5 hws hbar h7 hlo hhi) hr ht hok hold hshadow hvote ha
      exact ⟨fun hsw => .of_passes rfl h (hshed hsw), fun hsw hout => .of_passes rfl h (hbarrier hsw hout)⟩
    case fence =>
      rintro i a b _ h hok ha rfl hb
      obtain ⟨hnone, hsome⟩ := runFabFence_fences hok ha hb
      exact ⟨fun hls => .of_passes rfl h (hnone hls), fun hls => .of_passes rfl h (hsome hls)⟩
    case unfence =>
      rintro i a _ h hok hst ha rfl
      exact .of_passes rfl h (runFabUnfence_readmits hok hst ha)
    case passPlan =>
      exact fun u b sets h h5 hsets hne h6 h4 hr hzero hok hsw => .of_passes rfl h (runPassPlan_writes h5 hsets hne h6 h4 hr hzero hok hsw)
    case passConfig =>
      exact fun h h2 h3 h4 => ⟨fun hsel hset hmax => .of_passes rfl h (runPassConfig_interval h2 h3 h4 hsel hset hmax),
        fun hsel hinput hset hout hjob hst hcur => .of_passes rfl h (runPassConfig_selects h2 h3 h4 hsel hinput hset hout hjob hst hcur)⟩
    case portReadmit =>
      exact fun i a x h h2 hp h3 hx hsoak hapr hsearch hhnd hbroken hcomb ha =>
        .of_passes rfl h (runPortReadmit_starts h2 hp h3 hx hsoak hapr hsearch hhnd hbroken hcomb ha)
    case treePlan =>
      exact fun u b p x y i a plan h ho h5 hp h6 h4 hr hx hy hxok hyok hsplit hplan happ hgx hgy hnew hruns hvote ha =>
        .of_passes rfl h (runTreePlan_plans ho h5 hp h6 h4 hr hx hy hxok hyok hsplit hplan happ hgx hgy hnew hruns hvote ha)
    case weights =>
      exact fun h h2 h5 => ⟨fun hout => .of_passes rfl h (runVcWeights_sets h2 h5 hout),
        fun hin => .of_passes rfl h (runVcWeights_keeps h2 h5 hin)⟩
  case writeSet => exact fun s t n => ⟨s.writeSet_other t, s.writeSet_active t⟩
  case notReady => exact fun s l h => State.readmitLid_notReady h
  case ready =>
    intro s l h
    obtain ⟨t, ht, hready⟩ := State.readmitLid_ready h
    have hlid : t.lid l = { s.lid l with st := .down, fenceCyc := none } :=
      (congrArg (fun f : Fab => tget Lid.init f.lids l) ht).trans (s.lid_updLid_same l _)
    rw [hready, State.port_updPort_same]
    exact ⟨congrArg Lid.st hlid, rfl, rfl, rfl⟩

end Sys2Proof.Machine
end

section
/-! PROOFS. The rules of QCP group 0x07 on a command that meets their conditions (07 R205, 14 R392, R396, R398, R401, R405, R407), and
O45. -/

namespace Sys2Proof.Machine

section
variable {s t : State} {c : Cmd}

/-! ## FLT_READ, FLT_CLEAR (R401, R407) -/

theorem State.copyData_fatal (hf : s.flt.fatal = true) (bs : List Byte) : s.copyData c bs =
    (s.updHost fun h => { h with fbuf := cellStore [] 0 (bs.take 65536) }).reply c 0 0#32 0#32 (BitVec.ofNat 32 (bs.take 65536).length) 0#32 :=
  if_pos hf

theorem State.copyData_fits {bs : List Byte} (hf : s.flt.fatal = false) (ha : c.addrOk 2 = true)
    (hput : s.memPut .hub 0 (c.dw 2) bs = (t, none)) : s.copyData c bs = t.ok c := by
  simp only [State.copyData, hf, ha, hput, Bool.not_true, Bool.false_eq_true, if_false]

theorem runFltRead_copies (h4 : c.zero 4 = true) : runFltRead c s = s.copyData c s.fltBytes := if_pos h4

/-- The fault registers as FLT_CLEAR leaves them: FLT_FIRST and COVF for `first`, every FLT_DIE_i for `dies`. -/
def Flt.cleared (f : Flt) (first dies : Bool) : Flt :=
  { f with
    first := if first then { f.first with valid := false, ovf := false } else f.first
    covf := if first then false else f.covf
    dies := if dies then f.dies.map (fun e => (e.1, { e.2 with valid := false, ovf := false })) else f.dies }

theorem runFltClear_clears (h2 : c.only 2 3 = true) (h3 : c.zero 3 = true) :
    runFltClear c s = (s.updFlt fun _ => s.flt.cleared (c.bit 2 0) (c.bit 2 1)).ok c := by
  simp only [runFltClear, h2, h3, Bool.not_true, Bool.false_eq_true, or_self, if_false]
  cases c.bit 2 0 <;> cases c.bit 2 1 <;> rfl

/-! ## HEALTH_READ, LINK_COUNT (R205, R405) -/

section
variable {es : List Ledg} (h4 : c.n 4 % 32 = 0) (h6 : c.zero 6 = true)
include h4 h6

theorem runHealthRead_copies (hf : s.flt.fatal = false) (ha : c.addrOk 2 = true)
    (hes : es = (s.flt.ledger.filter fun e => decide (e.seq ≥ c.n 5)).take (c.n 4 / 32))
    (hput : s.memPut .hub 0 (c.dw 2) (es.flatMap Ledg.bytes) = (t, none)) :
    runHealthRead c s = (t.reply c 0 (BitVec.ofNat 32 es.length) s.newestSeq 0#32 0#32).tick := by
  subst hes
  simp only [runHealthRead, h4, h6, hf, ha, hput, ne_eq, not_true_eq_false, Bool.not_true, Bool.false_eq_true, or_self, if_false]

theorem runHealthRead_fatal (hf : s.flt.fatal = true)
    (hes : es = (s.flt.ledger.filter fun e => decide (e.seq ≥ c.n 5)).take (min (c.n 4) 65536 / 32)) :
    runHealthRead c s = ((s.updHost fun h => { h with fbuf := cellStore [] 0 (es.flatMap Ledg.bytes) }).reply c 0
      (BitVec.ofNat 32 es.length) s.newestSeq (BitVec.ofNat 32 (es.flatMap Ledg.bytes).length) 0#32).tick := by
  subst hes
  simp only [runHealthRead, h4, h6, hf, ne_eq, not_true_eq_false, Bool.not_true, Bool.false_eq_true, or_self, if_false, if_true]

end

theorem runLinkCount_answers (h2 : c.only 2 0x37F = true) (h3 : c.zero 3 = true) (hl : c.f 2 6 0 ≤ 95) :
    runLinkCount c s = s.reply c 0 (half (tget 0 (s.lid (c.f 2 6 0)).acc (c.f 2 9 8)) false) (half (tget 0 (s.lid (c.f 2 6 0)).acc (c.f 2 9 8)) true)
      (half (tget 0 (s.lid (c.f 2 6 0)).txa (c.f 2 9 8)) false) (half (tget 0 (s.lid (c.f 2 6 0)).txa (c.f 2 9 8)) true) :=
  if_neg (by simp [h2, h3, hl])

/-! ## UNIT_READMIT (R398) -/

/-- A readmission that acts answers by its tests. -/
theorem State.actReadmit_eq (s : State) (c : Cmd) : s.actReadmit { q := c.q, d := c.d, sqhead := c.hd } =
    if (s.testCores (readmitCores (c.w 2))).2 then
      (((readmitCores (c.w 2)).foldl State.returnCore (s.testCores (readmitCores (c.w 2))).1).ledg 2 (bitsOf (c.w 2) 29 24)
        (bitsOf (c.w 2) 23 22) (bitsOf (c.w 2) 21 12) []).ok c
    else (s.testCores (readmitCores (c.w 2))).1.badState c := by
  have hword : Desc.word c.d 2 = c.w 2 := rfl
  simp only [State.actReadmit, hword]
  split <;> rfl

section
variable (h2 : c.only 2 0x3FFFF000 = true) (h3 : c.zero 3 = true) (hne : readmitCores (c.w 2) ≠ [])
  (hout : (readmitCores (c.w 2)).all s.unitOut = true) (hrebuild : s.train.js ≠ .rebuild) (hpending : s.train.js ≠ .pending)
include h2 h3 hne hout hrebuild hpending

theorem runUnitReadmit_eq : runUnitReadmit c s = if s.train.js = .run ∧ s.train.train ∧ !(s.between && s.train.atRest) then
    s.updFlt fun x => { x with readmits := x.readmits ++ [{ q := c.q, d := c.d, sqhead := c.hd }] }
    else s.actReadmit { q := c.q, d := c.d, sqhead := c.hd } := by
  have hwords : ¬(!c.only 2 0x3FFFF000 ∨ !c.zero 3 ∨ (readmitCores (c.w 2)).isEmpty ∨ !(readmitCores (c.w 2)).all s.unitOut) := by
    simp only [h2, h3, hout, List.isEmpty_eq_false_iff.2 hne, Bool.not_true, Bool.false_eq_true, or_self, not_false_eq_true]
  exact (if_neg hwords).trans (if_neg (by simp [hrebuild, hpending]))

theorem runUnitReadmit_waits (hrun : s.train.js = .run) (htrain : s.train.train = true) (hmid : (s.between && s.train.atRest) = false) :
    runUnitReadmit c s = s.updFlt fun x => { x with readmits := x.readmits ++ [{ q := c.q, d := c.d, sqhead := c.hd }] } := by
  rw [runUnitReadmit_eq h2 h3 hne hout hrebuild hpending, if_pos ⟨hrun, htrain, by rw [hmid]; rfl⟩]

theorem runUnitReadmit_acts (hnow : s.train.js ≠ .run ∨ s.train.train = false ∨ (s.between && s.train.atRest) = true) :
    runUnitReadmit c s = s.actReadmit { q := c.q, d := c.d, sqhead := c.hd } := by
  rw [runUnitReadmit_eq h2 h3 hne hout hrebuild hpending, if_neg]
  rintro ⟨hrun, htrain, hmid⟩
  rcases hnow with h | h | h
  · exact h hrun
  · exact absurd htrain (by simp [h])
  · simp [h] at hmid

end

/-! ## FLT_WINDOWS (R392) -/

/-- N and T of window `w` are set and its counts cleared. -/
def State.setWindow (s : State) (w n t : Nat) : State :=
  s.updFlt fun f => { f with wins := tput f.wins w (n, t), cnts := f.cnts.filter fun e => e.1.1 != w }

theorem runFltWindows_sets (h2 : c.only 2 0xF = true) (h3 : c.only 3 0xFFFF = true) (h5 : c.zero 5 = true) (hw : c.f 2 3 0 ≤ 10)
    (hn : c.f 3 15 0 ≠ 0) (ht : c.n 4 ≠ 0) (hmax : c.n 4 ≤ 2592000000) :
    runFltWindows c s = if c.f 2 3 0 = 5 then ((s.setWindow (c.f 2 3 0) (c.f 3 15 0) (c.n 4)).updHbm fun h =>
        { h with stks := h.stks.map fun e => (e.1, { e.2 with rows := [] }) }).ok c
      else (s.setWindow (c.f 2 3 0) (c.f 3 15 0) (c.n 4)).ok c := by
  have hwords : ¬(!c.only 2 0xF ∨ !c.only 3 0xFFFF ∨ !c.zero 5 ∨ c.f 2 3 0 > 10 ∨ c.f 3 15 0 = 0 ∨ c.n 4 = 0 ∨ c.n 4 > 2592000000) := by
    simp [h2, h3, h5, hw, hn, ht, hmax]
  refine (if_neg hwords).trans ?_
  exact apply_ite (State.ok · c) _ _ _

end

/-- Settles O45: each command of group 0x07 that passes its frame is its rule's effect (`Runs.of_passes`); a readmission that acts answers by
its tests (`State.actReadmit_eq`). -/
theorem faultCommandsComplete : Obligations.FaultCommandsComplete := by
  rintro s q d _ rfl
  refine ⟨?fltRead, ?fltReadFatal, ?fltClear, ?healthRead, ?healthReadFatal, ?linkCount, ?unitReadmit, ?fltWindows⟩
  case fltRead => exact fun t h h4 hf ha hput => .of_passes rfl h ((runFltRead_copies h4).trans (State.copyData_fits hf ha hput))
  case fltReadFatal => exact fun h h4 hf => .of_passes rfl h ((runFltRead_copies h4).trans (State.copyData_fatal hf _))
  case fltClear => exact fun h h2 h3 => ⟨_, .of_passes rfl h (runFltClear_clears h2 h3), rfl, rfl, rfl, rfl⟩
  case healthRead => exact fun t es h h4 h6 hf ha hes hput => .of_passes rfl h (runHealthRead_copies h4 h6 hf ha hes hput)
  case healthReadFatal => exact fun es h h4 h6 hf hes => .of_passes rfl h (runHealthRead_fatal h4 h6 hf hes)
  case linkCount =>
    rintro _ _ h h2 h3 hl rfl rfl
    exact .of_passes rfl h (runLinkCount_answers h2 h3 hl)
  case unitReadmit =>
    rintro _ h h2 h3 rfl hne hout hrebuild hpending
    exact ⟨fun hrun htrain hmid => .of_passes rfl h (runUnitReadmit_waits h2 h3 hne hout hrebuild hpending hrun htrain hmid),
      fun hnow => .of_passes rfl h ((runUnitReadmit_acts h2 h3 hne hout hrebuild hpending hnow).trans (s.actReadmit_eq _))⟩
  case fltWindows =>
    exact fun h h2 h3 h5 hw hn ht hmax => ⟨_, rfl, .of_passes rfl h (runFltWindows_sets h2 h3 h5 hw hn ht hmax)⟩

end Sys2Proof.Machine
end

section
/-! PROOFS. What reports and ledger entries leave of light and passes (14 R386, R405); comb inputs, searches and telemetry (08 R216 to R218,
R235, R242, R243), and O20. -/

namespace Sys2Proof.Machine

/-! ## Reports and ledger entries leave the light -/

@[simp] theorem State.report_light (s : State) (r : Report) : (s.report r).light = s.light := by
  unfold State.report
  split <;> rfl

@[simp] theorem State.ledg_light (s : State) (typ die sub i : Nat) (body : List Byte) : (s.ledg typ die sub i body).light = s.light := rfl

@[simp] theorem State.reportTie_light (s : State) (rs : List Report) : (s.reportTie rs).light = s.light := by
  match rs with
  | [] => rfl
  | [r] => exact s.report_light r
  | r :: r' :: rs =>
    refine foldl_keeps (fun a : State × List Report => a.1.light) (fun a _ => ?_) (List.range (r :: r' :: rs).length) (s, r :: r' :: rs)
    dsimp only
    split
    · rfl
    · split
      · rfl
      · rw [State.report_light]
        split <;> rfl

/-! ## Comb inputs (R216 to R218) -/

section
variable {s : State} {a b : CombRead} {found : List (Nat × EngineFind)}

theorem execCombMeasure_startUp (hstep : s.mod.step < 11) : execCombMeasure a b found s = .next (s.combRead a b) := if_pos hstep

section
variable (hstep : 11 ≤ s.mod.step)
include hstep

/-- With the selected input A read OK the ports return, where nothing lit them before, and the searches that have ended end. -/
theorem execCombMeasure_selectedOk (hsel : s.light.sel = 0) (ha : combState a = 1) : execCombMeasure a b found s =
    .next (found.foldl (fun t f => t.searchDone f.1 f.2) (if s.combOk then s.combRead a b else (s.combRead a b).combBack)) := by
  have hok : (s.combRead a b).combOk = true := by simp [State.combOk, State.combRead, ha]
  simp [execCombMeasure, hstep.not_gt, hsel, ha, hok]

theorem execCombMeasure_switches (hsel : s.light.sel = 0) (hhad : s.combOk = true) (ha : combState a = 0 ∨ combState a = 3)
    (hb : combState b = 1) : execCombMeasure a b found s = .next ((s.combRead a b).combSwitch 1) := by
  have hok : (s.combRead a b).combOk = true := by simp [State.combOk, State.combRead, hb]
  simp [execCombMeasure, hstep.not_gt, hsel, hb, ha.symm, hok, hhad]

theorem execCombMeasure_loses (hhad : s.combOk = true) (ha : combState a ≠ 1) (hb : combState b ≠ 1) :
    execCombMeasure a b found s = .next (s.combRead a b).combLost := by
  have hnone : (s.combRead a b).combOk = false := by simp [State.combOk, State.combRead, ha, hb]
  simp [execCombMeasure, hstep.not_gt, hnone, hhad]

end

theorem State.combOk_iff (s : State) : s.combOk = true ↔ s.light.aSt = 1 ∨ s.light.bSt = 1 := by simp [State.combOk]

theorem State.combSwitch_light (s : State) (i : Nat) :
    (s.combSwitch i).light = { s.light with sel := i, swCnt := satAdd 8 s.light.swCnt 1 } := by
  simp [State.combSwitch]

/-- An AGED selected input A that B can stand in for is left after 10 s. -/
theorem execCombAgedSwitch_leavesA {sec : Nat} (hsec : 10 ≤ sec) (hsel : s.light.sel = 0) (ha : s.light.aSt = 2) (hb : s.light.bSt = 1) :
    execCombAgedSwitch sec s = .next (s.combSwitch 1) := by
  have haged : s.combAged = true := by simp [State.combAged, hsel, ha, hb]
  rw [execCombAgedSwitch, when_next (by simp [haged, hsec]), State.agedSwitch, if_pos haged, hsel]

end

/-! ## Searches (R235, R243) -/

section
variable {s : State} {p : Nat} {f : EngineFind} (hst : (s.port p).st = .search) (hrails : s.mod.rails = true)
include hst hrails

theorem State.searchDone_first (hnew : (s.port p).searched = false) : s.searchDone p f = s.startEngine p f := by
  simp [State.searchDone, hst, hrails, hnew]

theorem State.searchDone_again (hold : (s.port p).searched = true) :
    s.searchDone p f = ((s.searchLines p f).lockPort p).updPort p fun x => { x with st := .soak } := by
  simp [State.searchDone, hst, hrails, hold]

end

/-! ## Telemetry (R242) -/

/-- A span of unknown loss, CLEAN and with a return loss of 35.00 dB or more, keeps its state without a report. -/
theorem execTelemetryMeasure_clean {s : State} {p ret : Nat} {rx tx : Int} (dark : Nat) (hp : p < 6) (hret : 3500 ≤ ret)
    (hloss : (s.port p).nbTx = none) (hclean : (s.port p).telem = 0) :
    execTelemetryMeasure p rx tx ret dark s = .next (s.updPort p fun x =>
      { x with rxtot := rx, txtot := tx, ret := ret % 65536, span := 0, base := (s.port p).base, telem := 0 }) := by
  have halarm : ¬ret < 3000 := by omega
  simp [execTelemetryMeasure, unit_of_lt hp, hloss, hclean, halarm, hret.not_gt]

/-- Settles O20: each measurement is one branch of COMB_MEASURE by what it read of both inputs, a switch-over's reports leave the light
(`State.reportTie_light`), and a search ends by whether its engine was searched before. -/
theorem combInputsAreMeasured : Obligations.CombInputsAreMeasured := by
  refine ⟨?measure, ?switch, ?aged, ?search, ?telemetry⟩
  case measure =>
    rintro s a b found _ rfl
    refine ⟨rfl, rfl, execCombMeasure_startUp, ?searches, ?leaves, ?lost, ?back⟩
    case searches =>
      intro hstep hsel hhad ha
      have hok := s.combOk_iff.2 (.inl hhad)
      exact (execCombMeasure_selectedOk hstep hsel ha).trans (by rw [if_pos hok]; rfl)
    case leaves => exact fun hstep hsel hhad ha hb => execCombMeasure_switches hstep hsel (s.combOk_iff.2 (.inl hhad)) ha hb
    case lost => exact fun hstep hhad ha hb => execCombMeasure_loses hstep (s.combOk_iff.2 hhad) ha hb
    case back =>
      intro hstep hsel ha₀ hb₀ ha
      have hdark : ¬s.combOk = true := fun h => (s.combOk_iff.1 h).elim ha₀ hb₀
      exact (execCombMeasure_selectedOk hstep hsel ha).trans (by rw [if_neg hdark]; rfl)
  case switch => exact fun s i => by rw [State.combSwitch_light]; exact ⟨rfl, rfl⟩
  case aged => exact fun s sec => execCombAgedSwitch_leavesA
  case search => exact fun s p f hst hrails => ⟨State.searchDone_first hst hrails, State.searchDone_again hst hrails⟩
  case telemetry => exact fun s p rx tx ret dark => execTelemetryMeasure_clean dark

end Sys2Proof.Machine
end

section
/-! PROOFS. Markers, ring loops and soaks (08 R220, R221, R224, R225, R239, R243, R244), and O21. -/

namespace Sys2Proof.Machine

section
variable {s : State} {p w : Nat}

theorem unit_line {r : Res} (hp : p < 6) (hw : w < 17) : unit p 6 (unit w 17 r) = r :=
  (unit_of_lt hp).trans (unit_of_lt hw)

/-! ## Markers (R220, R221) -/

section
variable {bs : List Byte} (hp : p < 6) (hw : w < 17) (hdrop : (s.line p w).rxr = .drop)
include hp hw hdrop

theorem execMarkerReceive_invalid (hbad : markerValid bs = false) :
    execMarkerReceive p w bs s = .next (s.updLine p w fun x => { x with good := 0 }) := by
  simp [execMarkerReceive, unit_line hp hw, hdrop, hbad]

/-- A line after a valid marker: two in a row lock framing, and the suspended check resumes then. -/
def Line.validMarker (x : Line) : Line :=
  { x with good := min 2 (x.good + 1), framed := x.framed || decide (x.good ≥ 1), susp := x.susp && x.good == 0 }

theorem execMarkerReceive_own (hvalid : markerValid bs = true) (hline : (s.port p).logical w ≠ 16)
    (hpeer : entPeer (s.lineEnt p w) = fieldLe bs 2 2) (hl : fieldLe bs 5 1 % 32 = (s.port p).logical w) (hon : (s.line p w).susp = false) :
    execMarkerReceive p w bs s = .next ((s.updLine p w Line.validMarker).updLine p w fun x => { x with mism := 0 }) := by
  have hown : entPeer ((s.updLine p w Line.validMarker).lineEnt p w) = fieldLe bs 2 2 ∧ fieldLe bs 5 1 % 32 = (s.port p).logical w :=
    ⟨hpeer, hl⟩
  simp only [execMarkerReceive, unit_line hp hw, hdrop, hvalid, hline, hon, ne_eq, not_true_eq_false, Bool.not_true, Bool.false_eq_true,
    if_false]
  exact if_pos hown

end

/-- A line that is not FOREIGN yet becomes it and leaves the masks of its LIDs. -/
theorem State.foreignLine_leaves {src : Nat} (h : (s.line p w).foreign_ = false) : s.foreignLine p w src =
    ((s.updLine p w fun x => { x with foreign_ := true }).report (rep 1 (10 + p) 0 w 0x39 src)).maskLeave p w :=
  if_neg (by simp [h])

theorem execMarkerAbsentTimeout_acts {us : Nat} (hp : p < 6) (hw : w < 17) (hdrop : (s.line p w).rxr = .drop) (hus : 4 ≤ us)
    (hown : (s.line p w).foreign_ = false) (hon : (s.line p w).susp = false) : execMarkerAbsentTimeout p w us s =
      .next (s.foreignLine p w ((Config.freeWord s.free).toNat % 65536)).tick :=
  (unit_line hp hw).trans (when_next (by simp [hdrop, hus, hown, hon]))

/-! ## Ring loops (R224, R225) -/

/-- A correction of a locked receive ring within 6 GHz and with its carrier kept stores the heater setting. -/
theorem execRingLoopUpdate_stores {err : Int} {heat ns : Nat} (hp : p < 6) (hw : w < 17)
    (hlock : (s.line p w).rxr = .drop ∨ (s.line p w).rxr = .block) (hlo : -60 ≤ err) (hhi : err ≤ 60) (hns : ns < 1000) :
    execRingLoopUpdate p w 0 err heat ns s = .next (s.updLine p w fun x => { x with heat := heat % 128, set_ := heat % 128 }) := by
  have hon : ((s.line p w).rxr == .drop || (s.line p w).rxr == .block) = true := by simpa using hlock
  simp only [execRingLoopUpdate, unit_line hp hw, hon, hlo.not_gt, hhi.not_gt, hns.not_ge, if_true, Bool.not_true, Bool.false_eq_true,
    and_false, or_self, if_false]

/-! ## Soaks (R239, R243, R244) -/

/-- A frame with one uncorrectable codeword is one event of window 1 on its line. -/
theorem State.lineRead_uncorrectable {r : LineRead} (h : r.unc = 1) :
    s.lineRead p w r = (s.updLine p w fun x => x.count r.corr 1 r.power).lineEvent p w := by
  simp [State.lineRead, h]

section
variable {r : SoakRead}

/-- The soak of a line in CAL that a rotation does not soak as its spare ends by the line's rule. -/
theorem execSoakEnd_line (hp : p < 6) (hw : w < 17) (hcal : (s.line p w).rxr = .cal) (hwait : (s.line p w).wait = false)
    (hrot : (s.port p).rot < 3) : execSoakEnd p (some w) r s = .next (s.lineSoak p w r) :=
  (unit_line hp hw).trans (when_next (by simp [hcal, hwait, hrot]))

/-- A passed soak locks a line that is not the spare, for the next PASS_EP, which with no job running advances at once. -/
theorem State.lineSoak_passes {t : State} (hpass : soakPass r = true) (hline : (s.port p).logical w ≠ 16)
    (ht : t = ((s.soakNote p w r).lockLine p w).updLine p w fun x => { x with soaks := 0, ready := true, foreign_ := false }) :
    s.lineSoak p w r = if s.train.js = .run then t else t.passEpoch true := by
  subst ht
  have hport : (((s.soakNote p w r).port p).logical w == 16) = false := beq_eq_false_iff_ne.2 hline
  simp only [State.lineSoak, hpass, hport, if_true, Bool.false_eq_true, if_false, Bool.not_false]
  rfl

/-- A failed soak of a line that has not failed ten in a row counts and waits. -/
theorem State.lineSoak_fails (hfail : soakPass r = false) (hfew : ((s.soakNote p w r).line p w).soaks + 1 < 10) :
    s.lineSoak p w r = (s.soakNote p w r).updLine p w fun x => { x with soaks := x.soaks + 1, wait := true } := by
  simp only [State.lineSoak, hfail, Bool.false_eq_true, if_false]
  exact if_neg hfew.not_ge

theorem execSoakEnd_port (hp : p < 6) (hst : (s.port p).st = .soak) (hwait : (s.port p).wait = false) :
    execSoakEnd p none r s = .next (s.portSoak p r) :=
  (unit_of_lt hp).trans (when_next (by simp [hst, hwait]))

end

section
variable {ms : Nat} (hp : p < 6) (hms : 1000 ≤ ms)
include hp hms

theorem execSoakRepeat_port : execSoakRepeat p none ms s = .next (s.updPort p fun x => { x with wait := false }) :=
  (unit_of_lt hp).trans (if_neg hms.not_gt)

theorem execSoakRepeat_line (hw : w < 17) (hrot : (s.port p).rot ≠ 5) :
    execSoakRepeat p (some w) ms s = .next (s.updLine p w fun x => { x with wait := false }) := by
  simp [execSoakRepeat, unit_of_lt hp, unit_of_lt hw, hms.not_gt, hrot]

end

end

/-- Settles O21: a marker goes by its validity and its owner, a soak by its unit and its result; each clause's hypotheses lead to the one
branch that it names. -/
theorem markersGuardTheirLines : Obligations.MarkersGuardTheirLines := by
  refine ⟨?own, ?invalid, ?absent, ?ring, ?read, ?lineSoak, ?portSoak, ?portRepeat, ?lineRepeat⟩
  case own =>
    intro s p w bs hp hw hdrop hvalid hline hpeer hl hon
    refine ⟨_, execMarkerReceive_own hp hw hdrop hvalid hline hpeer hl hon, ?_, ?_, ?_, fun _ => rfl, rfl⟩
    all_goals simp only [State.line_updLine_same, Line.validMarker, ge_iff_le]
  case invalid => exact fun s p w bs => execMarkerReceive_invalid
  case absent =>
    intro s p w us hp hw hdrop hus hown hon
    refine ⟨(Config.freeWord s.free).toNat % 65536, Nat.mod_lt _ (by decide), ?_⟩
    rw [← State.foreignLine_leaves hown]
    exact execMarkerAbsentTimeout_acts hp hw hdrop hus hown hon
  case ring => exact fun s p w err heat ns => execRingLoopUpdate_stores
  case read => exact fun s p w r => ⟨s.lineRead_clean p w, State.lineRead_uncorrectable⟩
  case lineSoak =>
    rintro s p w r _ hp hw hcal hwait hrot rfl
    have hends := execSoakEnd_line (r := r) hp hw hcal hwait hrot
    refine ⟨fun hpass hline hrun => hends.trans ?_, fun hpass hline hrest => hends.trans ?_,
      fun hfail hfew => hends.trans (congrArg _ (State.lineSoak_fails hfail hfew))⟩
    · rw [State.lineSoak_passes hpass hline rfl, if_pos hrun]
    · rw [State.lineSoak_passes hpass hline rfl, if_neg hrest]
  case portSoak => exact fun s p r => execSoakEnd_port
  case portRepeat => exact fun s p ms => execSoakRepeat_port
  case lineRepeat => exact fun s p w ms hp hw hms hrot => execSoakRepeat_line hp hms hw hrot

end Sys2Proof.Machine
end

section
/-! PROOFS. Spare rotation, automatic power reduction and the rings of a port that is readmitted (08 R237 to R241, R243, R244), and O22. -/

namespace Sys2Proof.Machine

section
variable {s : State} {p : Nat} (hp : p < 6)
include hp

/-! ## Spare rotation (R237 to R239) -/

theorem execSpareRotationStart_starts {sec n i : Nat} (hnbr : (s.port p).nbr = some n)
    (hturn : firstFrom ((s.port p).rotNext % 16) 16 (fun j => s.eligible p j) = some i) (hon : 0 < s.light.rotInt)
    (hdue : s.light.rotInt ≤ sec) (hrot : (s.port p).rot = 0) (hlower : s.fab.phys < n) (hspare : (s.port p).soaked = true)
    (hopen : (s.port p).open_ = true) (hpend : s.light.swPend = false) (hstep : s.light.swStep = 0) :
    execSpareRotationStart p sec s = .next (s.startRotation p i) := by
  simp only [execSpareRotationStart, unit_of_lt hp, hnbr, hturn]
  exact when_next (by simp [hon, hdue, hrot, hlower, hspare, hopen, hpend, hstep])

/-- The maps of line and spare swap at the end that began the rotation and at the far end alike. -/
theorem execRotationMaskAck_swaps {i : Nat} (hend : ((s.port p).rot = 1 ∧ (s.port p).rotLine = i) ∨ s.farRotation p i = true)
    (hjoined : s.spareJoined p i = true) : execRotationMaskAck p i s = .next (((s.updPort p fun x => { x with
      rot := 2, rotLine := i, soaked := false
      lmap := tputAll x.lmap [(i, (s.port p).phys 16), (16, (s.port p).phys i)] }).passEpoch false).maskLeave p ((s.port p).phys i)) :=
  (unit_of_lt hp).trans (when_next (by simpa [hjoined] using hend))

theorem execRotationLineLeave_recalibrates (hrot : (s.port p).rot = 2) (hquiet : s.maskQuiet p (s.port p).rotLine = true) :
    execRotationLineLeave p s = .next ((s.calLine p ((s.port p).phys 16)).updPort p fun x => { x with rot := 3 }) :=
  (unit_of_lt hp).trans (when_next (by simp [hrot, hquiet]))

theorem execRotationCalDone_locks (hrot : (s.port p).rot = 3) :
    execRotationCalDone p s = .next ((s.lockLine p ((s.port p).phys 16)).updPort p fun x => { x with rot := 4 }) :=
  (unit_of_lt hp).trans (when_next (by simp [hrot]))

theorem execRotationSoakEnd_passes {r : SoakRead} (hrot : (s.port p).rot = 4) (hpass : soakPass r = true) :
    execRotationSoakEnd p r s =
      .next (((s.soakNote p ((s.port p).phys 16) r).updLine p ((s.port p).phys 16) fun y => { y with soaks := 0 }).updPort p
        fun y => { y with rot := 0, soaked := true, rotNext := ((s.port p).rotLine + 1) % 16 }) :=
  (unit_of_lt hp).trans ((when_next (by simp [hrot])).trans (congrArg _ (if_pos hpass)))

/-! ## Eye safety (R240, R241) -/

theorem execAprLightLoss_starts {power : Int} (hdark : power < -3000) (hapr : (s.port p).aprAt = 0) :
    execAprLightLoss p power s = .next (s.updPort p fun x => { x with aprAt := 1, rxtot := power }) :=
  (unit_of_lt hp).trans (when_next (by simp [hdark, hapr]))

theorem execAprDeclare_reduces {ms : Nat} (hapr : (s.port p).aprAt = 1) (hms : ms ≤ 50) : execAprDeclare p ms s =
    .next ((((s.portLids p).foldl (fun a l => a.lidDown l) s).aprReduce p).updPort p fun x =>
      { x with st := .apr, rot := 0, rotDue := none, soaked := false, pend := true, wait := false }) :=
  (unit_of_lt hp).trans (when_next (by simp [hapr, hms]))

section
variable {power : Int} (hlit : -2500 ≤ power)
include hlit

/-- Light that returns before the declaration drops the APR. -/
theorem execAprLightReturn_drops (hapr : (s.port p).aprAt = 1) :
    execAprLightReturn p power s = .next (s.updPort p fun x => { x with rxtot := power, aprAt := 0 }) := by
  simp [execAprLightReturn, unit_of_lt hp, hlit.not_gt, hapr]

/-- Light that returns after it lets the pair's lines pass again, and the port returns where a comb input is OK. -/
theorem execAprLightReturn_returns {u : State} (hapr : (s.port p).aprAt = 2)
    (hu : u = (s.updPort p fun x => { x with rxtot := power, aprAt := 0 }).unblock (pairPort p)) (hok : u.combOk = true) :
    execAprLightReturn p power s = .next (u.returnPort p) := by
  simp only [execAprLightReturn, unit_of_lt hp, hlit.not_gt, hapr, ← hu, hok, OfNat.ofNat_ne_zero, OfNat.ofNat_ne_one, or_self, if_false,
    if_true]

end

end

/-! ## The rings of a port that is readmitted (R243, R244) -/

theorem State.line_updLine_ne (s : State) (p : Nat) {v w : Nat} (f : Line → Line) (h : w ≠ v) :
    (s.updLine p v f).line p w = s.line p w :=
  tget_tput_ne _ _ _ (by omega)

theorem State.line_updPort (s : State) (p q w : Nat) (f : Port → Port) : (s.updPort p f).line q w = s.line q w := rfl

theorem State.aprRole_of_ports {s t : State} (h : t.light.ports = s.light.ports) (p w : Nat) (x : Line) :
    t.aprRole p w x = s.aprRole p w x := by
  have hport (q : Nat) : t.port q = s.port q := by rw [State.port, State.port, h]
  rw [State.aprRole, State.aprRole, hport, hport]

/-- The rings of the lines of a list go out of their roles, one after another, to be searched or recalibrated. -/
def State.againLines (s : State) (p : Nat) (first : Bool) (ws : List Nat) : State :=
  ws.foldl (fun a w => a.updLine p w fun x => a.aprRole p w (x.again first)) s

section
variable {s : State} {p : Nat} {first : Bool} {ws : List Nat}

theorem State.line_againLines_of_notMem {w : Nat} (h : w ∉ ws) : (s.againLines p first ws).line p w = s.line p w := by
  induction ws generalizing s with
  | nil => rfl
  | cons v vs ih =>
    obtain ⟨hne, hvs⟩ := not_or.1 (mt List.mem_cons.2 h)
    exact (ih hvs).trans (s.line_updLine_ne p _ hne)

/-- Each line of the list takes its turn once, under the APR of the state before. -/
theorem State.line_againLines {w : Nat} (hnodup : ws.Nodup) (h : w ∈ ws) :
    (s.againLines p first ws).line p w = s.aprRole p w ((s.line p w).again first) := by
  induction ws generalizing s with
  | nil => exact absurd h List.not_mem_nil
  | cons v vs ih =>
    obtain ⟨hv, hvs⟩ := List.nodup_cons.1 hnodup
    by_cases hwv : w = v
    · subst hwv
      exact (State.line_againLines_of_notMem hv).trans (s.line_updLine_same p w _)
    · have hw : w ∈ vs := (List.mem_cons.1 h).resolve_left hwv
      refine (ih hvs hw).trans ?_
      rw [s.line_updLine_ne p _ hwv]
      exact State.aprRole_of_ports rfl p w _

/-- A port searched before is readmitted by taking all its rings out of their roles. -/
theorem State.readmitPort_searched (hrails : s.mod.rails = true) (hold : (s.port p).searched = true) :
    s.readmitPort p = (s.againLines p false (List.range 17)).updPort p fun x =>
      { x with st := .search, soaked := false, pend := true, wait := false, soaks := 0, base := none, rot := 0, rotDue := none, aprAt := 0 } := by
  simp only [State.readmitPort, hrails, hold, Bool.not_true, Bool.not_false, Bool.false_eq_true, if_false]
  rfl

end

theorem State.returnPort_readmits {s : State} {p : Nat} (h : (s.port p).broken = false) : s.returnPort p = s.readmitPort p :=
  if_neg (by simp [h])

/-- Settles O22: under each step's hypotheses its command's condition holds (`when_next`); every line of a readmitted port goes out of its
role once (`State.line_againLines`). -/
theorem sparesRotateAndPortsGoDark : Obligations.SparesRotateAndPortsGoDark := by
  refine ⟨?start, ?swap, ?leave, ?cal, ?soak, ?loss, ?declare, ?drop, ?back, ?readmit⟩
  case start => exact fun s p sec n i hp => execSpareRotationStart_starts hp
  case swap => exact fun s p i hp => execRotationMaskAck_swaps hp
  case leave => exact fun s p hp => execRotationLineLeave_recalibrates hp
  case cal => exact fun s p hp => execRotationCalDone_locks hp
  case soak => exact fun s p r hp => execRotationSoakEnd_passes hp
  case loss => exact fun s p power hp => execAprLightLoss_starts hp
  case declare => exact fun s p ms hp => execAprDeclare_reduces hp
  case drop => exact fun s p power hp => execAprLightReturn_drops hp
  case back =>
    intro s u p power hp hlit hapr hu hok hwhole
    rw [← State.returnPort_readmits hwhole]
    exact execAprLightReturn_returns hp hlit hapr hu hok
  case readmit =>
    intro s p w hrails hold hw
    rw [State.readmitPort_searched hrails hold, State.port_updPort_same, State.line_updPort]
    exact ⟨rfl, rfl, rfl, State.line_againLines List.nodup_range (List.mem_range.2 hw)⟩

end Sys2Proof.Machine
end

section
/-! PROOFS. The head entry of a triggered-operation list, data cells sent and consumed by a collective engine (09 R249, R252, R253, R257,
R259, R268), and O25. -/

namespace Sys2Proof.Machine

/-! ## The head entry of a list (R252, R253, R257) -/

section
variable {s u v : State} {q e : Nat} {d : Desc}

theorem State.startEntry_cadd (hopc : tolOpc d = 0x440) : s.startEntry q e d =
    (((s.updEng e fun x => { x with lastCid := tolCid d }).ctrAsk (.engine e) (bitsOf (Desc.word d 5) 11 0)
      (.add ((Desc.word d 6).setWidth 48))).tolDone q e d 0#32) := by
  simp only [State.startEntry, hopc]

/-- An entry that runs on a tree pair keeps its engine busy. -/
theorem State.startEntry_onPair (hopc : tolOpc d = 0x441 ∨ tolOpc d = 0x442 ∨ tolOpc d = 0x443) : s.startEntry q e d =
    ((s.updEng e fun x => { x with lastCid := tolCid d }).updEng e fun x => { x with inprog := x.inprog + 1 }).startRun q e d := by
  rcases hopc with h | h | h <;> simp only [State.startEntry, h]

theorem onPair_iff (o : Nat) : onPair o = true ↔ o = 0x441 ∨ o = 0x442 ∨ o = 0x443 := by
  simp [onPair, or_assoc]

section
variable (hq : q < 8192) (htyp : (s.que q).typ = 6) (hhas : (s.que q).has = true) (heng : (s.que q).eng = e) (hroom : (s.eng e).inprog < 8)
  (hu : u = (s.entryAt (.coll e) q (s.que q).head).1) (hd : d = (s.entryAt (.coll e) q (s.que q).head).2.map (·.1))
  (hv : v = if tolTen d then (u.ctrRead (.engine e) (tolTctr d)).1 else u)
include hq htyp hhas heng hroom hu hd hv

/-- An engine with room reads the head entry of a list and its trigger, and then goes by them. -/
theorem execTolEntryStart_reads : execTolEntryStart q s =
    if tolTen d ∧ (u.ctrSeen (tolTctr d)).toNat < tolTthr d then .next v
    else if v.tolBad d then .next (((v.popHead q).tolRecord q d 0x103 0#32).stopTol q e)
    else if onPair (tolOpc d) ∧ v.pairBusy d then .next v
    else .next ((v.popHead q).startEntry q e d) := by
  have hlist : q ≠ seqTol := Nat.ne_of_lt hq
  have hopen : ¬((s.que q).typ ≠ 6 ∨ (!(s.que q).has) = true ∨ 8 ≤ (s.eng (s.que q).eng).inprog) := by simp [htyp, hhas, heng, hroom]
  have hv' : (if tolTen d then u.ctrRead (.engine e) (tolTctr d) else (u, 0#48)).1 = v := by rw [apply_ite Prod.fst, hv]
  have htrig : (tolTen d ∧ (if tolTen d then u.ctrRead (.engine e) (tolTctr d) else (u, 0#48)).2.toNat < tolTthr d) ↔
      tolTen d ∧ (u.ctrSeen (tolTctr d)).toNat < tolTthr d := and_congr_right fun h => by rw [if_pos h, State.ctrRead]
  rw [execTolEntryStart, unit_of_lt (Nat.lt_succ_of_lt hq), if_neg hlist, if_neg hopen, heng]
  simp only [← hd, ← hu, hv', htrig]

theorem execTolEntryStart_waits (hten : tolTen d = true) (hbelow : (u.ctrSeen (tolTctr d)).toNat < tolTthr d) :
    execTolEntryStart q s = .next v := by
  rw [execTolEntryStart_reads hq htyp hhas heng hroom hu hd hv, if_pos ⟨hten, hbelow⟩]

section
variable (htrig : tolTen d = true → tolTthr d ≤ (u.ctrSeen (tolTctr d)).toNat)
include htrig

theorem execTolEntryStart_refuses (hbad : v.tolBad d = true) :
    execTolEntryStart q s = .next (((v.popHead q).tolRecord q d 0x103 0#32).stopTol q e) := by
  rw [execTolEntryStart_reads hq htyp hhas heng hroom hu hd hv, if_neg fun h => Nat.not_lt.2 (htrig h.1) h.2, if_pos hbad]

theorem execTolEntryStart_starts (hgood : v.tolBad d = false) (hfree : onPair (tolOpc d) = true → v.pairBusy d = false) :
    execTolEntryStart q s = .next ((v.popHead q).startEntry q e d) := by
  rw [execTolEntryStart_reads hq htyp hhas heng hroom hu hd hv, if_neg fun h => Nat.not_lt.2 (htrig h.1) h.2, if_neg (by simp [hgood]),
    if_neg fun h => Bool.false_ne_true ((hfree h.1).symm.trans h.2)]

theorem execTolEntryStart_stays (hgood : v.tolBad d = false) (hpair : onPair (tolOpc d) = true) (hbusy : v.pairBusy d = true) :
    execTolEntryStart q s = .next v := by
  rw [execTolEntryStart_reads hq htyp hhas heng hroom hu hd hv, if_neg fun h => Nat.not_lt.2 (htrig h.1) h.2, if_neg (by simp [hgood]),
    if_pos ⟨hpair, hbusy⟩]

end

end

end

/-! ## Sending data cells (R249, R259, R262) -/

section
variable {s : State} {r : CollRun} {tp t : Nat}

/-- The only run sends for its pair where it has data for the direction. -/
theorem execCollCellSend_sends {u : State} {down : Bool} (htp : tp < 4) (ht : t < 2) (hruns : s.coll.runs = [r]) (hpair : r.tp = tp)
    (hopc : r.opc = 0x441) (huses : colUses r.ent t = true) (hsend : (if down then s.tryDown r t else s.tryUp r t) = some u) :
    execCollCellSend tp t down s = .next u := by
  have hfilter : (s.coll.runs.filter fun r => r.tp == tp && r.opc == 0x441 && colUses r.ent t) = [r] := by
    simp [hruns, hpair, hopc, huses]
  rw [execCollCellSend, unit_of_lt htp, unit_of_lt ht, hfilter, List.findSome?_cons, hsend]
  rfl

/-- A node below the root combines the partials that are ready and sends as many as a cell takes. -/
theorem State.tryUp_reduces {n : Nat} {z : Work × List Elem} {us : List Elem} {y : State × CollRun} (hkind : colKind r.ent ≤ 2)
    (hroot : (s.tree r.tp t).root = false) (hup : (s.lid (s.tree r.tp t).parent).st = .up)
    (hslots : 3 ≤ s.slotCredits (s.tree r.tp t).parent (6 + t))
    (hn : n = min (s.upReady r t) (wireCap (colUpWire r.ent) (colL r.ent))) (hn0 : n ≠ 0)
    (hz : z = ({ s := s, r := r, lost := false } : Work).combine t n)
    (hus : us = cellTake (colUpWire r.ent) (colL r.ent) (r.tree t).upAt z.2)
    (hy : y = z.1.s.sendCell z.1.r (s.tree r.tp t).parent t 0 (colUpWire r.ent) (r.tree t).upAt us) :
    s.tryUp r t = some ({ z.1 with s := y.1, r := y.2.setTree t ((y.2.tree t).used us.length) } : Work).settle := by
  have hgo : ¬((s.tree r.tp t).root = true ∨ (s.lid (s.tree r.tp t).parent).st ≠ .up ∨
      s.slotCredits (s.tree r.tp t).parent (6 + t) < 3) := by simp [hroot, hup, hslots]
  subst hy hus hz hn
  rw [State.tryUp, if_neg hgo, if_pos hkind, if_neg hn0]

/-- A node sends the first chunk whose child has slots, and keeps what the cell does not take. -/
theorem State.tryDown_sends {c : Nat × Chunk} {us rest : List Elem} {y : State × CollRun}
    (hc : (r.tree t).dnq.find? (fun c => (s.lid ((s.tree r.tp t).child c.1)).st == .up &&
      decide (s.slotCredits ((s.tree r.tp t).child c.1) (8 + t) ≥ 3)) = some c)
    (hus : us = cellTake (colDnWire r.ent) (colL r.ent) c.2.idx c.2.units) (hrest : rest = c.2.units.drop us.length)
    (hy : y = s.sendCell r ((s.tree r.tp t).child c.1) t (c.1 + 1) (colDnWire r.ent) c.2.idx us) :
    s.tryDown r t = some ({ s := y.1, lost := false, r := y.2.setTree t { y.2.tree t with
      dnq := if rest.isEmpty then (r.tree t).dnq.erase c
             else (r.tree t).dnq.map fun x => if x = c then (c.1, { idx := c.2.idx + us.length, units := rest }) else x } } : Work).settle := by
  subst hy hrest hus
  simp only [State.tryDown, hc]

end

/-! ## Consuming data cells (R249, R259, R271) -/

section
variable {s : State} {l : Nat} {x : CSlot} {xs : List CSlot}

/-- A LID's engine takes the cell at the front of its slots where it can consume it: a run's joins it, one of no run is stale. -/
theorem execCollCellReceive_takes (hl : l < 96) (hslots : s.coll.slots = x :: xs) (hlid : x.lid = l) (hcan : s.consumable x = true)
    (htag : x.cell.qtag ≠ 0xFFFF) : execCollCellReceive l s = .next ((s.collRun x.tp x.cell.qtag).elim
      ((s.freeSlot x).updEng (s.lid l).port fun e => { e with stale := satAdd 8 e.stale 1 }) (s.runCell x)) := by
  have hfirst : s.firstOf x = true := by simp [State.firstOf, hslots]
  have hfind : (s.coll.slots.find? fun x => x.lid == l && s.firstOf x && s.consumable x) = some x := by
    simp [hslots, hlid, hfirst, hcan]
  simp only [execCollCellReceive, unit_of_lt hl, hfind, if_neg htag]
  cases s.collRun x.tp x.cell.qtag <;> rfl

end

theorem CollRun.setTree_tp (r : CollRun) (t : Nat) (x : TreeRun) : (r.setTree t x).tp = r.tp := by
  unfold CollRun.setTree
  split <;> rfl

theorem Work.rootUp_below {w : Work} {t : Nat} (h : (w.s.tree w.r.tp t).root = false) : w.rootUp t = w := by
  simp [Work.rootUp, h]

/-- Partials of CHILD0 that reach a node below the root wait there, each under its index. -/
theorem Work.data_partials {w : Work} {x : CSlot} {i : Nat} {us : List Elem} (htyp : x.cell.typ = 0x10) (hkind : colKind w.r.ent ≤ 2)
    (hring : x.ring = 0) (hroot : (w.s.tree w.r.tp x.tree).root = false)
    (hunits : cellUnits (colUpWire w.r.ent) (colL w.r.ent) x.cell = (i, us)) :
    w.data x = { w with r := w.r.setTree x.tree { w.r.tree x.tree with
      c0 := (w.r.tree x.tree).c0 ++ us.zipIdx.map fun u => (i + u.2, u.1) } } := by
  have hup : ¬x.cell.typ = 0x18 := by rw [htyp]; decide
  rw [Work.data, if_neg hup, if_neg (Nat.not_le.2 (Nat.lt_succ_of_le hkind)), hunits]
  simp only [hring, if_true]
  exact Work.rootUp_below (by rw [CollRun.setTree_tp]; exact hroot)

/-- Settles O25: a list's head entry goes by its trigger and its checks (`execTolEntryStart_reads`); the only run of a pair sends what it
has ready (`State.tryUp_reduces`, `State.tryDown_sends`), and a LID's engine takes the front cell that it can
(`execCollCellReceive_takes`). -/
theorem entriesStartAndDataMoves : Obligations.EntriesStartAndDataMoves := by
  refine ⟨?entry, ?up, ?down, ?receive, ?stale, ?partials⟩
  case entry =>
    intro s u v q e d hq htyp hhas heng hroom hu hd hv
    refine ⟨fun h => execTolEntryStart_waits hq htyp hhas heng hroom hu hd hv h.1 h.2, fun htrig => ⟨?refused, ?cadd, ?pair⟩⟩
    case refused => exact execTolEntryStart_refuses hq htyp hhas heng hroom hu hd hv htrig
    case cadd =>
      intro hopc hgood
      rw [← State.startEntry_cadd hopc]
      exact execTolEntryStart_starts hq htyp hhas heng hroom hu hd hv htrig hgood fun h => by simp [onPair_iff, hopc] at h
    case pair =>
      intro hopc hgood
      refine ⟨fun hfree => ?_, execTolEntryStart_stays hq htyp hhas heng hroom hu hd hv htrig hgood ((onPair_iff _).2 hopc)⟩
      rw [← State.startEntry_onPair hopc]
      exact execTolEntryStart_starts hq htyp hhas heng hroom hu hd hv htrig hgood fun _ => hfree
  case up =>
    rintro s tp t n r z us y htp ht hruns rfl hopc huses hkind hroot hup hslots hn hn0 hz hus hy
    exact execCollCellSend_sends htp ht hruns rfl hopc huses (State.tryUp_reduces hkind hroot hup hslots hn hn0 hz hus hy)
  case down =>
    rintro s tp t r c us rest y htp ht hruns rfl hopc huses hc hus hrest hy
    exact execCollCellSend_sends htp ht hruns rfl hopc huses (State.tryDown_sends hc hus hrest hy)
  case receive =>
    intro s l x xs r hl hslots hlid hcan htag hrun
    refine (execCollCellReceive_takes hl hslots hlid hcan htag).trans ?_
    rw [hrun]
    rfl
  case stale =>
    intro s l x xs hl hslots hlid hcan htag hrun
    refine (execCollCellReceive_takes hl hslots hlid hcan htag).trans ?_
    rw [hrun]
    rfl
  case partials => exact fun w x i us htyp hkind hring hroot hunits => Work.data_partials htyp hkind hring hroot hunits

end Sys2Proof.Machine
end

section
/-! PROOFS. The time limits of votes, collectives and tree plans, and the outcome of a vote (09 R256, R268, R269), and O26. -/

namespace Sys2Proof.Machine

section
variable {s : State} {r : CollRun}

/-! ## Votes (R268) -/

theorem execVoteRootTimeout_ends {r' : CollRun} {t ms : Nat} (ht : t < 2) (hruns : s.coll.runs = [r]) (hopc : r.opc = 0x443)
    (hroot : (s.tree r.tp t).root = true) (hsent : (r.tree t).sent = false) (hms : s.jc.voteTmo ≤ ms)
    (hr' : r' = r.setTree t { r.tree t with sent := true, down := some (false, false, true) }) :
    execVoteRootTimeout t ms s = .next (((s.ctlDown r.tp t 1 r.cid (Desc.word r.ent 6) 4#32).putRun r').finishRun r') := by
  have hfind : (s.coll.runs.find? fun r => r.opc == 0x443 && (s.tree r.tp t).root && !(r.tree t).sent) = some r := by
    simp [hruns, hopc, hroot, hsent]
  subst hr'
  rw [execVoteRootTimeout, unit_of_lt ht, hfind]
  exact when_next (decide_eq_true hms)

/-- An entry that asks for no add and no record ends without a trace. -/
theorem State.tolDone_quiet {d : Desc} (q e : Nat) (d0 : W32) (hcen : tolCen d = false) (hnotify : tolNotify d = false) :
    s.tolDone q e d d0 = s := by
  simp [State.tolDone, State.tolRecord, hcen, hnotify]

/-- A run that leaves its engine leaves the vote register as it was. -/
theorem State.dropRun_vote (s : State) (r : CollRun) :
    (s.dropRun r).coll.vCommit = s.coll.vCommit ∧ (s.dropRun r).coll.vOvf = s.coll.vOvf := by
  unfold State.dropRun
  split <;> exact ⟨rfl, rfl⟩

/-- The outcome of a list's vote, as COL_VOTE shows it. -/
theorem State.voteOutcome_register (a b : Bool × Bool × Bool) (hlist : r.q ≠ seqTol) (hcen : tolCen r.ent = false)
    (hnotify : tolNotify r.ent = false) :
    (s.voteOutcome r a b).coll.vCommit = (a.1 && b.1 && !a.2.1 && !b.2.1 && !a.2.2 && !b.2.2) ∧
    (s.voteOutcome r a b).coll.vOvf = (a.2.1 || b.2.1) := by
  rw [State.voteOutcome, if_neg hlist, State.tolDone_quiet _ _ _ hcen hnotify]
  exact State.dropRun_vote _ r

/-! ## Collectives without progress (R268, R269) -/

theorem execCollTimeout_aborts {cid ms : Nat} (hruns : s.coll.runs = [r]) (hcid : r.cid = cid) (hopc : r.opc ≠ 0x443)
    (hms : s.jc.collTmo ≤ ms) : execCollTimeout cid ms s =
      .next (((if r.sealed then s.report (rep 2 (10 + r.eng) 0 18 0x40 cid) else s).abortRun r none).settle) := by
  have hfind : (s.coll.runs.find? fun r => r.cid == cid && r.opc != 0x443) = some r := by simp [hruns, hcid, hopc]
  rw [execCollTimeout, hfind]
  exact when_next (decide_eq_true hms)

/-! ## The census of a plan (R256) -/

theorem execCensusTimeout_rejects {ms x : Nat} (hx : s.censusTrees.find? (fun y => !s.coll.censusDn.contains y) = some x) (hms : 10 ≤ ms) :
    execCensusTimeout ms s = .next (s.rejectPlan x) := by
  rw [execCensusTimeout, hx]
  exact when_next (decide_eq_true hms)

theorem State.rejectPlan_finishes {h : Nat} {p : Tab TreeEnt} (x : Nat) (hplan : s.coll.newPlan = some (p, h)) : s.rejectPlan x =
    (s.updColl fun c => { c with newPlan := none, census := [], censusDn := [] }).finishLong h 0x10D (BitVec.ofNat 32 x) 0#32 0#32 0#32 := by
  rw [State.rejectPlan, hplan]

end

/-- Settles O26: each timer finds the one run or tree that it limits; a vote's outcome stays in COL_VOTE while its run and entry end
(`State.voteOutcome_register`), and a rejected plan ends its command alone (`State.finishLong_ended`, `State.finishLong_host`). -/
theorem collectivesAbortAtTheirLimits : Obligations.CollectivesAbortAtTheirLimits := by
  refine ⟨?vote, ?outcome, ?progress, ?census⟩
  case vote => exact fun s t ms r r' ht hruns hopc hroot hsent hms hr' => execVoteRootTimeout_ends ht hruns hopc hroot hsent hms hr'
  case outcome => exact fun s r ha oa ta hb ob tb => State.voteOutcome_register (ha, oa, ta) (hb, ob, tb)
  case progress =>
    intro s cid ms r hruns hcid hopc hms
    have hruns' := execCollTimeout_aborts hruns hcid hopc hms
    exact ⟨fun h => by rw [h] at hruns'; exact hruns', fun h => by rw [h] at hruns'; exact hruns'⟩
  case census =>
    rintro s ms x _ p l hplan hlong rfl hx hms
    have hframe := (s.updColl fun c => { c with newPlan := none, census := [], censusDn := [] }).finishLong_host l.idx 0x10D
      (BitVec.ofNat 32 x) 0#32 0#32 0#32
    refine ⟨_, (execCensusTimeout_rejects hx hms).trans (congrArg _ (State.rejectPlan_finishes x hplan)), ?_, ?_,
      State.finishLong_ended (s := s.updColl _) hlong .., ?_⟩ <;> rw [hframe] <;> rfl

end Sys2Proof.Machine
end

section
/-! PROOFS. The order of the units of an attempt (10 R280 to R282), and O30. -/

namespace Sys2Proof.Machine

/-! ## Lists that rise by a key -/

section
variable {α : Type} {key : α → Nat} {l : List α}

/-- In a list that rises by a key, what has the smaller key comes first. -/
theorem idxOf_lt_of_rising [BEq α] [LawfulBEq α] (hl : l.Pairwise fun x y => key x < key y) {x y : α} (hx : x ∈ l) (hy : y ∈ l)
    (h : key x < key y) : l.idxOf x < l.idxOf y := by
  have hix := List.idxOf_lt_length_of_mem hx
  have hiy := List.idxOf_lt_length_of_mem hy
  rcases Nat.lt_trichotomy (l.idxOf x) (l.idxOf y) with hlt | heq | hgt
  · exact hlt
  · rw [← List.getElem_idxOf hix, ← List.getElem_idxOf hiy] at h
    simp only [heq, Nat.lt_irrefl] at h
  · have hrise := List.pairwise_iff_getElem.1 hl _ _ hiy hix hgt
    rw [List.getElem_idxOf, List.getElem_idxOf] at hrise
    omega

theorem nodup_of_rising (hl : l.Pairwise fun x y => key x < key y) : l.Nodup :=
  hl.imp fun {x y} h (he : x = y) => Nat.lt_irrefl _ (he ▸ h)

/-- What stands before `x` in a list that rises by a key is what has a smaller key. -/
theorem mem_before_iff {a b : List α} {x y : α} (hl : (a ++ x :: b).Pairwise fun x y => key x < key y) (hy : y ∈ a ++ x :: b) :
    y ∈ a ↔ key y < key x := by
  obtain ⟨-, hxb, hbefore⟩ := List.pairwise_append.1 hl
  refine ⟨fun ha => hbefore y ha x List.mem_cons_self, fun h => ?_⟩
  rcases List.mem_append.1 hy with ha | hb
  · exact ha
  · rcases List.mem_cons.1 hb with rfl | hb
    · omega
    · have := (List.pairwise_cons.1 hxb).1 y hb
      omega

end

section
variable {α : Type} {p : α → Bool} {l : List α} {n : Nat} (g : Nat → α)

/-- A list that has n different values of a predicate counts at least n of them. -/
theorem le_countP_of_subset (hg : Function.Injective g) (h : ∀ i < n, g i ∈ l ∧ p (g i) = true) : n ≤ l.countP p := by
  have hsub : (List.range n).map g ⊆ l.filter p := by simpa [List.subset_def] using h
  have hle := (List.subperm_of_subset (List.nodup_range.map hg) hsub).length_le
  rwa [List.length_map, List.length_range, ← List.countP_eq_length_filter] at hle

/-- A list without repetition whose values of a predicate are among n values counts at most n of them. -/
theorem countP_le_of_subset (hl : l.Nodup) (h : ∀ x ∈ l, p x = true → ∃ i < n, g i = x) : l.countP p ≤ n := by
  have hsub : l.filter p ⊆ (List.range n).map g := fun x hx => by
    obtain ⟨hin, hpx⟩ := List.mem_filter.1 hx
    simpa using h x hin hpx
  have hle := (List.subperm_of_subset (hl.filter p) hsub).length_le
  rwa [List.length_map, List.length_range, ← List.countP_eq_length_filter] at hle

end

/-! ## Units and their numbers (R280) -/

/-- The number of the forward of stage `v` and microbatch `m` among the forwards. -/
def fwdIndex (P V v m : Nat) : Nat := m / P * (P * V) + (v * P + m % P)

section
variable {P V : Nat} (hP : 0 < P)
include hP

theorem fwdIndex_offset_lt {v : Nat} (m : Nat) (hv : v < V) : v * P + m % P < P * V := by
  have hmod := Nat.mod_lt m hP
  calc v * P + m % P < (v + 1) * P := by rw [Nat.succ_mul]; omega
    _ ≤ V * P := Nat.mul_le_mul_right P hv
    _ = P * V := Nat.mul_comm ..

theorem fwdIndex_div {v : Nat} (m : Nat) (hv : v < V) : fwdIndex P V v m / (P * V) = m / P := by
  have hoff := fwdIndex_offset_lt hP m hv
  rw [fwdIndex, Nat.add_comm, Nat.add_mul_div_right _ _ (by omega), Nat.div_eq_of_lt hoff, Nat.zero_add]

theorem fwdUnit_fwdIndex {v : Nat} (m : Nat) (hv : v < V) : fwdUnit P V (fwdIndex P V v m) = (v, m) := by
  have hoff := fwdIndex_offset_lt hP m hv
  have hr : fwdIndex P V v m % (P * V) = v * P + m % P := by
    rw [fwdIndex, Nat.mul_add_mod_self_right, Nat.mod_eq_of_lt hoff]
  have hstage : (v * P + m % P) / P = v := by
    rw [Nat.add_comm, Nat.add_mul_div_right _ _ hP, Nat.div_eq_of_lt (Nat.mod_lt m hP), Nat.zero_add]
  have hbatch : (v * P + m % P) % P = m % P := by
    rw [Nat.mul_add_mod_self_right, Nat.mod_mod]
  simp only [fwdUnit, hr, fwdIndex_div hP m hv, hstage, hbatch, Nat.div_add_mod']

theorem fwdIndex_fwdUnit (i : Nat) : fwdIndex P V (fwdUnit P V i).1 (fwdUnit P V i).2 = i := by
  have hmod := Nat.mod_lt (i % (P * V)) hP
  have hq : (i / (P * V) * P + i % (P * V) % P) / P = i / (P * V) := by
    rw [Nat.add_comm, Nat.add_mul_div_right _ _ hP, Nat.div_eq_of_lt hmod, Nat.zero_add]
  simp only [fwdUnit, fwdIndex, hq, Nat.mul_add_mod_self_right, Nat.mod_mod, Nat.div_add_mod']

theorem fwdUnit_stage_lt (hV : 0 < V) (i : Nat) : (fwdUnit P V i).1 < V :=
  Nat.div_lt_of_lt_mul (Nat.mod_lt i (Nat.mul_pos hP hV))

/-- Of one stage, later microbatches have larger numbers. -/
theorem fwdIndex_lt (v : Nat) {m k : Nat} (h : m < k) (hv : v < V) : fwdIndex P V v m < fwdIndex P V v k := by
  have hm := Nat.div_add_mod' m P
  have hk := Nat.div_add_mod' k P
  rcases (Nat.div_le_div_right h.le : m / P ≤ k / P).lt_or_eq with hlt | heq
  · have hoff := fwdIndex_offset_lt hP m hv
    have hle : (m / P + 1) * (P * V) ≤ k / P * (P * V) := Nat.mul_le_mul_right _ hlt
    rw [Nat.succ_mul] at hle
    rw [fwdIndex, fwdIndex]
    omega
  · rw [fwdIndex, fwdIndex, heq]
    rw [heq] at hm
    omega

/-- The forwards of an attempt are the numbers below M·V: with more than one stage the microbatches come in whole groups of P. -/
theorem fwdIndex_lt_iff {M v m : Nat} (hv : v < V) (hM : 1 < V → M % P = 0) : fwdIndex P V v m < M * V ↔ m < M := by
  rcases Nat.lt_or_ge 1 V with hV | hV
  · obtain ⟨g, rfl⟩ := Nat.dvd_of_mod_eq_zero (hM hV)
    have hgroup : m < P * g ↔ m / P < g := by rw [Nat.div_lt_iff_lt_mul hP, Nat.mul_comm]
    have hoff := fwdIndex_offset_lt hP m hv
    have hsize : P * g * V = g * (P * V) := by rw [Nat.mul_comm P g, Nat.mul_assoc]
    rw [hgroup, hsize, ← fwdIndex_div hP m hv, Nat.div_lt_iff_lt_mul (by omega)]
  · obtain rfl : V = 1 := by omega
    obtain rfl : v = 0 := by omega
    simp [fwdIndex, Nat.div_add_mod']

end

/-! ## The order by a key -/

/-- Number of the forwards before the first backward. -/
def warmup (P p V M : Nat) : Nat := min (M * V) (if V = 1 then P - p - 1 else 2 * (P - p - 1) + (V - 1) * P)

/-- The i-th forward, and the i-th backward, as units of the order. -/
def fwdAt (P V i : Nat) : Nat × Nat × Nat := (0, (fwdUnit P V i).1, (fwdUnit P V i).2)
def bwdAt (P V i : Nat) : Nat × Nat × Nat := (1, V - 1 - (fwdUnit P V i).1, (fwdUnit P V i).2)

theorem unitOrder_eq (P p V M : Nat) : unitOrder P p V M =
    (List.range (warmup P p V M)).map (fwdAt P V) ++
      (List.range (M * V - warmup P p V M)).flatMap (fun i => [fwdAt P V (warmup P p V M + i), bwdAt P V i]) ++
      (from_ (M * V - warmup P p V M) (warmup P p V M)).map (bwdAt P V) := rfl

/-- A key by which the order rises: the i-th forward at 2i, the i-th backward just after the forward that it alternates with. -/
def unitKey (P p V M : Nat) (u : Nat × Nat × Nat) : Nat :=
  if u.1 = 0 then 2 * fwdIndex P V u.2.1 u.2.2 else 2 * (fwdIndex P V (V - 1 - u.2.1) u.2.2 + warmup P p V M) + 1

section
variable {P p V M : Nat} (hP : 0 < P)
include hP

theorem unitKey_fwdAt (i : Nat) : unitKey P p V M (fwdAt P V i) = 2 * i := by
  simp only [unitKey, fwdAt, if_true, fwdIndex_fwdUnit hP]

theorem unitKey_bwdAt (hV : 0 < V) (i : Nat) : unitKey P p V M (bwdAt P V i) = 2 * (i + warmup P p V M) + 1 := by
  have hstage := fwdUnit_stage_lt hP hV i
  have hback : V - 1 - (V - 1 - (fwdUnit P V i).1) = (fwdUnit P V i).1 := by omega
  simp only [unitKey, bwdAt, Nat.one_ne_zero, if_false, hback, fwdIndex_fwdUnit hP]

theorem unitOrder_rises (hV : 0 < V) : (unitOrder P p V M).Pairwise fun x y => unitKey P p V M x < unitKey P p V M y := by
  have hf := fun i => unitKey_fwdAt (p := p) (V := V) (M := M) hP i
  have hb := fun i => unitKey_bwdAt (p := p) (M := M) hP hV i
  rw [unitOrder_eq, List.pairwise_append, List.pairwise_append, List.pairwise_flatMap, List.pairwise_map, List.pairwise_map, from_,
    List.pairwise_map]
  simp only [List.forall_mem_append, List.forall_mem_map, List.forall_mem_flatMap, List.forall_mem_cons, List.mem_range, List.pairwise_cons,
    List.not_mem_nil, false_implies, implies_true, and_true, List.Pairwise.nil, hf, hb]
  refine ⟨⟨List.pairwise_lt_range.imp fun h => by omega, ⟨fun i _ => by omega, List.pairwise_lt_range.imp fun h => by omega⟩,
    fun i hi j hj => by omega⟩, List.pairwise_lt_range.imp fun h => by omega, fun i hi j hj => by omega,
    fun i hi => ⟨fun j hj => by omega, fun j hj => by omega⟩⟩

omit hP in
theorem mem_unitOrder {u : Nat × Nat × Nat} : u ∈ unitOrder P p V M ↔ ∃ i < M * V, u = fwdAt P V i ∨ u = bwdAt P V i := by
  have hw : warmup P p V M ≤ M * V := Nat.min_le_left ..
  simp only [unitOrder_eq, from_, List.mem_append, List.mem_map, List.mem_flatMap, List.mem_range, List.mem_cons, List.not_mem_nil, or_false,
    exists_exists_and_eq_and]
  constructor
  · rintro ((⟨i, hi, rfl⟩ | ⟨i, hi, rfl | rfl⟩) | ⟨i, hi, rfl⟩)
    · exact ⟨i, by omega, .inl rfl⟩
    · exact ⟨_, by omega, .inl rfl⟩
    · exact ⟨i, by omega, .inr rfl⟩
    · exact ⟨_, by omega, .inr rfl⟩
  · rintro ⟨i, hi, rfl | rfl⟩
    · rcases Nat.lt_or_ge i (warmup P p V M) with h | h
      · exact .inl (.inl ⟨i, h, rfl⟩)
      · exact .inl (.inr ⟨i - warmup P p V M, by omega, .inl (by rw [Nat.add_sub_cancel' h])⟩)
    · rcases Nat.lt_or_ge i (M * V - warmup P p V M) with h | h
      · exact .inl (.inr ⟨i, h, .inr rfl⟩)
      · exact .inr ⟨i - (M * V - warmup P p V M), by omega, by rw [Nat.add_sub_cancel' h]⟩

theorem mem_unitOrder_iff (hV : 0 < V) (hM : 1 < V → M % P = 0) (k v m : Nat) :
    (k, v, m) ∈ unitOrder P p V M ↔ k < 2 ∧ v < V ∧ m < M := by
  have hnum {v m : Nat} (hv : v < V) : fwdIndex P V v m < M * V ↔ m < M := fwdIndex_lt_iff hP hv hM
  rw [mem_unitOrder]
  constructor
  · rintro ⟨i, hi, h⟩
    have hstage := fwdUnit_stage_lt hP hV i
    have hbatch : (fwdUnit P V i).2 < M := (hnum hstage).1 (by rwa [fwdIndex_fwdUnit hP])
    rcases h with h | h <;> cases h <;> exact ⟨by omega, by omega, hbatch⟩
  · rintro ⟨hk, hv, hm⟩
    obtain rfl | rfl : k = 0 ∨ k = 1 := by omega
    · exact ⟨fwdIndex P V v m, (hnum hv).2 hm, .inl (by rw [fwdAt, fwdUnit_fwdIndex hP m hv])⟩
    · have hv' : V - 1 - v < V := by omega
      have hback : V - 1 - (V - 1 - v) = v := by omega
      exact ⟨fwdIndex P V (V - 1 - v) m, (hnum hv').2 hm, .inr (by rw [bwdAt, fwdUnit_fwdIndex hP m hv', hback])⟩

end

/-! ## The peak of a stage (R282) -/

/-- Forwards of stage `v` that are ahead of its backwards, and the most that there were, after one more unit. -/
def peakStep (v : Nat) (a : Nat × Nat) (u : Nat × Nat × Nat) : Nat × Nat :=
  if u.2.1 ≠ v then a else if u.1 = 0 then (a.1 + 1, max a.2 (a.1 + 1)) else (a.1 - 1, a.2)

theorem peakOf_eq (l : List (Nat × Nat × Nat)) (v : Nat) : peakOf l v = (l.foldl (peakStep v) (0, 0)).2 := rfl

theorem le_peakStep (v : Nat) (a : Nat × Nat) (u : Nat × Nat × Nat) : a.2 ≤ (peakStep v a u).2 := by
  unfold peakStep
  split
  · exact Nat.le_refl _
  · split
    · exact Nat.le_max_left ..
    · exact Nat.le_refl _

theorem le_foldl_peakStep (v : Nat) (l : List (Nat × Nat × Nat)) (a : Nat × Nat) : a.2 ≤ (l.foldl (peakStep v) a).2 :=
  List.foldlRecOn l (peakStep v) (motive := fun b => a.2 ≤ b.2) (Nat.le_refl _) fun b hb u _ => hb.trans (le_peakStep v b u)

/-- The forwards, and the other units, of stage `v`. -/
def isFwd (v : Nat) (u : Nat × Nat × Nat) : Bool := u.2.1 == v && u.1 == 0
def isBwd (v : Nat) (u : Nat × Nat × Nat) : Bool := u.2.1 == v && u.1 != 0

/-- A stage's forwards are at most those counted as ahead and its backwards. -/
theorem countP_isFwd_le (v : Nat) (l : List (Nat × Nat × Nat)) (a : Nat × Nat) :
    a.1 + l.countP (isFwd v) ≤ (l.foldl (peakStep v) a).1 + l.countP (isBwd v) := by
  induction l generalizing a with
  | nil => simp
  | cons u l ih =>
    have hl := ih (peakStep v a u)
    rw [List.foldl_cons, List.countP_cons, List.countP_cons]
    by_cases hv : u.2.1 = v
    · by_cases hk : u.1 = 0
      · simp [peakStep, isFwd, isBwd, hv, hk] at hl ⊢
        omega
      · simp [peakStep, isFwd, isBwd, hv, hk] at hl ⊢
        omega
    · simp [peakStep, isFwd, isBwd, hv] at hl ⊢
      omega

/-- A forward of stage `v` raises the peak to all the stage's forwards up to it less the backwards before it. -/
theorem countP_isFwd_lt_peakOf {v m : Nat} (a b : List (Nat × Nat × Nat)) :
    a.countP (isFwd v) < peakOf (a ++ (0, v, m) :: b) v + a.countP (isBwd v) := by
  have hahead := countP_isFwd_le v a (0, 0)
  have hpeak := le_foldl_peakStep v b (peakStep v (a.foldl (peakStep v) (0, 0)) (0, v, m))
  have hstep : (peakStep v (a.foldl (peakStep v) (0, 0)) (0, v, m)).2 ≥ (a.foldl (peakStep v) (0, 0)).1 + 1 := by
    simp [peakStep]
  rw [peakOf_eq, List.foldl_append, List.foldl_cons]
  omega

section
variable {P p V M v m q : Nat} (hP : 0 < P) (hM : 1 < V → M % P = 0) (hv : v < V) (hm : m < M)
include hP hM hv hm

/-- A stage's forward comes before the backward of its microbatch. -/
theorem unitKey_fwd_lt_bwd : unitKey P p V M (0, v, m) < unitKey P p V M (1, v, m) := by
  have hnum := (fwdIndex_lt_iff hP hv hM).2 hm
  have hstages : v * P ≤ (V - 1) * P := Nat.mul_le_mul_right P (by omega)
  have hwarm : M * V ≤ warmup P p V M ∨ v * P ≤ warmup P p V M := by
    rw [warmup]
    split
    · rename_i hone
      rw [hone, Nat.sub_self, Nat.zero_mul] at hstages
      omega
    · omega
  simp only [unitKey, fwdIndex, if_true, Nat.one_ne_zero, if_false] at hnum ⊢
  omega

section
variable {a b : List (Nat × Nat × Nat)} (hab : unitOrder P p V M = a ++ (0, v, m) :: b)
include hab

/-- Before the forward of microbatch m of a stage stand those of the m microbatches before it. -/
theorem le_countP_isFwd_before : m ≤ a.countP (isFwd v) := by
  have hmem := mem_unitOrder_iff (p := p) hP (by omega) hM
  have hrise := unitOrder_rises (p := p) (V := V) (M := M) hP (by omega)
  rw [hab] at hmem hrise
  refine le_countP_of_subset (fun i => (0, v, i)) (fun i j h => by simpa using h) fun i hi => ⟨?_, by simp [isFwd]⟩
  have hnum := fwdIndex_lt hP v hi hv
  exact (mem_before_iff hrise ((hmem 0 v i).2 ⟨by omega, hv, by omega⟩)).2 (by simpa [unitKey] using hnum)

omit hm in
/-- Where the backward of microbatch n of a stage comes no earlier than a forward, at most n of the stage's backwards stand before that
forward. -/
theorem countP_isBwd_before_le {n : Nat} (hlate : unitKey P p V M (0, v, m) ≤ unitKey P p V M (1, v, n)) : a.countP (isBwd v) ≤ n := by
  have hmem := mem_unitOrder_iff (p := p) hP (by omega) hM
  have hrise := unitOrder_rises (p := p) (V := V) (M := M) hP (by omega)
  rw [hab] at hmem hrise
  refine countP_le_of_subset (fun i => (1, v, i)) (nodup_of_rising (List.pairwise_append.1 hrise).1) ?_
  rintro ⟨k, w, i⟩ hu hback
  have hin := List.mem_append_left ((0, v, m) :: b) hu
  have hkey := (mem_before_iff hrise hin).1 hu
  obtain ⟨hk, -, -⟩ := (hmem k w i).1 hin
  obtain ⟨rfl, rfl⟩ : w = v ∧ k = 1 := by
    simp only [isBwd, Bool.and_eq_true, beq_iff_eq, bne_iff_ne, ne_eq] at hback
    omega
  refine ⟨i, ?_, rfl⟩
  by_contra hni
  have hle : unitKey P p V M (1, w, n) ≤ unitKey P p V M (1, w, i) := by
    rcases (Nat.le_of_not_lt hni).lt_or_eq with h | rfl
    · have hnum := fwdIndex_lt hP (V - 1 - w) h (by omega : V - 1 - w < V)
      simp only [unitKey, Nat.one_ne_zero, if_false]
      omega
    · exact Nat.le_refl _
  omega

end

/-- Where the peak is at most q, the forward of microbatch m comes after the backward of microbatch m − q. -/
theorem unitKey_bwd_lt_fwd (hq : q ≤ m) (hpeak : peakOf (unitOrder P p V M) v ≤ q) :
    unitKey P p V M (1, v, m - q) < unitKey P p V M (0, v, m) := by
  obtain ⟨a, b, hab⟩ := List.append_of_mem ((mem_unitOrder_iff (p := p) hP (by omega) hM 0 v m).2 ⟨by omega, hv, hm⟩)
  by_contra hnot
  have hfwd := le_countP_isFwd_before hP hM hv hm hab
  have hbwd := countP_isBwd_before_le hP hM hv hab (Nat.le_of_not_lt hnot)
  have hcount := countP_isFwd_lt_peakOf (v := v) (m := m) a b
  rw [← hab] at hcount
  omega

end

/-- Settles O30: the order rises by `unitKey` (`unitOrder_rises`), so that its units differ and come in the order of their keys; before a
forward of stage v whose quota's backward were still to come, the stage's forwards would exceed its backwards by more than its peak
(`countP_isFwd_lt_peakOf`). -/
theorem unitOrderIsCompleteAndSafe : Obligations.UnitOrderIsCompleteAndSafe := by
  intro P p V M hp hV hM
  have hP : 0 < P := by omega
  have hmem := mem_unitOrder_iff (p := p) hP hV hM
  have hrise := unitOrder_rises (p := p) (M := M) hP hV
  refine ⟨nodup_of_rising hrise, hmem, fun v m hv hm => ?_, fun v m q hv hm hq _ hpeak => ?_⟩
  · exact idxOf_lt_of_rising hrise ((hmem ..).2 ⟨by omega, hv, hm⟩) ((hmem ..).2 ⟨by omega, hv, hm⟩) (unitKey_fwd_lt_bwd hP hM hv hm)
  · exact idxOf_lt_of_rising hrise ((hmem ..).2 ⟨by omega, hv, by omega⟩) ((hmem ..).2 ⟨by omega, hv, hm⟩)
      (unitKey_bwd_lt_fwd hP hM hv hm hq hpeak)

end Sys2Proof.Machine
end

section
/-! PROOFS. The rules of QCP group 0x05, of REPLAY and of CERTIFY on a command that meets their conditions (10 R279, R282, R300, R302 to R304,
11 R321, R322, R326), and O43. -/

namespace Sys2Proof.Machine

section
variable {s u a : State} {c : Cmd} {i : Nat} {b : List Byte} {t : StageTab} (ho : s.ownsJob c = true)
include ho

/-! ## The stage table (R279, R282) -/

section
variable (hjs : s.train.js = .loaded ∨ s.train.js = .held) (hvote : s.votingNow = false) (h5 : c.zero 5 = true) (hlo : 128 ≤ c.n 4)
  (hhi : c.n 4 ≤ 32768) (hr : Reads s c u b)
include hjs hvote h5 hlo hhi hr

theorem runStageTable_installs (ht : u.checkTable b = .inl t) : runStageTable c s = (u.updTrain fun y => { y with tab := some t }).ok c := by
  have hstill : ¬(s.train.js ≠ .loaded ∧ s.train.js ≠ .held) := fun h => hjs.elim h.1 h.2
  simp only [runStageTable, ho, hstill, hvote, Bool.not_true, Bool.false_eq_true, if_false]
  exact (structure_good_runs _ (by simp [h5, hlo, hhi]) hr).trans (by simp only [ht])

theorem runStageTable_refuses {x : Nat × Nat} (hx : u.checkTable b = .inr x) :
    runStageTable c s = u.reply c x.1 (BitVec.ofNat 32 x.2) 0#32 0#32 0#32 := by
  have hstill : ¬(s.train.js ≠ .loaded ∧ s.train.js ≠ .held) := fun h => hjs.elim h.1 h.2
  simp only [runStageTable, ho, hstill, hvote, Bool.not_true, Bool.false_eq_true, if_false]
  exact (structure_good_runs _ (by simp [h5, hlo, hhi]) hr).trans (by simp only [hx])

end

/-! ## Checkpoints (R300, R321) -/

theorem runCkpt_streams {x : Nat × Nat} (h4 : c.only 4 0xF = true) (hg : c.f 4 3 0 = 0 ∨ c.f 4 3 0 = 4 ∨ 7 ≤ c.f 4 3 0) (h5 : c.zero 5 = true)
    (hstep : s.stepped = some t) (htarget : s.target (c.dw 2) = some x) (hcommitted : s.train.step ≠ 0#64) (hnone : s.train.ckpt = none)
    (ha : Accepts s c i a) : runCkpt c s = (a.streamImage (if c.f 4 3 0 = 0 then 4 else c.f 4 3 0) t x.1 x.2).updTrain fun y =>
      { y with ckpt := some (y.step.toNat - 1, i), cstate := 1 } := by
  have hgroup : ¬(c.f 4 3 0 ≠ 0 ∧ c.f 4 3 0 ≠ 4 ∧ c.f 4 3 0 < 7) := by omega
  simp only [runCkpt, ho, h4, hgroup, h5, hstep, htarget, hcommitted, hnone, Bool.not_true, Bool.false_eq_true, Option.isSome_none, or_self,
    if_false]
  exact accepted_runs _ ha

theorem runCkptSeal_waits (h5 : c.zero 5 = true) (hstep : s.stepped = some t) (hvote : s.votingNow = false)
    (hseal : s.sealPasses (c.dw 2) = false) : runCkptSeal c s = (s.updTrain fun t => { t with
      pend := t.pend ++ [{ kind := 0, vseq := c.n 4, n := 0, y := 0, s := c.dw 2, stby := 0, hnd := 0 }] }).ok c := by
  simp [runCkptSeal, ho, h5, hstep, hvote, hseal]

/-! ## Nodes that move (R302, R304) -/

section
variable (hmove : c.moveOk = true) (hvote : s.votingNow = false)
include hmove hvote

theorem runReplace_waits (hnode : c.n 3 ≠ s.fab.phys) (h6 : c.zero 6 = true) (hstep : s.stepped = some t) (ha : Accepts s c i a) :
    runReplace c s = a.beginMove c i false := by
  simp only [runReplace, ho, hmove, hvote, hnode, h6, hstep, Bool.not_true, Bool.false_eq_true, Option.isNone_some, if_false]
  exact accepted_runs _ ha

theorem runReplace_fills {r : State × List Byte × List Bool × Option Nat} (hnode : c.n 3 = s.fab.phys) (hjs : s.train.js = .loaded)
    (hjob : s.host.job.isSome = true) (h11 : c.zero 11 = true) (h8 : c.addrOk 8 = true) (htarget : (s.target (c.dw 6)).isSome = true)
    (hlo : 128 ≤ c.n 10) (hhi : c.n 10 ≤ 32768) (hread : r = s.memRead .hub 0 (c.dw 8) (c.n 10)) (hwhole : r.2.2.2 = none)
    (htab : r.1.checkTable r.2.1 = .inl t) (ha : Accepts r.1 c i a) : runReplace c s = a.beginFill c t i false := by
  subst hread
  have hready : ¬(s.train.js ≠ .loaded ∨ s.host.job.isNone = true) := by simp [hjs, Option.isSome_iff_ne_none.1 hjob]
  have hwords : ¬((!c.zero 11) = true ∨ (!c.addrOk 8) = true ∨ (s.target (c.dw 6)).isNone = true ∨ c.n 10 < 128 ∨ c.n 10 > 32768) := by
    simp [h11, h8, Option.isSome_iff_ne_none.1 htarget, hlo, hhi]
  simp only [runReplace, ho, hmove, hvote, hnode, hready, hwords, hwhole, htab, Bool.not_true, Bool.false_eq_true, if_false, if_true]
  exact accepted_runs _ ha

section
variable (h6 : c.only 6 0xF = true) (hg : c.f 6 3 0 = 0 ∨ 7 ≤ c.f 6 3 0) (h7 : c.zero 7 = true) (ha : Accepts s c i a)
include h6 hg h7 ha

theorem runDrain_waits (hnode : c.n 3 ≠ s.fab.phys) (hstep : s.stepped = some t) : runDrain c s = a.beginMove c i true := by
  have hgroup : ¬(c.f 6 3 0 ≠ 0 ∧ c.f 6 3 0 < 7) := by omega
  simp only [runDrain, ho, hmove, h6, hgroup, h7, hvote, hnode, hstep, Bool.not_true, Bool.false_eq_true, or_self, Option.isNone_some, if_false]
  exact accepted_runs _ ha

theorem runDrain_fills (hnode : c.n 3 = s.fab.phys) (htab : s.train.tab = some t) (hjs : s.train.js = .loaded)
    (hjob : s.host.job.isSome = true) : runDrain c s = a.beginFill c t i true := by
  have hgroup : ¬(c.f 6 3 0 ≠ 0 ∧ c.f 6 3 0 < 7) := by omega
  have hready : ¬(s.train.js ≠ .loaded ∨ s.host.job.isNone = true) := by simp [hjs, Option.isSome_iff_ne_none.1 hjob]
  simp only [runDrain, ho, hmove, h6, hgroup, h7, hvote, hnode, htab, hready, Bool.not_true, Bool.false_eq_true, or_self, if_false, if_true]
  exact accepted_runs _ ha

end

end

/-! ## A standing job (R303, R322) -/

section
variable (hstand : s.standing = true) (htarget : (s.target (c.dw 2)).isSome = true) (hroll : s.train.rollHnd = none) (hrep : s.det.rhnd = 0)
  (ha : Accepts s c i a)
include hstand htarget hroll hrep ha

theorem runRollback_waits (h4 : c.zero 4 = true) : runRollback c s = a.updTrain fun y => { y with rollHnd := some i } := by
  have hnamed : (s.target (c.dw 2)).isNone = false := by rw [← Option.not_isSome, htarget]; rfl
  simp only [runRollback, ho, h4, hstand, hnamed, hroll, hrep, Option.isSome_none, ne_eq, not_true_eq_false, Bool.not_true, Bool.false_eq_true,
    or_self, if_false]
  exact accepted_runs _ ha

theorem runReplay_waits (h6 : c.only 6 1 = true) (h9 : c.zero 9 = true) (hown : c.f 6 0 0 = 0 → c.dw 7 = 0)
    (hother : c.f 6 0 0 = 1 → (s.target (c.dw 7)).isSome = true) :
    runReplay c s = (a.updTrain fun y => if y.launched then y else { y with n := a.jobN, fresh := true }).updDet fun y =>
      { y with tstop := Desc.dword c.d 4, source := c.f 6 0 0, rhnd := i } := by
  have hwords : ¬((!c.only 6 1) = true ∨ (!c.zero 9) = true ∨ (c.f 6 0 0 = 0 ∧ c.dw 7 ≠ 0)) := by
    simpa [h6, h9] using hown
  have hnamed : ¬((s.target (c.dw 2)).isNone = true ∨ (c.f 6 0 0 = 1 ∧ (s.target (c.dw 7)).isNone = true)) := by
    simpa [Option.isSome_iff_ne_none.1 htarget, Option.isSome_iff_ne_none] using hother
  simp only [runReplay, ho, hwords, hstand, hnamed, hroll, hrep, Option.isSome_none, ne_eq, not_true_eq_false, Bool.not_true, Bool.false_eq_true,
    or_self, if_false]
  exact accepted_runs _ ha

end

/-! ## Certificates (R326) -/

theorem runCertify_begins (h2 : c.addrOk 2 = true) (hend : c.dw 2 + c.dw 4 ≤ 2 ^ 40) (h8 : c.addrOk 8 = true) (h256 : c.dw 8 % 256 = 0)
    (h10 : c.zero 10 = true) (hstep : s.stepped = some t) (hws : s.train.ws ≠ .unresolved) (hcert : s.det.cert = none) (ha : Accepts s c i a) :
    runCertify c s = (a.updDet fun y => { y with cert := some (i, c.dw 2, c.dw 4, Desc.dword c.d 6, c.dw 8) }).startCert := by
  simp only [runCertify, ho, h2, hend.not_gt, h8, h256, h10, hstep, hws, hcert, Option.isNone_some, Option.isSome_none, ne_eq, not_true_eq_false,
    Bool.not_true, Bool.false_eq_true, or_self, if_false]
  exact accepted_runs _ ha

end

/-- Settles O43: each command of the job's own session that passes its frame is its rule's effect (`Runs.of_passes`), and each rule's
conditions lead to the one branch that the statement names. -/
theorem stepStateCommandsComplete : Obligations.StepStateCommandsComplete := by
  rintro s q d _ rfl ho
  refine ⟨?stageTable, ?ckpt, ?ckptSeal, ?replaceWaits, ?replaceFills, ?drain, ?rollback, ?replay, ?certify⟩
  case stageTable =>
    exact fun u b h hjs hvote h5 hlo hhi hr =>
      ⟨fun t ht => .of_passes rfl h (runStageTable_installs ho hjs hvote h5 hlo hhi hr ht),
       fun x hx => .of_passes rfl h (runStageTable_refuses ho hjs hvote h5 hlo hhi hr hx)⟩
  case ckpt =>
    rintro t x i a _ h h4 hg h5 rfl hstep htarget hcommitted hnone ha
    exact .of_passes rfl h (runCkpt_streams ho h4 hg h5 hstep htarget hcommitted hnone ha)
  case ckptSeal => exact fun t h h5 hstep hvote hseal => .of_passes rfl h (runCkptSeal_waits ho h5 hstep hvote hseal)
  case replaceWaits =>
    exact fun t i a h hmove hvote hnode h6 hstep ha => .of_passes rfl h (runReplace_waits ho hmove hvote hnode h6 hstep ha)
  case replaceFills =>
    exact fun t i a r h hmove hvote hnode hjs hjob h11 h8 htarget hlo hhi hread hwhole htab ha =>
      .of_passes rfl h (runReplace_fills ho hmove hvote hnode hjs hjob h11 h8 htarget hlo hhi hread hwhole htab ha)
  case drain =>
    exact fun i a h hmove h6 hg h7 hvote ha =>
      ⟨fun t hnode hstep => .of_passes rfl h (runDrain_waits ho hmove hvote h6 hg h7 ha hnode hstep),
       fun t hnode htab hjs hjob => .of_passes rfl h (runDrain_fills ho hmove hvote h6 hg h7 ha hnode htab hjs hjob)⟩
  case rollback =>
    exact fun i a h h4 hstand htarget hroll hrep ha => .of_passes rfl h (runRollback_waits ho hstand htarget hroll hrep ha h4)
  case replay =>
    exact fun i a h h6 h9 hown hother hstand htarget hroll hrep ha =>
      .of_passes rfl h (runReplay_waits ho hstand htarget hroll hrep ha h6 h9 hown hother)
  case certify =>
    exact fun t i a h h2 hend h8 h256 h10 hstep hws hcert ha =>
      .of_passes rfl h (runCertify_begins ho h2 hend h8 h256 h10 hstep hws hcert ha)

end Sys2Proof.Machine
end

section
/-! PROOFS. The rules of watersheds, holds and resumes and of QCP group 0x06 on a command that meets their conditions (10 R294 to R296, 13 R359,
R365 to R367, R371, R374), and O44. -/

namespace Sys2Proof.Machine

section
variable {s a : State} {c : Cmd} {i : Nat}

/-! ## Watersheds, holds and resumes (R294 to R296) -/

section
variable (ho : s.ownsJob c = true)
include ho

theorem runWsQuery_seals (h3 : c.zero 3 = true) (hjs : s.train.js ≠ .idle) (hv : c.w 2 = s.train.vseq) :
    runWsQuery c s = (s.updTrain fun t => { t with sealed_ := true }).okWith c s.wsDetail := by
  simp [runWsQuery, ho, h3, hjs, hv]

section
variable (h3 : c.only 3 3 = true) (hone : (c.bit 3 0 && c.bit 3 1) = false) (h4 : c.zero 4 = true) (hjs : s.train.js ≠ .idle)
  (hv : c.w 2 = s.train.vseq) (hsealed : s.train.sealed_ = true)
include h3 hone h4 hjs hv hsealed

theorem runWsResolve_resolves (hout : s.train.out = none) (hfresh : s.train.fresh = false) :
    runWsResolve c s = (s.dropVote.takeOutcome (c.bit 3 0) (c.bit 3 1) (c.bit 3 1) false).ok c := by
  have hwords : ¬(c.bit 3 0 = true ∧ c.bit 3 1 = true) := by simpa using hone
  simp only [runWsResolve, ho, h3, hwords, h4, hjs, hv, hsealed, hout, hfresh, ne_eq, not_true_eq_false, Bool.not_true, Bool.false_eq_true,
    or_self, if_false]

/-- A device that holds an outcome answers by whether the command names it. -/
theorem runWsResolve_holds {o : Bool × Bool} (hout : s.train.out = some o) :
    runWsResolve c s = if o = (c.bit 3 0, c.bit 3 1) then s.ok c else s.badState c := by
  have hwords : ¬(c.bit 3 0 = true ∧ c.bit 3 1 = true) := by simpa using hone
  simp only [runWsResolve, ho, h3, hwords, h4, hjs, hv, hsealed, hout, ne_eq, not_true_eq_false, Bool.not_true, Bool.false_eq_true, or_self,
    if_false]

end

theorem runCfgWatershed_opens {t : StageTab} (h2 : c.only 2 3 = true) (h3 : c.zero 3 = true) (hstep : s.stepped = some t)
    (hta : (s.tree (c.f 2 1 0) 0).valid = true) (htb : (s.tree (c.f 2 1 0) 1).valid = true) (hnone : s.train.cfgHnd = none)
    (ha : Accepts s c i a) : runCfgWatershed c s = (a.updTrain fun t => { t with cfgHnd := some i }).startCfg := by
  simp only [runCfgWatershed, ho, h2, h3, hstep, hta, htb, hnone, Option.isNone_some, Option.isSome_none, Bool.and_self, Bool.not_true,
    Bool.false_eq_true, or_self, if_false]
  exact accepted_runs _ ha

section
variable (h2 : c.zero 2 = true)
include h2

theorem runJobHold_holds (hjs : s.train.js = .run) (hout : s.outsideStep = true) (hrest : s.train.atRest = true) :
    runJobHold c s = (s.setJob .held 5).ok c := by
  simp [runJobHold, ho, h2, hjs, hout, hrest]

theorem runJobHold_waits (hjs : s.train.js = .run) (hin : s.outsideStep = false) :
    runJobHold c s = (s.updTrain fun t => { t with wantHold := true, wantRun := false }).ok c := by
  simp [runJobHold, ho, h2, hjs, hin]

theorem runJobResume_resumes (hjs : s.train.js = .held) (hrest : (s.between && s.train.atRest) = true) :
    runJobResume c s = (s.setJob .run 0).ok c := by
  obtain ⟨hbetween, hat⟩ := Bool.and_eq_true_iff.1 hrest
  simp [runJobResume, ho, h2, hjs, hbetween, hat]

theorem runJobResume_waits (hjs : s.train.js = .held) (hbusy : (s.between && s.train.atRest) = false) :
    runJobResume c s = (s.updTrain fun t => { t with wantRun := true }).ok c := by
  have hnot : ¬(s.between = true ∧ s.train.atRest = true) := by rw [← Bool.and_eq_true_iff, hbusy]; decide
  simp [runJobResume, ho, h2, hjs, hnot]

end

end

/-! ## Limits and modes (R359, R365 to R367, R374) -/

/-- The master's limit is set, and what follows from EFF_LIM follows. -/
def State.setLimit (s : State) (c : Cmd) : State :=
  (s.updPower fun p => if c.tray then { p with trayCeil := c.f 2 15 0 } else { p with hostLim := c.f 2 15 0 }).limitChanged s.power.effLim

theorem runPwrLimit_sets (h2 : c.only 2 0xFFFF = true) (h3 : c.zero 3 = true) (hlo : 900 ≤ c.f 2 15 0) (hhi : c.f 2 15 0 ≤ 1600)
    (hfixed : c.master = 2 ∨ s.power.mode ≠ 0 ∨ 1505 ≤ c.f 2 15 0) :
    runPwrLimit c s = (s.setLimit c).okWith c (s.setLimit c).power.effLim := by
  have hmode : ¬((!c.tray) = true ∧ s.power.mode = 0 ∧ c.f 2 15 0 < 1505) := by
    rintro ⟨htray, hmode, hlow⟩
    have hhost : c.master ≠ 2 := by simpa [Cmd.tray] using htray
    omega
  simp only [runPwrLimit, h2, h3, hlo.not_gt, hhi.not_gt, hmode, Bool.not_true, Bool.false_eq_true, or_self, if_false]
  rfl

section
variable (h2 : c.only 2 3 = true) (h3 : c.only 3 0xFF = true) (h4 : c.zero 4 = true)
include h2 h3 h4

theorem runPwrMode_capped (hm : c.f 2 1 0 = 1) (hf : c.f 3 7 0 = 0 ∨ (120 ≤ c.f 3 7 0 ∧ c.f 3 7 0 ≤ s.power.fmax)) :
    runPwrMode c s = (s.askMode (1, c.fset s.power, 0)).ok c := by
  have hclock : ¬(c.f 3 7 0 ≠ 0 ∧ (c.fset s.power < 120 ∨ c.fset s.power > s.power.fmax)) := by
    rintro ⟨hset, hout⟩
    rw [Cmd.fset, if_neg hset] at hout
    omega
  simp [runPwrMode, h2, h3, h4, hm, hclock]

theorem runPwrMode_fixed (hm : c.f 2 1 0 = 0) (hcap : s.power.ffcap = true) (hlim : 1505 ≤ s.power.effLim) :
    runPwrMode c s = (s.askMode (0, c.fset s.power, 0)).ok c := by
  simp [runPwrMode, h2, h3, h4, hm, hcap, hlim.not_gt]

end

theorem runSetPstate_asks (h2 : c.only 2 7 = true) (h3 : c.zero 3 = true) : runSetPstate c s =
    (s.askMode (2, s.power.fset, c.f 2 2 0)).okWith c (10 * min (pstateClk (c.f 2 2 0)) s.power.fmax) := by
  simp [runSetPstate, h2, h3]

theorem runThermLimit_sets (h2 : c.only 2 0xFFFFFF = true) (h3 : c.zero 3 = true) (hsil : c.f 2 7 0 ≤ 20) (hmem : c.f 2 15 8 ≤ 20)
    (hopt : c.f 2 23 16 ≤ 20) : runThermLimit c s =
      (s.updPower fun p => { p with silOfs := c.f 2 7 0, memOfs := c.f 2 15 8, optOfs := c.f 2 23 16 }).ok c := by
  simp [runThermLimit, h2, h3, hsil.not_gt, hmem.not_gt, hopt.not_gt]

/-! ## The balance group (R371) -/

section
variable (h2 : c.only 2 7 = true) (hdemand : c.bit 2 1 = false) (hprio : c.bit 2 2 = false) (h5 : c.only 5 0x3F3F = true) (h6 : c.zero 6 = true)
include h2 hdemand hprio h5 h6

theorem runPwrShare_leaves (hen : c.bit 2 0 = false) : runPwrShare c s = ((s.updPower fun p =>
    { p with balEn := false, balShare := 0, leader := false, members := 0, g := 0, slack := 0, reps := [],
             ranked := false, decs := [], incs := [], freed := 0 }).limitChanged s.power.effLim).ok c := by
  simp [runPwrShare, h2, hdemand, hprio, h5, h6, hen]

theorem runPwrShare_joins {n g : Nat} {b : Nat × Nat} {keep : Bool} (hen : c.bit 2 0 = true) (hn : n = s.shareMembers) (hg : g = c.n 3)
    (hb : b = c.balWords) (hlo : 900 * n ≤ g) (hhi : g ≤ s.ceilSum) (hstep : b.1 ≤ 100) (hminlo : 900 ≤ b.2) (hminhi : b.2 ≤ 1600)
    (hkeep : keep = (s.power.balEn && decide (s.power.balShare * n ≤ g))) :
    runPwrShare c s = ((((if keep then s else s.tick).updPower fun p =>
      { p with balEn := true, g := g, balStep := b.1, balMin := b.2, balShare := if keep then s.power.balShare else s.joinShare g n
               members := n, leader := s.leaderSlot == s.fab.phys % 128 }).limitChanged s.power.effLim).ok c) := by
  subst hn hg hb
  have hfits : ¬(c.n 3 < 900 * s.shareMembers ∨ c.n 3 > s.ceilSum ∨ c.balWords.1 > 100 ∨ c.balWords.2 < 900 ∨ c.balWords.2 > 1600) := by
    omega
  simp only [runPwrShare, h2, hdemand, hprio, h5, h6, hfits, hen, ← hkeep, Bool.not_true, Bool.false_eq_true, or_self, and_false, false_and,
    if_false]
  cases keep <;> rfl

end

end

/-- Settles O44: each command that passes its frame is its rule's effect (`Runs.of_passes`), and each rule's conditions lead to the one
branch that the statement names. -/
theorem stepControlAndPowerCommandsComplete : Obligations.StepControlAndPowerCommandsComplete := by
  rintro s q d _ rfl
  refine ⟨?job, ?limit, ?capped, ?fixed, ?pstate, ?leave, ?join, ?therm⟩
  case job =>
    intro ho
    refine ⟨?query, ?resolve, ?cfg, ?hold, ?resume⟩
    case query => exact fun h h3 hjs hv => .of_passes rfl h (runWsQuery_seals ho h3 hjs hv)
    case resolve =>
      intro h h3 hone h4 hjs hv hsealed
      have held := fun o hout => runWsResolve_holds (o := o) ho h3 hone h4 hjs hv hsealed hout
      exact ⟨fun hout hfresh => .of_passes rfl h (runWsResolve_resolves ho h3 hone h4 hjs hv hsealed hout hfresh),
        fun hout => .of_passes rfl h ((held _ hout).trans (if_pos rfl)),
        fun o hout hne => .of_passes rfl h ((held o hout).trans (if_neg hne))⟩
    case cfg =>
      exact fun t i a h h2 h3 hstep hta htb hnone ha => .of_passes rfl h (runCfgWatershed_opens ho h2 h3 hstep hta htb hnone ha)
    case hold =>
      exact fun h h2 hjs => ⟨fun hout hrest => .of_passes rfl h (runJobHold_holds ho h2 hjs hout hrest),
        fun hin => .of_passes rfl h (runJobHold_waits ho h2 hjs hin)⟩
    case resume =>
      exact fun h h2 hjs => ⟨fun hrest => .of_passes rfl h (runJobResume_resumes ho h2 hjs hrest),
        fun hbusy => .of_passes rfl h (runJobResume_waits ho h2 hjs hbusy)⟩
  case limit =>
    exact fun h h2 h3 hlo hhi hfixed => ⟨_, rfl, .of_passes rfl h (runPwrLimit_sets h2 h3 hlo hhi hfixed)⟩
  case capped => exact fun h h2 h3 h4 hm hf => .of_passes rfl h (runPwrMode_capped h2 h3 h4 hm hf)
  case fixed => exact fun h h2 h3 h4 hm hcap hlim => .of_passes rfl h (runPwrMode_fixed h2 h3 h4 hm hcap hlim)
  case pstate => exact fun h h2 h3 => .of_passes rfl h (runSetPstate_asks h2 h3)
  case leave => exact fun h h2 hen hdemand hprio h5 h6 => .of_passes rfl h (runPwrShare_leaves h2 hdemand hprio h5 h6 hen)
  case join =>
    exact fun n g b keep h h2 hen hdemand hprio h5 h6 hn hg hb hlo hhi hstep hminlo hminhi hkeep =>
      .of_passes rfl h (runPwrShare_joins h2 hdemand hprio h5 h6 hen hn hg hb hlo hhi hstep hminlo hminhi hkeep)
  case therm => exact fun h h2 h3 hsil hmem hopt => .of_passes rfl h (runThermLimit_sets h2 h3 hsil hmem hopt)

end Sys2Proof.Machine
end

section
/-! SUPPORT. What phases, reports and writes of entries leave of the step sequencer's state (10 Table 10-7, 14 R386). -/

namespace Sys2Proof.Machine

/-! ## Phases -/

@[simp] theorem State.setWeights_train (s : State) (mask : Nat) (w : W64) : (s.setWeights mask w).train = s.train :=
  foldl_keeps (fun a : State => a.train) (fun a l => by split <;> rfl) (List.range 96) s

@[simp] theorem State.weightsDue_train (s : State) : s.weightsDue.train = s.train :=
  foldl_keeps (fun a : State => a.train) (fun a _ => a.setWeights_train _ _) _ (s.updFab fun f => { f with vcwNext := [] })

@[simp] theorem State.applyMode_train (s : State) : s.applyMode.train = s.train := by
  unfold State.applyMode
  split <;> rfl

theorem State.setPhase_train (s : State) (n : Nat) : (s.setPhase n).train = { s.train with phase := n } := by
  unfold State.setPhase
  split
  · rename_i h
    rw [← h]
  · rfl

/-- A phase boundary sets PHASE and nothing else of the sequencer. -/
@[simp] theorem State.toPhase_train (s : State) (n : Nat) : (s.toPhase n).train = { s.train with phase := n } :=
  (s.setPhase n).weightsDue_train.trans (s.setPhase_train n)

/-- A vote is posted in phase VOTE, behind the votes that wait. -/
theorem State.postVote_train (s : State) {t : StageTab} (h o : Bool) (htab : s.train.tab = some t) :
    (s.postVote h o).train.h = h ∧ (s.postVote h o).train.phase = 5 ∧
      (s.postVote h o).train.votes = s.train.votes ++ [voteEntry s.train.vseq t.voteTp h o] := by
  simp [State.postVote, htab]

/-! ## Reports and writes -/

/-- The step sequencer's state but for its mark of errors since the last vote, which any report of an error sets (R286). -/
def State.unmarked (s : State) : Train := { s.train with errSince := false }

@[simp] theorem State.report_unmarked (s : State) (r : Report) : (s.report r).unmarked = s.unmarked := by
  unfold State.report
  split <;> rfl
@[simp] theorem State.ledg_unmarked (s : State) (a b c d : Nat) (bs : List Byte) : (s.ledg a b c d bs).unmarked = s.unmarked := rfl
@[simp] theorem State.winPut_unmarked (s : State) (w i : Nat) : (s.winPut w i).unmarked = s.unmarked := rfl
@[simp] theorem State.updHbm_unmarked (s : State) (f : Hbm → Hbm) : (s.updHbm f).unmarked = s.unmarked := rfl
@[simp] theorem State.updStack_unmarked (s : State) (n : Nat) (f : Stack → Stack) : (s.updStack n f).unmarked = s.unmarked := rfl
@[simp] theorem State.updGrp_unmarked (s : State) (n : Nat) (f : RGrp → RGrp) : (s.updGrp n f).unmarked = s.unmarked := rfl
@[simp] theorem State.updQue_unmarked (s : State) (q : Nat) (f : QEnt → QEnt) : (s.updQue q f).unmarked = s.unmarked := rfl
@[simp] theorem State.tick_unmarked (s : State) : s.tick.unmarked = s.unmarked := rfl

theorem State.winEvent_unmarked (s : State) (w i : Nat) {act : State → State} (h : ∀ t : State, (act t).unmarked = t.unmarked) :
    (s.winEvent w i act).unmarked = s.unmarked := by
  unfold State.winEvent
  split
  · rw [h, State.winPut_unmarked]
  · rfl

@[simp] theorem State.spWrite_unmarked (s : State) (w : Nat) (v : W32) (sp : Bool) : (s.spWrite w v sp).unmarked = s.unmarked := by
  unfold State.spWrite
  split
  · exact s.report_unmarked _
  · rfl

@[simp] theorem State.spWrites_unmarked (s : State) (l : List (Nat × W32 × Bool)) : (s.spWrites l).unmarked = s.unmarked := by
  unfold State.spWrites
  refine foldl_keeps State.unmarked (fun a x => ?_) l s
  rw [State.spWrite_unmarked]

@[simp] theorem State.admitUnit_unmarked (s : State) (who : Requester) (p a : Nat) : (s.admitUnit who p a).1.unmarked = s.unmarked := by
  unfold State.admitUnit
  split
  · exact s.report_unmarked _
  · split
    · exact s.report_unmarked _
    · rfl

@[simp] theorem State.markRow_unmarked (s : State) (st row : Nat) : (s.markRow st row).unmarked = s.unmarked := by
  unfold State.markRow
  dsimp only
  split <;> rfl

@[simp] theorem State.rowEvent_unmarked (s : State) (st row : Nat) : (s.rowEvent st row).unmarked = s.unmarked := by
  unfold State.rowEvent
  dsimp only
  split
  · exact s.markRow_unmarked st row
  · rfl

@[simp] theorem State.failStack_unmarked (s : State) (st : Nat) : (s.failStack st).unmarked = s.unmarked := by
  unfold State.failStack
  split <;> simp

@[simp] theorem State.unitRead_unmarked (s : State) (st so info : Nat) (e : Ecc) : (s.unitRead st so info e).1.unmarked = s.unmarked := by
  unfold State.unitRead
  split
  · dsimp only
    split <;> simp
  · cases e with
    | clean => rfl
    | corrected => simp [State.hbmFixed]
    | uncorrectable => exact (State.winEvent_unmarked _ _ _ fun t => t.failStack_unmarked _).trans (by simp)

@[simp] theorem State.unitWrite_unmarked (s : State) (st so info : Nat) (data : List Byte) (mask spoil : List Bool) :
    (s.unitWrite st so info data mask spoil).unmarked = s.unmarked := by
  unfold State.unitWrite
  split
  · exact s.report_unmarked _
  · rfl

@[simp] theorem State.memPut_unmarked (s : State) (who : Requester) (p a : Nat) (bs : List Byte) :
    (s.memPut who p a bs).1.unmarked = s.unmarked := by
  refine foldl_keeps (fun a : State × Option Nat => a.1.unmarked) (fun acc u => ?_) (unitsOf a bs.length).zipIdx (s, none)
  have hadmit := acc.1.admitUnit_unmarked who p u.1
  dsimp only
  split <;> rename_i h <;> rw [h] at hadmit
  · exact hadmit
  · dsimp only
    split <;> simpa using hadmit

/-- An entry that finds room changes nothing of the sequencer but that mark. -/
theorem State.postEntry_unmarked {s a : State} {q : Nat} {d : Desc} (h : s.postEntry q d = some a) : a.unmarked = s.unmarked := by
  unfold State.postEntry at h
  dsimp only at h
  split at h
  · cases h
  · cases h
    rw [State.updQue_unmarked]
    split
    · exact s.spWrites_unmarked _
    · exact s.memPut_unmarked ..

/-- The attempt's course: WSTATE, STEP and whether a gather is due. -/
def Train.course (t : Train) : WState × W64 × Bool := (t.ws, t.step, t.gather)

theorem State.course_of_unmarked {s a : State} (h : a.unmarked = s.unmarked) : a.train.course = s.train.course := by
  have hcourse : a.unmarked.course = s.unmarked.course := congrArg Train.course h
  exact hcourse

/-- Template entries, whether they find room or not, leave the attempt's course. -/
theorem State.postTemplate_course (s : State) (t : StageTab) : (s.postTemplate t).train.course = s.train.course := by
  refine foldl_keeps (fun a : State => a.train.course) (fun a x => ?_) (t.tq.zip t.tpl) s
  cases h : a.postEntry x.1 x.2 with
  | none => rfl
  | some b => exact State.course_of_unmarked (State.postEntry_unmarked h)

end Sys2Proof.Machine
end

section
/-! PROOFS. The phases of an attempt (10 R280, R281, R284 to R286, R289), and O31. -/

namespace Sys2Proof.Machine

section
variable {s x : State} {t : StageTab} (htab : s.train.tab = some t)

/-! ## The start (Table 10-7 steps 1 and 2) -/

section
variable (recs : List (List Byte))

include htab in
theorem execAttemptStart_acts (hmay : s.mayStart = true) (hquiet : s.seqQuiet = true) : execAttemptStart recs s = .next
    (if s.train.prep then s.startAttempt t recs
     else ((s.zeroCtrs 4032 5).zeroCtrs t.crstB t.crstN).updTrain fun x => { x with prep := true }) := by
  simp only [execAttemptStart, htab]
  exact when_next (by simp [hmay, hquiet])

/-- The watershed of an attempt opens: what the last attempt left is cleared, and the cores take STEP. -/
def State.opened (s : State) : State :=
  (s.applyMode.openVseq.orphanMirrors.updTrain fun x =>
    { x with ws := .open_, cfgw := false, upos := 0, units := [], posts := [], udone := [], itemErr := false, tplErr := false,
             errSince := x.errSince && x.ws != .none_, prep := false, mirrors := 0, mirBad := false, mirSent := false, full := false,
             sent := [], h := false, o := false }).clearFlags.giveStep

theorem State.opened_course (s : State) : s.opened.train.course = (.open_, s.train.step, s.train.gather) := by
  rw [← s.applyMode_train]
  rfl

/-- The state of an attempt that is set up, before its first phase. -/
def State.setUp (s : State) (t : StageTab) (recs : List (List Byte)) : State :=
  let a := s.opened.postTemplate t
  let b := (a.updPower fun p => { p with ffheld := p.mode == 0 && gateKeys.all fun k => (p.gate k).eff == 64 }).updDet fun d =>
    { d with inputs := [], sentDig := [], feed := [] }
  if b.det.replay then b.takeRecords recs else b

theorem State.setUp_course (s : State) (t : StageTab) : (s.setUp t recs).train.course = (.open_, s.train.step, s.train.gather) := by
  rw [← s.opened_course, ← s.opened.postTemplate_course t]
  unfold State.setUp
  dsimp only
  split <;> rfl

theorem State.startAttempt_eq (s : State) (t : StageTab) : s.startAttempt t recs =
    if (s.setUp t recs).train.gather then ((s.setUp t recs).toPhase 1).ctrAsk .sequencer 4032 (.add 1#48)
    else (s.setUp t recs).toPhase 2 := rfl

/-- The first phase of an attempt opens its watershed and leaves STEP. -/
theorem State.startAttempt_opens (s : State) (t : StageTab) :
    (s.startAttempt t recs).train.ws = .open_ ∧ (s.startAttempt t recs).train.step = s.train.step ∧
      (s.startAttempt t recs).train.phase = if s.train.gather then 1 else 2 := by
  have hcourse := s.setUp_course recs t
  simp only [Train.course, Prod.mk.injEq] at hcourse
  obtain ⟨hws, hstep, hgather⟩ := hcourse
  rw [State.startAttempt_eq, hgather]
  split
  · simp [State.ctrAsk_coll, hws, hstep]
  · simp [hws, hstep]

end

include htab

theorem execGatherComplete_pipes (hphase : s.train.phase = 1) (hquiet : s.seqQuiet = true) (hctr : t.gthr ≤ (s.ctrSeen t.gctr).toNat) :
    execGatherComplete s = .next ((s.updTrain fun x => { x with gather := false }).toPhase 2) := by
  simp only [execGatherComplete, htab]
  exact when_next (by simp [hphase, hquiet, hctr])

/-! ## Units (R280, R281) -/

/-- The items of unit `u`: one for every core of its stage. -/
def StageTab.items (t : StageTab) (u : Nat × Nat × Nat) : List (Nat × Nat × (State → Desc)) :=
  let g := t.stage u.2.1
  (from_ g.cbase (g.ncm1 + 1)).map fun c => (c, g.cwq, fun (a : State) =>
    a.itemEntry (if u.1 = 0 then g.fopc else g.bopc) g.mov a.train.step a.train.e (u.2.2 + 1 == t.m) (u.2.2 == 0) u.1 u.2.1 u.2.2
      (u.2.2 % max 1 g.quota) a.train.vseq)

section
variable {u : Nat × Nat × Nat} (hhead : t.order[s.train.upos]? = some u)
include hhead

theorem execUnitPost_posts (hphase : s.train.phase = 2) (hquiet : s.seqQuiet = true) (hdue : s.unitDue t u = true)
    (hpost : s.postUnit u (t.items u) = some x) : execUnitPost s = .next (x.updTrain fun y => { y with upos := y.upos + 1 }) := by
  have hready : ¬(s.train.phase ≠ 2 ∨ (!s.seqQuiet) = true ∨ (!s.unitDue t u) = true) := by simp [hphase, hquiet, hdue]
  simp only [StageTab.items] at hpost
  simp only [execUnitPost, htab, hhead, hready, hpost, if_false]

theorem execUnitPost_waits (hdue : s.unitDue t u = false) : execUnitPost s = .next s := by
  simp [execUnitPost, htab, hhead, hdue]

end

theorem execUnitComplete_leaves {k v m : Nat} {u : UnitOut} (hk : k < 2)
    (hu : s.train.units.find? (fun u => u.kind == k && u.v == v && u.m == m && u.left == 0) = some u) : execUnitComplete k v m s =
      .next ((s.updTrain fun x => { x with units := x.units.erase u, udone := x.udone ++ [(k, v, m)] }).pipeEnd t) := by
  simp only [execUnitComplete, htab, hu]
  exact when_next (decide_eq_true hk)

/-! ## REDUCE (R285, R299) -/

section
variable (hphase : s.train.phase = 3) (hquiet : s.seqQuiet = true) (hctr : t.rthr ≤ (s.ctrSeen t.rctr).toNat) (hhold : s.imageHold = false)
include hphase hquiet hctr hhold

theorem execReduceDone_full (hroom : placeAll t.logSize s.train.bHead s.train.bRecs ((s.attemptRecs t).2.map fun r => recUnits r.2.length) = none) :
    execReduceDone s = .next (((s.attemptRecs t).1.updTrain fun y => { y with full := true }).earlyVote) := by
  simp [execReduceDone, htab, hphase, hquiet, hctr.not_gt, hhold, hroom]

/-- The attempt's records at their places are sent, and the shard's digest is compared. -/
def State.sendRecs (s : State) (t : StageTab) (offs : List Nat) : State :=
  ((offs.zip (s.attemptRecs t).2).foldl (fun (a : State) r => a.sendRec t r.1 r.2.1 r.2.2) (s.attemptRecs t).1).checkShard.updTrain fun y =>
    { y with mirSent := true }

theorem execReduceDone_updates {offs : List Nat} {b : State}
    (hroom : placeAll t.logSize s.train.bHead s.train.bRecs ((s.attemptRecs t).2.map fun r => recUnits r.2.length) = some offs)
    (hopt : (s.sendRecs t offs).postOpt t (s.sendRecs t offs).train.step (s.sendRecs t offs).train.e = some b) :
    execReduceDone s = .next (b.toPhase 4) := by
  have hready : ¬(s.train.phase ≠ 3 ∨ (!s.seqQuiet) = true ∨ (s.ctrSeen t.rctr).toNat < t.rthr ∨ s.imageHold = true) := by
    simp [hphase, hquiet, hctr, hhold]
  simp only [State.sendRecs] at hopt
  simp only [execReduceDone, htab, hready, hroom, hopt, if_false]

end

/-! ## UPDATE and the vote (R286) -/

section
variable (hws : s.train.ws = .open_) (hcfg : s.train.cfgw = false)
include hws hcfg

theorem execUpdateComplete_votes (hphase : s.train.phase = 4) (hitem : s.train.itemErr = false) (htpl : s.train.tplErr = false)
    (hsent : s.train.mirSent = true) (hack : s.train.mirrors = 0) (hopt : s.optDone = true) (hgood : s.train.mirBad = false)
    (hx : x = s.ctrAsk .sequencer 4034 (.add 1#48)) : execUpdateComplete s = .next (x.postVote (x.healthy t) x.overflowed) := by
  subst hx
  simp [execUpdateComplete, htab, hws, hcfg, hphase, hitem, htpl, hsent, hack, hopt, hgood]

theorem execUpdateComplete_itemErr (hphase : s.train.phase = 2 ∨ s.train.phase = 3 ∨ s.train.phase = 4) (hitem : s.train.itemErr = true) :
    execUpdateComplete s = .next s.earlyVote := by
  have hopen : ¬(s.train.ws ≠ .open_ ∨ s.train.cfgw = true ∨ s.train.phase = 0 ∨ s.train.phase ≥ 5) := by
    rintro (h | h | h)
    · exact h hws
    · simp [hcfg] at h
    · omega
  simp only [execUpdateComplete, htab, hopen, hitem, true_or, if_false, if_true]

end

end

/-- Settles O31: each step's condition holds under its clause's hypotheses (`when_next`), and an attempt that is set up has its watershed open,
with STEP and the gather as they were (`State.setUp_course`). -/
theorem attemptsPassThroughTheirPhases : Obligations.AttemptsPassThroughTheirPhases := by
  refine ⟨?start, ?gather, ?unit, ?complete, ?pipeEnd, ?reduce, ?update⟩
  case start =>
    intro s t recs htab hmay hquiet
    have hacts := execAttemptStart_acts htab recs hmay hquiet
    exact ⟨fun hprep => hacts.trans (by rw [hprep]; rfl), fun hprep => ⟨hacts.trans (by rw [hprep]; rfl), s.startAttempt_opens recs t⟩⟩
  case gather => exact fun s t htab hphase hquiet hctr => execGatherComplete_pipes htab hphase hquiet hctr
  case unit =>
    rintro s x t u _ htab hhead hphase hquiet rfl
    exact ⟨fun hdue hpost => execUnitPost_posts htab hhead hphase hquiet hdue hpost, fun hdue => execUnitPost_waits htab hhead hdue⟩
  case complete => exact fun s t k v m u htab hk hu => execUnitComplete_leaves htab hk hu
  case pipeEnd => exact fun s t hphase hall => if_pos ⟨hphase, hall⟩
  case reduce =>
    rintro s t _ htab hphase hquiet hctr hhold rfl
    refine ⟨fun hroom => execReduceDone_full htab hphase hquiet hctr hhold hroom, ?_⟩
    rintro offs _ b hroom rfl hopt
    exact execReduceDone_updates htab hphase hquiet hctr hhold hroom hopt
  case update =>
    exact fun s x t htab hws hcfg hx =>
      ⟨fun hphase hitem htpl hsent hack hopt hgood => execUpdateComplete_votes htab hws hcfg hphase hitem htpl hsent hack hopt hgood hx,
       fun hphase hitem => execUpdateComplete_itemErr htab hws hcfg hphase hitem⟩

end Sys2Proof.Machine
end

section
/-! PROOFS. The loss scale, the waits that end a watershed or a core's item, and the rest of a job (10 R287, R289 to R292, R296), and O32. -/

namespace Sys2Proof.Machine

/-! ## The loss scale (R291) -/

section
variable (t : Train) (n : Nat)

theorem Train.scale_commit : (t.scale true false n).e = (if t.clean + 1 = n then min (t.e + 1) 64 else t.e) ∧
    (t.scale true false n).clean = if t.clean + 1 = n then 0 else t.clean + 1 := by
  by_cases h : t.clean + 1 = n <;> simp [Train.scale, h]

theorem Train.scale_ovf : (t.scale false true n).e = max (t.e - 1) (-64) ∧ (t.scale false true n).clean = 0 := ⟨rfl, rfl⟩

theorem Train.scale_abort : t.scale false false n = t := rfl

end

section
variable {s : State} {ms : Nat}

/-! ## Waits that end (R287, R292) -/

theorem execSeqWaitTimeout_votes {t : StageTab} (htab : s.train.tab = some t) (hphase : s.train.phase = 3)
    (hctr : (s.ctrSeen t.rctr).toNat < t.rthr) (hms : s.jc.waitTmo ≤ ms) : execSeqWaitTimeout ms s = .next s.earlyVote := by
  simp only [execSeqWaitTimeout, htab, hphase]
  exact when_next (by simp [hctr, hms])

theorem execMirrorWaitTimeout_votes (hphase : s.train.phase = 4) (hmirrors : 0 < s.train.mirrors) (hms : s.jc.mirrorWait ≤ ms) :
    execMirrorWaitTimeout ms s = .next s.earlyVote :=
  when_next (by simp [hphase, hmirrors, hms])

theorem execOutcomeGraceTimeout_unresolved (hws : s.train.ws = .voting) (hms : s.jc.voteTmo + s.jc.outGrace ≤ ms) :
    execOutcomeGraceTimeout ms s = .next
      ((((s.updTrain fun t => { t with ws := .unresolved }).postSes s.train.sid 0x0005 s.train.vseq).report
        (rep 2 9 0 5 0x41 s.train.vseq.toNat)).setJob .held 3) :=
  when_next (by simp [hws, hms])

/-! ## Rest (R296) -/

/-- The job's lists are reset and its cores go on. -/
def State.resetLists (s : State) : State :=
  let x := (s.jobQueues 6).foldl (fun (a : State) q => a.resetQueue q) s
  { x with cores := x.cores.map fun (c : Nat × Cor) => (c.1, { c.2 with held := false }) }

/-- The job is at rest, with no hold or resume due. -/
def State.rested (s : State) : State := s.updTrain fun t => { t with atRest := true, due := 0, wantRun := false }

section
variable (hrest : s.train.atRest = false) (hcores : (s.cores.any fun c => c.2.held && c.2.item.isSome) = false)
include hrest hcores

theorem execAttemptRest_sealed (hquiet : ((s.jobQueues 6).any fun q => !s.quietQ q) = true) :
    execAttemptRest s = .next (s.beginReset (s.jobQueues 6)).settle := by
  simp [execAttemptRest, hrest, hcores, hquiet]

section
variable (hquiet : ((s.jobQueues 6).any fun q => !s.quietQ q) = false)
include hquiet

/-- At rest the job holds where a hold is due, else goes on where that is wanted; what waited for the rest follows. -/
theorem execAttemptRest_rests : execAttemptRest s = .next
    (if s.resetLists.train.due > 0 ∧ s.resetLists.train.js = .run then s.resetLists.rested.endReplay.setJob .held s.resetLists.train.due
     else if (s.resetLists.train.wantRun && s.resetLists.train.due == 0) = true ∧ s.resetLists.train.js = .held then
       s.resetLists.rested.setJob .run 0
     else s.resetLists.rested).readmitDue.startCert.startCfg := by
  simp only [execAttemptRest, hrest, hcores, hquiet, Bool.false_eq_true, or_self, if_false]
  rfl

theorem execAttemptRest_retries (hdue : s.resetLists.train.due = 0) (hrun : s.resetLists.train.wantRun = false) :
    execAttemptRest s = .next s.resetLists.rested.readmitDue.startCert.startCfg := by
  rw [execAttemptRest_rests hrest hcores hquiet, if_neg (by simp [hdue]), if_neg (by simp [hrun])]

theorem execAttemptRest_holds (hdue : 0 < s.resetLists.train.due) (hjs : s.resetLists.train.js = .run) :
    execAttemptRest s = .next (s.resetLists.rested.endReplay.setJob .held s.resetLists.train.due).readmitDue.startCert.startCfg := by
  rw [execAttemptRest_rests hrest hcores hquiet, if_pos ⟨hdue, hjs⟩]

end

end

/-! ## A core that starts over (R296) -/

theorem execCoreBoundaryTimeout_restarts {c : Nat} (hc : c < 512) (hrest : s.train.atRest = false) (hheld : (s.core c).held = true)
    (hitem : (s.core c).item.isSome = true) (hms : s.jc.waitTmo ≤ ms) : execCoreBoundaryTimeout c ms s =
      .next (((s.endItem c 0x109 0#32 0#32 true).launchCore c).updCore c fun k => { k with held := true }) :=
  Eq.trans (if_pos hc) (when_next (by simp [hrest, hheld, hitem, hms]))

end

/-- Settles O32: each wait's condition holds under its clause's hypotheses (`when_next`), a vote sets PHASE and joins the votes that wait
(`State.postVote_train`), and a rest goes by the sealed collectives and by the hold that is due. -/
theorem watershedsCommitOrAbort : Obligations.WatershedsCommitOrAbort := by
  refine ⟨?scale, ?reduce, ?mirror, ?vote, ?unresolved, ?rest, ?sealed, ?boundary⟩
  case scale =>
    intro t n
    obtain ⟨hce, hcc⟩ := t.scale_commit n
    obtain ⟨hoe, hoc⟩ := t.scale_ovf n
    exact ⟨hce, hcc, hoe, hoc, t.scale_abort n⟩
  case reduce => exact fun s t ms htab hphase hctr hms => execSeqWaitTimeout_votes htab hphase hctr hms
  case mirror => exact fun s ms hphase hmirrors hms => execMirrorWaitTimeout_votes hphase hmirrors hms
  case vote => exact fun s t h o htab => s.postVote_train h o htab
  case unresolved => exact fun s ms hws hms => execOutcomeGraceTimeout_unresolved hws hms
  case rest =>
    rintro s _ _ hrest hcores hquiet rfl rfl
    exact ⟨fun hdue hrun => execAttemptRest_retries hrest hcores hquiet hdue hrun,
      fun hdue hjs => execAttemptRest_holds hrest hcores hquiet hdue hjs⟩
  case sealed => exact fun s hrest hcores hquiet => execAttemptRest_sealed hrest hcores hquiet
  case boundary => exact fun s c ms hc hrest hheld hitem hms => execCoreBoundaryTimeout_restarts hc hrest hheld hitem hms

end Sys2Proof.Machine
end

section
/-! PROOFS. Inputs recorded and replayed, exports acknowledged, and the certification of an output (11 R319, R321 to R323, R325, R326), and O34. -/

namespace Sys2Proof.Machine

section
variable {s : State} {data : List Byte}

/-! ## Inputs and exports (R319, R321) -/

theorem execIngestComplete_takes (obj off dst : Nat) (hjs : s.train.js ≠ .idle) (hreplay : s.det.replay = false) (hdata : data ≠ [])
    (hlen : data.length ≤ 2 ^ 31) : execIngestComplete obj off dst data s = .next
      ((((s.memPut .service 0 (dst % 2 ^ 40) data).1).addInput 1 obj off (dst % 2 ^ 40) data).postInput obj s.det.inputs.length (dst % 2 ^ 40)) := by
  have hopen : ¬(s.train.js = .idle ∨ s.det.replay = true ∨ data.isEmpty = true ∨ data.length > 2 ^ 31) := by
    simpa [hjs, hreplay, hdata] using hlen
  exact if_neg hopen

theorem execExportAck_counts (hpend : 0 < s.det.expPend) : execExportAck s = .next (s.updDet fun d => { d with expPend := d.expPend - 1 }) :=
  when_next (decide_eq_true hpend)

/-! ## A replay's inputs (R322, R323) -/

/-- The data of recorded input `x` in a replay: the record's own under REC 2, else what was fetched again. -/
def State.replayData (s : State) (x : InputRec) (fetched : List Byte) : List Byte := if s.jc.rec_ = 2 then x.data else fetched

section
variable {x : InputRec} {xs : List InputRec} (hfeed : s.det.feed = x :: xs) (hreplay : s.det.replay = true) (hphase : s.train.phase ≠ 0)
include hfeed hreplay hphase

theorem execReplayInputDeliver_eq : execReplayInputDeliver data s =
    if (treeHash (s.replayData x data)).take 24 ≠ x.dig ∨ (s.replayData x data).length ≠ x.len then
      .next ((s.updDet fun d => { d with mismatch := true, morder := if d.mismatch then d.morder else x.order, feed := [] }).report
        (rep 2 9 0 8 0x42 x.order))
    else .next ((((s.memPut .service 0 x.dst (s.replayData x data)).1.updDet fun d => { d with feed := xs }).updDet fun d =>
      { d with inputs := d.inputs ++ [{ x with data := s.replayData x data }] }).postInput x.obj x.order x.dst) := by
  have hready : ¬((!s.det.replay) = true ∨ s.train.phase = 0) := by simp [hreplay, hphase]
  simp only [execReplayInputDeliver, hfeed, hready, if_false]
  rfl

theorem execReplayInputDeliver_delivers (hdig : (treeHash (s.replayData x data)).take 24 = x.dig) (hlen : (s.replayData x data).length = x.len) :
    execReplayInputDeliver data s = .next
      ((((s.memPut .service 0 x.dst (s.replayData x data)).1.updDet fun d => { d with feed := xs }).updDet fun d =>
        { d with inputs := d.inputs ++ [{ x with data := s.replayData x data }] }).postInput x.obj x.order x.dst) := by
  rw [execReplayInputDeliver_eq hfeed hreplay hphase, if_neg (by simp [hdig, hlen])]

theorem execReplayInputDeliver_mismatches
    (hbad : (treeHash (s.replayData x data)).take 24 ≠ x.dig ∨ (s.replayData x data).length ≠ x.len) : execReplayInputDeliver data s = .next
      ((s.updDet fun d => { d with mismatch := true, morder := if d.mismatch then d.morder else x.order, feed := [] }).report
        (rep 2 9 0 8 0x42 x.order)) := by
  rw [execReplayInputDeliver_eq hfeed hreplay hphase, if_pos hbad]

end

/-! ## Certified outputs (R325, R326) -/

/-- What a certification of step `T` takes between attempts: where the job stands, and whether step `T` ran at a fixed frequency. -/
def State.certPoint (s : State) (T : W64) : CertAt :=
  { slot := s.train.slot, step := s.train.step, vseq := s.train.vseq, e := s.train.e, clean := s.train.clean,
    ff := ((s.det.ffAt.find? fun f => f.1 == T).map (·.2)).getD false }

section
variable {c : Nat × Nat × Nat × W64 × Nat} (hcert : s.det.cert = some c)
include hcert

theorem State.startCert_begins (hnone : s.det.certAt = none) (hbetween : s.between = true) (hrest : s.train.atRest = true) :
    s.startCert = s.updDet fun d => { d with certAt := some (s.certPoint c.2.2.2.1) } := by
  have hready : ¬(s.det.certAt.isSome = true ∨ (!s.between) = true ∨ (!s.train.atRest) = true) := by simp [hnone, hbetween, hrest]
  simp only [State.startCert, hcert, hready, if_false]
  rfl

theorem execCertifyHashComplete_ends {t : StageTab} {k : CertAt} {x : State × List Byte × Bool} (hat : s.det.certAt = some k)
    (htab : s.train.tab = some t) (hx : x = s.digestRecord t k c.2.1 c.2.2.1 c.2.2.2.1) : execCertifyHashComplete s = .next
      (((x.1.hubWrite c.2.2.2.2 x.2.1).updDet fun d => { d with cert := none, certAt := none }).finishLong c.1
        (if x.2.2 then 0x10B else 2) 0#32 0#32 0#32 0#32) := by
  subst hx
  simp only [execCertifyHashComplete, hcert, hat, htab, State.doneLong]
  split <;> rfl

end

end

/-- Settles O34: each rule's guard holds under its clause's hypotheses, a replayed input goes by the two outcomes of its digest and length
(`execReplayInputDeliver_eq`), and a certification's two ends differ in the status alone. -/
theorem recordedInputsAndCertifiedOutputs : Obligations.RecordedInputsAndCertifiedOutputs := by
  refine ⟨?ingest, ?ack, ?replay, ?begins, ?ends⟩
  case ingest => exact fun s obj off dst data hjs hreplay hdata hlen => execIngestComplete_takes obj off dst hjs hreplay hdata hlen
  case ack => exact fun s hpend => execExportAck_counts hpend
  case replay =>
    rintro s x xs data _ hfeed hreplay hphase rfl
    exact ⟨fun hdig hlen => execReplayInputDeliver_delivers hfeed hreplay hphase hdig hlen,
      fun hbad => execReplayInputDeliver_mismatches hfeed hreplay hphase hbad⟩
  case begins =>
    exact fun s c hcert hnone hbetween hrest =>
      ⟨s.certPoint c.2.2.2.1, State.startCert_begins hcert hnone hbetween hrest, rfl, rfl, rfl, rfl, rfl⟩
  case ends => exact fun s t c k x hcert hat htab hx => execCertifyHashComplete_ends hcert hat htab hx

end Sys2Proof.Machine
end

section
/-! PROOFS. The command arbiter: what it does with each command that it takes (12 R345, R348, R355, 14 R400), and O47, O48 and O49. -/

namespace Sys2Proof.Machine

/-! ## What refuses a command -/

section
variable {s : State} {c : Cmd}

/-- Taking a command leaves faults and sessions as they are. -/
@[simp] theorem State.takeCmd_flt : (s.takeCmd c).flt = s.flt := by
  unfold State.takeCmd
  split <;> rfl

@[simp] theorem State.takeCmd_sidOf : (s.takeCmd c).sidOf c = s.sidOf c := by
  unfold State.takeCmd State.sidOf
  split
  · next hq => simp only [hq, State.que_updQue_same]; rfl
  · rfl

@[simp] theorem State.takeCmd_sess (i : Nat) : (s.takeCmd c).sess i = s.sess i := by
  unfold State.takeCmd
  split <;> rfl

/-- In FATAL, a reset that the tray manager did not send is DENIED. -/
theorem State.refusal_fatal_reset (hf : s.flt.fatal = true) (ho : c.opc = 0x0014) (hm : c.master ≠ 2) :
    s.refusal c = some (0x107, 0#32) := if_pos ⟨hf, ho, hm⟩

/-- In FATAL, a command of none of the five opcodes of R400 is refused with BAD_STATE. -/
theorem State.refusal_fatal_other (hf : s.flt.fatal = true) (ho : c.opc ∉ [0x0000, 0x0003, 0x0014, 0x0700, 0x0702]) :
    s.refusal c = some (0x104, 0#32) := by
  have hreset : c.opc ≠ 0x0014 := fun h => ho (by simp [h])
  simp only [State.refusal, hf, hreset, true_and, false_and, if_false]
  exact if_pos (by simpa using ho)

/-- In FATAL, the five opcodes are let pass where word 0 and the master are good. -/
theorem State.refusal_fatal_none {ms : List Nat} (hf : s.flt.fatal = true) (ho : c.opc ∈ [0x0000, 0x0003, 0x0014, 0x0700, 0x0702])
    (hreset : c.opc = 0x0014 → c.master = 2) (h28 : c.f 0 31 28 = 0) (h22 : c.f 0 27 22 = 0) (h16 : c.f 0 19 16 = 0)
    (hms : opcMasters c.opc = some ms) (hin : c.master ∈ ms)
    (h13 : (s.sess (s.sidOf c)).v13 = true → c.master = 0 → opc13 c.opc = true) : s.refusal c = none := by
  have htray : ¬(c.opc = 0x0014 ∧ c.master ≠ 2) := fun h => h.2 (hreset h.1)
  have hlist : [0x0000, 0x0003, 0x0014, 0x0700, 0x0702].contains c.opc = true := by simpa using ho
  have hsess : ¬((s.sess (s.sidOf c)).v13 = true ∧ c.master = 0 ∧ (!opc13 c.opc) = true) := by
    rintro ⟨hv, hm, hn⟩
    simp [h13 hv hm] at hn
  simp only [State.refusal, hf, htray, hlist, h28, h22, h16, hms, hsess]
  simp [hin]

/-! ## How a command is carried out -/

theorem State.admitWith_refused {run : Cmd → State → State} {x : Nat × W32} (h : s.refusal c = some x) :
    s.admitWith c run = s.reply c x.1 x.2 0#32 0#32 0#32 := by
  simp only [State.admitWith, h]

theorem State.admitWith_passed {run : Cmd → State → State} (h : s.refusal c = none) : s.admitWith c run = run c s := by
  simp only [State.admitWith, h]

theorem State.vendor_refused {x : Nat × W32} (h : s.refusal c = some x) : s.vendor c = .next (s.reply c x.1 x.2 0#32 0#32 0#32) := by
  simp only [State.vendor, h]

theorem State.vendor_locked (h : s.refusal c = none) (hlock : (s.sess (s.sidOf c)).unlocked = false) :
    s.vendor c = .next (s.deny c 0x107) := by
  simp [State.vendor, h, hlock]

theorem State.vendor_unlocked (h : s.refusal c = none) (hopen : (s.sess (s.sidOf c)).unlocked = true) :
    s.vendor c = .refused .vendorEffect := by
  simp [State.vendor, h, hopen]

/-- What the frame refuses completes with the refusal's status, whatever its opcode. -/
theorem State.admitCmd_refused {x : Nat × W32} (h : (s.takeCmd c).refusal c = some x) :
    s.admitCmd c = .next ((s.takeCmd c).reply c x.1 x.2 0#32 0#32 0#32) := by
  unfold State.admitCmd
  dsimp only
  split
  · exact State.vendor_refused h
  · split <;> exact congrArg _ (State.admitWith_refused h)

/-- What the frame lets pass is carried out by its rule of Table 12-7. -/
theorem State.admitCmd_rule {run : Cmd → State → State} (hv : vendorOpc c.opc = false) (hrule : ruleOf c.opc = some run)
    (h : (s.takeCmd c).refusal c = none) : s.admitCmd c = .next (run c (s.takeCmd c)) := by
  simp only [State.admitCmd, hv, hrule, State.admitWith_passed h]
  rfl

/-- A vendor opcode's row, for a command that is next in order. -/
theorem execVendorOpcode_admits {q : Nat} {d : Desc} (hq : q < 8192) (hv : vendorOpc (cmdOf s q d).opc = true) (ho : s.hsqOpen q = true)
    (ht : s.inTurn (cmdOf s q d) = true) : execVendorOpcode q d s = s.vendor (cmdOf s q d) := by
  simp only [cmdOf] at hv ht ⊢
  simp only [execVendorOpcode, unit_of_lt hq, hv, ho, ht, Bool.and_self, if_true]

theorem State.deviceReset_fatal (hf : s.flt.fatal = true) : s.deviceReset = s := if_pos hf

/-- In FATAL, PERST_N resets the endpoint and no more. -/
theorem execPerstAssert_fatal (hf : s.flt.fatal = true) (hp : s.mod.perst = false) :
    execPerstAssert s = .next ((s.updMod fun m => { m with perst := true }).updHost HostIf.endpoint) :=
  (when_next (by rw [hp]; rfl)).trans (congrArg _ (ite_eq_left_iff.2 fun _ => State.deviceReset_fatal hf))

/-! ## The arbiter -/

theorem exec_commandAdmit : exec .commandAdmit s = execCommandAdmit s := rfl

theorem execCommandAdmit_idle (hh : s.hostCand = none) (ht : s.trayCand = none) : execCommandAdmit s = .next s := by
  unfold execCommandAdmit
  simp only [hh, ht]

theorem execCommandAdmit_alone (h : s.hostCand = some c ∧ s.trayCand = none ∨ s.hostCand = none ∧ s.trayCand = some c) :
    execCommandAdmit s = s.admitCmd c := by
  unfold execCommandAdmit
  obtain ⟨hh, ht⟩ | ⟨hh, ht⟩ := h <;> simp only [hh, ht]

section
variable {h t : Cmd} (hh : s.hostCand = some h) (ht : s.trayCand = some t)
include hh ht

/-- The cycle after a tie admits the winner. -/
theorem execCommandAdmit_winner :
    (s.host.tieNext = 1 → execCommandAdmit s = s.admitCmd h) ∧ (s.host.tieNext = 2 → execCommandAdmit s = s.admitCmd t) := by
  unfold execCommandAdmit
  exact ⟨fun hn => by simp [hh, ht, hn], fun hn => by simp [hh, ht, hn]⟩

/-- A tie counts, and admits the loser with the winner named for the next cycle. -/
theorem execCommandAdmit_tie {u v : State} {win lose : Cmd} (hn : s.host.tieNext = 0) (hwin : win = if trayWins t.opc then t else h)
    (hlose : lose = if trayWins t.opc then h else t) (hu : u = s.updHost fun x => { x with ties := satAdd 16 x.ties 1 })
    (hv : u.admitCmd lose = .next v) :
    execCommandAdmit s = .next (v.updHost fun x => { x with tieNext := if win.q = 8190 then 2 else 1 }) := by
  subst hwin hlose hu
  unfold execCommandAdmit
  simp [hh, ht, hn, hv]

end

theorem trayWins_iff (o : Nat) : trayWins o = true ↔ o / 256 = 6 ∨ o = 0x0014 ∨ o = 0x0013 := by
  simp [trayWins, or_assoc]

end

/-- An opcode that R400 carries out in FATAL has a rule of its own and is no vendor opcode. -/
theorem ruleOf_of_fatal {o : Nat} (ho : o ∈ [0x0000, 0x0003, 0x0014, 0x0700, 0x0702]) :
    (ruleOf o).isSome = true ∧ vendorOpc o = false := by
  revert o
  decide

/-- Settles O48: a command that is alone, or that follows a tie, is the one carried out (`execCommandAdmit_alone`,
`execCommandAdmit_winner`), the loser of a tie goes first (`execCommandAdmit_tie`), and a command that is carried out goes by its frame
(`State.admitCmd_rule`, `State.admitCmd_refused`). -/
theorem commandsAreAdmittedInTurn : Obligations.CommandsAreAdmittedInTurn := by
  refine ⟨?idle, ?alone, ?tie, ?winner, trayWins_iff, rfl, rfl⟩
  case idle => exact fun s hh ht => exec_commandAdmit.trans (execCommandAdmit_idle hh ht)
  case alone =>
    rintro s _ c hc rfl hv
    exact ⟨fun run hrule hpass => (execCommandAdmit_alone hc).trans (State.admitCmd_rule hv hrule hpass),
      fun x d href => (execCommandAdmit_alone hc).trans (State.admitCmd_refused href)⟩
  case tie =>
    intro s h t hh ht hn
    refine ⟨if trayWins t.opc then t else h, if trayWins t.opc then h else t, _, ?_, ?_, rfl, fun run hrule hpass hv => ?_⟩
    · simp only [trayWins_iff]
    · by_cases hw : trayWins t.opc = true <;> simp +contextual [hw]
    · exact execCommandAdmit_tie hh ht hn rfl rfl rfl (State.admitCmd_rule hv hrule hpass)
  case winner => exact fun s h t hh ht => execCommandAdmit_winner hh ht

/-- Settles O47: in FATAL the frame refuses what R400 does not list (`State.refusal_fatal_other`, `State.refusal_fatal_reset`), and what it
refuses does nothing but complete; what it lists passes (`State.refusal_fatal_none`) and is carried out by its own rule. -/
theorem fatalLimitsTheCommands : Obligations.FatalLimitsTheCommands := by
  refine ⟨fun s c hf => ?_, fun s hf hp => ?perst⟩
  · have hf' : (s.takeCmd c).flt.fatal = true := by simpa using hf
    refine ⟨?other, ?reset, ?listed, ?tray⟩
    case other => exact fun ho => State.admitCmd_refused (State.refusal_fatal_other hf' ho)
    case reset => exact fun ho hm => State.admitCmd_refused (State.refusal_fatal_reset hf' ho hm)
    case listed =>
      intro ms ho h28 h22 h16 hms hin h13
      have hfive : c.opc ∈ [0x0000, 0x0003, 0x0014, 0x0700, 0x0702] := by simp at ho ⊢; omega
      obtain ⟨hrule, hv⟩ := ruleOf_of_fatal hfive
      obtain ⟨run, hrun⟩ := Option.isSome_iff_exists.mp hrule
      have hpass : (s.takeCmd c).refusal c = none :=
        State.refusal_fatal_none hf' hfive (fun h => by simp [h] at ho) h28 h22 h16 hms hin (by simpa using h13)
      exact ⟨run, hrun, State.admitCmd_rule hv hrun hpass⟩
    case tray =>
      intro ho hm h28 h22 h16
      have hms : opcMasters c.opc = some [0, 2] := by rw [ho]; rfl
      have hpass : (s.takeCmd c).refusal c = none :=
        State.refusal_fatal_none hf' (by simp [ho]) (fun _ => hm) h28 h22 h16 hms (by simp [hm]) (fun _ h0 => by omega)
      exact State.admitCmd_rule (by rw [ho]; rfl) (by rw [ho]; rfl) hpass
  case perst => exact execPerstAssert_fatal hf hp

/-- Settles O49: a vendor opcode that is next in order goes by its frame, then by its session's lock (`execVendorOpcode_admits`). -/
theorem vendorOpcodesNeedAnUnlock : Obligations.VendorOpcodesNeedAnUnlock := by
  rintro s q d _ rfl hq hv ho ht
  have admits : ∀ {r : Res}, s.vendor (cmdOf s q d) = r → exec (.vendorOpcode q d) s = r := (execVendorOpcode_admits hq hv ho ht).trans
  exact ⟨fun hpass hlock => admits (State.vendor_locked hpass hlock), fun hpass hopen => admits (State.vendor_unlocked hpass hopen),
    fun x e href => admits (State.vendor_refused href)⟩

end Sys2Proof.Machine
end

section
/-! PROOFS. The rack's new shares (13 R373), and O54. -/

namespace Sys2Proof.Machine

/-! ## The ranking -/

/-- A report that ranks before another has no less slack; one that does not has no more. -/
theorem BalRep.slack_of_before {a b : BalRep} : (a.before b = true → b.slack ≤ a.slack) ∧ (¬a.before b = true → a.slack ≤ b.slack) := by
  simp only [BalRep.before, Bool.or_eq_true, decide_eq_true_eq, Bool.and_eq_true, beq_iff_eq]
  omega

theorem rankIns_perm (r : BalRep) (l : List BalRep) : (rankIns r l).Perm (r :: l) := by
  induction l with
  | nil => rfl
  | cons x l ih =>
    simp only [rankIns]
    split
    · rfl
    · exact (ih.cons x).trans (.swap r x l)

/-- Slack falls along a list of reports. -/
def SlackFalls (l : List BalRep) : Prop := l.Pairwise fun a b => b.slack ≤ a.slack

theorem rankIns_falls (r : BalRep) {l : List BalRep} (h : SlackFalls l) : SlackFalls (rankIns r l) := by
  induction l with
  | nil => exact List.pairwise_singleton _ _
  | cons x l ih =>
    obtain ⟨hx, hl⟩ := List.pairwise_cons.1 h
    simp only [rankIns]
    split
    · next hb =>
      have hr := BalRep.slack_of_before.1 hb
      exact List.pairwise_cons.2 ⟨List.forall_mem_cons.2 ⟨hr, fun y hy => (hx y hy).trans hr⟩, h⟩
    · next hb =>
      refine List.pairwise_cons.2 ⟨fun y hy => ?_, ih hl⟩
      obtain rfl | hy := List.mem_cons.1 ((rankIns_perm r l).mem_iff.1 hy)
      · exact BalRep.slack_of_before.2 hb
      · exact hx y hy

/-- The ranking holds the reports in the order of falling slack. -/
theorem rankAll_ranks (l : List BalRep) : (rankAll l).Perm l ∧ SlackFalls (rankAll l) := by
  have insertions : ∀ l a : List BalRep, SlackFalls a →
      (l.foldl (fun a r => rankIns r a) a).Perm (l ++ a) ∧ SlackFalls (l.foldl (fun a r => rankIns r a) a) := by
    intro l
    induction l with
    | nil => exact fun a ha => ⟨.refl _, ha⟩
    | cons r l ih =>
      intro a ha
      obtain ⟨hp, hs⟩ := ih (rankIns r a) (rankIns_falls r ha)
      exact ⟨hp.trans (((rankIns_perm r a).append_left l).trans List.perm_middle), hs⟩
  simpa [rankAll] using insertions l [] .nil

/-- The first and the last `k` of a list of `2 k` or more are apart. -/
theorem take_append_drop_sublist {α : Type} (l : List α) {k : Nat} (h : 2 * k ≤ l.length) :
    (l.take k ++ l.drop (l.length - k)).Sublist l := by
  have hlast : (l.drop (l.length - k)).Sublist (l.drop k) := List.drop_sublist_drop_left l (by omega)
  simpa using hlast.append_left (l.take k)

/-! ## Watts left over -/

@[simp] theorem giveBack_reports (n : Nat) (l : List (BalRep × Nat)) : (giveBack n l).map (·.1) = l.map (·.1) := by
  induction l generalizing n with
  | nil => rfl
  | cons x l ih => simp [giveBack, ih]

/-- What is returned to the givers is taken off what they give, as far as that goes. -/
theorem giveBack_sum (n : Nat) (l : List (BalRep × Nat)) :
    ((giveBack n l).map (·.2)).sum = (l.map (·.2)).sum - n := by
  induction l generalizing n with
  | nil => simp [giveBack]
  | cons x l ih =>
    simp only [giveBack, List.map_cons, List.sum_cons, ih]
    omega

theorem giveBack_le {n : Nat} {l : List (BalRep × Nat)} {g : BalRep × Nat} (h : g ∈ giveBack n l) : ∃ w, (g.1, w) ∈ l ∧ g.2 ≤ w := by
  induction l generalizing n with
  | nil => simp [giveBack] at h
  | cons x l ih =>
    obtain rfl | h := List.mem_cons.1 h
    · exact ⟨x.2, List.mem_cons_self, Nat.sub_le _ _⟩
    · obtain ⟨w, hw, hle⟩ := ih h
      exact ⟨w, List.mem_cons_of_mem _ hw, hle⟩

/-! ## The new shares -/

/-- What the givers of a ranking give before any of it is returned. -/
def offers (ranked : List BalRep) (step least : Nat) : List (BalRep × Nat) :=
  (ranked.take (ranked.length / 4)).map fun r => (r, min step (r.share - least))

/-- What its takers take of the watts offered. -/
def takings (ranked : List BalRep) (step least : Nat) : List (BalRep × Nat) :=
  (ranked.drop (ranked.length - ranked.length / 4)).map fun r =>
    (r, min (((offers ranked step least).map (·.2)).sum / max 1 (ranked.length / 4)) (r.ceil_ - r.share))

/-- The takers never take more than is offered: each takes an equal part at most. -/
theorem takings_sum_le (ranked : List BalRep) (step least : Nat) :
    ((takings ranked step least).map (·.2)).sum ≤ ((offers ranked step least).map (·.2)).sum := by
  have hlen : ((takings ranked step least).map (·.2)).length = ranked.length / 4 := by simp [takings]; omega
  have hpart : ∀ w ∈ (takings ranked step least).map (·.2),
      w ≤ ((offers ranked step least).map (·.2)).sum / max 1 (ranked.length / 4) := by
    intro w hw
    simp only [takings, List.map_map, List.mem_map, Function.comp_apply] at hw
    obtain ⟨r, _, rfl⟩ := hw
    exact min_le_left _ _
  calc ((takings ranked step least).map (·.2)).sum
      ≤ ranked.length / 4 * (((offers ranked step least).map (·.2)).sum / max 1 (ranked.length / 4)) := by
        simpa [hlen] using List.sum_le_card_nsmul _ _ hpart
    _ ≤ max 1 (ranked.length / 4) * (((offers ranked step least).map (·.2)).sum / max 1 (ranked.length / 4)) :=
        Nat.mul_le_mul_right _ (le_max_right _ _)
    _ ≤ ((offers ranked step least).map (·.2)).sum := Nat.mul_div_le _ _

/-- The new shares are the offers, from some giver on, less what is left over, and the takings. -/
theorem newShares_eq (l : List BalRep) (step least turn : Nat) : ∃ left given, given.Perm (offers (rankAll l) step least) ∧
    left = ((offers (rankAll l) step least).map (·.2)).sum - ((takings (rankAll l) step least).map (·.2)).sum ∧
    newShares l step least turn = (giveBack left given, takings (rankAll l) step least) :=
  ⟨_, _, List.perm_append_comm.trans (.of_eq (List.take_append_drop _ _)), rfl, rfl⟩

/-- Settles O54: the ranking holds every report in the order of falling slack (`rankAll_ranks`), so that its first and last quarters are
apart; what is left over of the offers is returned (`giveBack_sum`), and an offer and a taking keep to their bounds by their definitions. -/
theorem balancingConservesWatts : Obligations.BalancingConservesWatts := by
  intro l step least turn
  obtain ⟨left, given, hgiven, hleft, heq⟩ := newShares_eq l step least turn
  obtain ⟨hperm, hfalls⟩ := rankAll_ranks l
  have hlen := hperm.length_eq
  have hgivers : ((giveBack left given).map (·.1)).Perm ((rankAll l).take ((rankAll l).length / 4)) := by
    simpa [offers, Function.comp_def] using hgiven.map (·.1)
  have htakers : (takings (rankAll l) step least).map (·.1) = (rankAll l).drop ((rankAll l).length - (rankAll l).length / 4) := by
    simp [takings, Function.comp_def]
  have hapart := take_append_drop_sublist (rankAll l) (k := (rankAll l).length / 4) (by omega)
  simp only [heq]
  refine ⟨?sums, ?givers, ?takers, ?apart, ?gives, ?takes, ?slack⟩
  case sums =>
    have hle := takings_sum_le (rankAll l) step least
    rw [giveBack_sum, (hgiven.map (·.2)).sum_eq, hleft]
    omega
  case givers =>
    have hcount := hgivers.length_eq
    simp only [List.length_map, List.length_take, hlen] at hcount
    omega
  case takers => simp [takings, hlen]; omega
  case apart =>
    rw [htakers]
    exact (hgivers.append_right _).subperm.trans (hapart.subperm.trans hperm.subperm)
  case gives =>
    intro g hg
    obtain ⟨w, hw, hle⟩ := giveBack_le hg
    obtain ⟨r, _, hr⟩ := List.mem_map.1 (hgiven.mem_iff.1 hw)
    obtain ⟨rfl, rfl⟩ := Prod.mk.inj hr
    omega
  case takes =>
    intro t ht
    obtain ⟨r, _, rfl⟩ := List.mem_map.1 ht
    dsimp only
    omega
  case slack =>
    intro g hg t ht
    have hgiver := hgivers.mem_iff.1 (List.mem_map_of_mem hg)
    have htaker : t.1 ∈ (rankAll l).drop _ := htakers ▸ List.mem_map_of_mem ht
    exact (List.pairwise_append.1 (hfalls.sublist hapart)).2.2 _ hgiver _ htaker

end Sys2Proof.Machine
end

section
/-! PROOFS. The budget share: what each domain's level draws (13 R358, R363 to R366), and O51. -/

namespace Sys2Proof.Machine

/-! ## A domain's level -/

theorem ceilDiv_bounds (a : Int) {b : Int} (hb : 0 < b) : b * (ceilDiv a b - 1) < a ∧ a ≤ b * ceilDiv a b := by
  have hlo := Int.mul_ediv_self_le (x := -a) hb.ne'
  have hhi := Int.lt_mul_ediv_self_add (x := -a) hb
  simp only [ceilDiv, mul_sub, mul_neg]
  omega

section
variable (p : Power) (ph : Nat) (b : Int) (d : Nat) (rest : List Nat)

/-- Static and dynamic power of a domain. -/
def Power.stat : Int := (tget (0, 0) p.coef d).1
def Power.dyn : Int := (tget (0, 0) p.coef d).2

/-- What a domain draws at a level, in 1/6400 W. -/
def Power.load (l : Nat) : Int := 6400 * p.stat d + 100 * p.dyn d * l

/-- What domains draw at MINL. -/
def Power.least (l : List Nat) : Int := (l.map fun d => p.load d p.minl).sum

/-- What the allocation grants a domain before the domains behind it: its demand, as far as their least load leaves it. -/
def Power.want : Int := min ((800 * p.demandOf ph d : Nat) : Int) (b - p.least rest)

/-- The level that the allocation gives a domain with the domains `rest` behind it. -/
def Power.levelOf : Nat :=
  (max (p.minl : Int) (min (if p.want ph b d rest ≥ 6400 * p.stat d + 6400 * p.dyn d ∨ p.dyn d = 0 then 64
    else if !rest.isEmpty then ceilDiv (64 * (p.want ph b d rest - 6400 * p.stat d)) (6400 * p.dyn d)
    else (64 * (b - 6400 * p.stat d)) / (6400 * p.dyn d)) 64)).toNat

theorem Power.alloc_cons : p.alloc ph b (d :: rest) =
    (d, p.levelOf ph b d rest) :: p.alloc ph (b - p.load d (p.levelOf ph b d rest)) rest := rfl

@[simp] theorem Power.least_cons : p.least (d :: rest) = p.load d p.minl + p.least rest := List.sum_cons

theorem Power.dyn_nonneg : 0 ≤ p.dyn d := Int.natCast_nonneg _

variable {p ph b d rest}

theorem Power.load_of_static (h : p.dyn d = 0) (l : Nat) : p.load d l = 6400 * p.stat d := by simp [Power.load, h]

theorem Power.load_mono {l m : Nat} (h : l ≤ m) : p.load d l ≤ p.load d m := by
  have := mul_le_mul_of_nonneg_left (Int.ofNat_le.2 h) (p.dyn_nonneg d)
  simp only [Power.load]
  linarith

/-- How a level is found: the full one, or one between MINL and 64 for a quotient that is rounded up to the grant, or down to the budget for
the last domain. -/
theorem Power.levelOf_cases : ∃ raw : Int, (p.levelOf ph b d rest : Int) = max (p.minl : Int) (min raw 64) ∧
    (raw = 64 ∧ (6400 * p.stat d + 6400 * p.dyn d ≤ p.want ph b d rest ∨ p.dyn d = 0) ∨
      100 * p.dyn d * (raw - 1) < p.want ph b d rest - 6400 * p.stat d ∧ 0 < p.dyn d ∧
        p.want ph b d rest - 6400 * p.stat d ≤ 100 * p.dyn d * raw ∨
      rest = [] ∧ 0 < p.dyn d ∧ 100 * p.dyn d * raw ≤ b - 6400 * p.stat d) := by
  refine ⟨_, Int.toNat_of_nonneg (le_max_of_le_left (Int.natCast_nonneg _)), ?_⟩
  have hdyn := p.dyn_nonneg d
  split
  · next h => exact .inl ⟨rfl, h⟩
  · next h =>
    have hpos : 0 < 6400 * p.dyn d := by omega
    split
    · obtain ⟨hlo, hhi⟩ := ceilDiv_bounds (64 * (p.want ph b d rest - 6400 * p.stat d)) hpos
      exact .inr (.inl ⟨by linarith, by omega, by linarith⟩)
    · next hlast =>
      have hle := Int.mul_ediv_self_le (x := 64 * (b - 6400 * p.stat d)) hpos.ne'
      exact .inr (.inr ⟨by simpa using hlast, by omega, by linarith⟩)

/-- With budget for MINL of all, a domain draws no more than what the least load of the others leaves, but for one level. -/
theorem Power.levelOf_spends (hb : p.least (d :: rest) ≤ b) :
    p.load d (p.levelOf ph b d rest) ≤ b - p.least rest + 100 * p.dyn d := by
  rw [Power.least_cons] at hb
  have hwant : p.want ph b d rest ≤ b - p.least rest := min_le_right _ _
  have hdyn := p.dyn_nonneg d
  obtain ⟨raw, hl, hraw⟩ := Power.levelOf_cases (p := p) (ph := ph) (b := b) (d := d) (rest := rest)
  by_cases hmin : p.levelOf ph b d rest ≤ p.minl
  · have := Power.load_mono (p := p) (d := d) hmin
    linarith
  have hle : (p.levelOf ph b d rest : Int) ≤ raw ∧ (p.levelOf ph b d rest : Int) ≤ 64 := by omega
  have hmulraw := mul_le_mul_of_nonneg_left hle.1 hdyn
  have hmul64 := mul_le_mul_of_nonneg_left hle.2 hdyn
  simp only [Power.load]
  obtain ⟨-, hfull | hstatic⟩ | ⟨hraw, -⟩ | ⟨rfl, -, hraw⟩ := hraw
  · linarith
  · have hpay := Power.load_of_static hstatic p.minl
    simp only [hstatic]
    linarith
  · linarith
  · simp only [Power.least, List.map_nil, List.sum_nil]
    linarith

/-- With no more budget than for MINL of all, a domain draws its least load. -/
theorem Power.levelOf_short (hb : b ≤ p.least (d :: rest)) : p.load d (p.levelOf ph b d rest) = p.load d p.minl := by
  rw [Power.least_cons] at hb
  have hwant : p.want ph b d rest ≤ b - p.least rest := min_le_right _ _
  by_cases hstatic : p.dyn d = 0
  · rw [Power.load_of_static hstatic, Power.load_of_static hstatic]
  have hdyn : 0 < p.dyn d := by have := p.dyn_nonneg d; omega
  suffices p.levelOf ph b d rest = p.minl by rw [this]
  have hload : b - p.least rest ≤ 6400 * p.stat d + 100 * p.dyn d * p.minl := by simp only [Power.load] at hb; linarith
  obtain ⟨raw, hl, hraw⟩ := Power.levelOf_cases (p := p) (ph := ph) (b := b) (d := d) (rest := rest)
  have hle : raw ≤ p.minl := by
    obtain ⟨rfl, hfull | h0⟩ | ⟨hraw, -⟩ | ⟨rfl, -, hraw⟩ := hraw
    · have : 100 * p.dyn d * 64 ≤ 100 * p.dyn d * p.minl := by linarith
      exact le_of_mul_le_mul_left this (by omega)
    · exact absurd h0 hstatic
    · have : 100 * p.dyn d * (raw - 1) < 100 * p.dyn d * p.minl := by linarith
      have := lt_of_mul_lt_mul_left this (by omega)
      omega
    · simp only [Power.least, List.map_nil, List.sum_nil] at hload
      have : 100 * p.dyn d * raw ≤ 100 * p.dyn d * p.minl := by linarith
      exact le_of_mul_le_mul_left this (by omega)
  omega

section
variable (hm : p.minl ≤ 64)
include hm

theorem Power.levelOf_bounds : p.minl ≤ p.levelOf ph b d rest ∧ p.levelOf ph b d rest ≤ 64 := by
  obtain ⟨raw, hl, -⟩ := Power.levelOf_cases (p := p) (ph := ph) (b := b) (d := d) (rest := rest)
  omega

theorem Power.levelOf_of_static (h : p.dyn d = 0) : p.levelOf ph b d rest = 64 := by
  obtain ⟨raw, hl, ⟨rfl, -⟩ | ⟨-, hpos, -⟩ | ⟨-, hpos, -⟩⟩ := Power.levelOf_cases (p := p) (ph := ph) (b := b) (d := d) (rest := rest)
  all_goals omega

theorem Power.levelOf_full (hdemand : 6400 * (p.stat d + p.dyn d) ≤ ((800 * p.demandOf ph d : Nat) : Int))
    (hb : 6400 * (p.stat d + p.dyn d) ≤ b - p.least rest) : p.levelOf ph b d rest = 64 := by
  have hwant : 6400 * (p.stat d + p.dyn d) ≤ p.want ph b d rest := le_min hdemand hb
  have hfull : p.want ph b d rest ≥ 6400 * p.stat d + 6400 * p.dyn d ∨ p.dyn d = 0 := by omega
  simp only [Power.levelOf, if_pos hfull]
  omega

end

end

/-! ## The allocation -/

section
variable {p : Power} (ph : Nat) (b : Int) (l : List Nat)

/-- What the levels of an allocation draw. -/
def Power.drawn (p : Power) (a : List (Nat × Nat)) : Int := (a.map fun x => p.load x.1 x.2).sum

@[simp] theorem Power.drawn_cons (x : Nat × Nat) (a : List (Nat × Nat)) : p.drawn (x :: a) = p.load x.1 x.2 + p.drawn a := List.sum_cons

theorem Power.alloc_domains : (p.alloc ph b l).map (·.1) = l := by
  induction l generalizing b with
  | nil => rfl
  | cons d rest ih => rw [Power.alloc_cons, List.map_cons, ih]

/-- A budget of no more than the least load is met by the least load, so that what one domain drew too much is not drawn again. -/
theorem Power.alloc_short (hb : b ≤ p.least l) : p.drawn (p.alloc ph b l) = p.least l := by
  induction l generalizing b with
  | nil => rfl
  | cons d rest ih =>
    have hhead := Power.levelOf_short (ph := ph) (d := d) (rest := rest) hb
    rw [Power.least_cons] at hb
    rw [Power.alloc_cons, Power.drawn_cons, Power.least_cons, hhead, ih _ (by linarith)]

theorem Power.alloc_spends {k : Int} (hk : ∀ d ∈ l, p.dyn d ≤ k) (hk0 : 0 ≤ k) (hb : p.least l ≤ b) :
    p.drawn (p.alloc ph b l) ≤ b + 100 * k := by
  induction l generalizing b with
  | nil =>
    simp only [Power.least, Power.alloc, Power.drawn, List.map_nil, List.sum_nil] at hb ⊢
    omega
  | cons d rest ih =>
    obtain ⟨hd, hrest⟩ := List.forall_mem_cons.1 hk
    have hhead := Power.levelOf_spends (ph := ph) (d := d) (rest := rest) hb
    rw [Power.alloc_cons, Power.drawn_cons]
    dsimp only
    obtain hcovers | hshort := le_total (p.least rest) (b - p.load d (p.levelOf ph b d rest))
    · have := ih _ hrest hcovers
      linarith
    · rw [Power.alloc_short ph _ rest hshort]
      linarith

variable (hm : p.minl ≤ 64)
include hm

theorem Power.alloc_bounds : ∀ x ∈ p.alloc ph b l, p.minl ≤ x.2 ∧ x.2 ≤ 64 ∧ (p.dyn x.1 = 0 → x.2 = 64) := by
  induction l generalizing b with
  | nil => exact fun x hx => nomatch hx
  | cons d rest ih =>
    rw [Power.alloc_cons]
    obtain ⟨hlo, hhi⟩ := Power.levelOf_bounds (ph := ph) (b := b) (d := d) (rest := rest) hm
    exact List.forall_mem_cons.2 ⟨⟨hlo, hhi, fun h => Power.levelOf_of_static hm h⟩, ih _⟩

theorem Power.alloc_full (hdemand : ∀ d ∈ l, 6400 * (p.stat d + p.dyn d) ≤ ((800 * p.demandOf ph d : Nat) : Int))
    (hb : (l.map fun d => 6400 * (p.stat d + p.dyn d)).sum ≤ b) : ∀ x ∈ p.alloc ph b l, x.2 = 64 := by
  induction l generalizing b with
  | nil => exact fun x hx => nomatch hx
  | cons d rest ih =>
    obtain ⟨hd, hrest⟩ := List.forall_mem_cons.1 hdemand
    rw [List.map_cons, List.sum_cons] at hb
    have hfull : ∀ e, p.load e 64 = 6400 * (p.stat e + p.dyn e) := fun e => by simp only [Power.load]; push_cast; ring
    have hleast : p.least rest ≤ (rest.map fun d => 6400 * (p.stat d + p.dyn d)).sum :=
      List.sum_le_sum fun e _ => (Power.load_mono hm).trans_eq (hfull e)
    have h64 := Power.levelOf_full (b := b) (rest := rest) hm hd (by linarith)
    rw [Power.alloc_cons, h64]
    exact List.forall_mem_cons.2 ⟨rfl, ih _ hrest (by rw [hfull]; linarith)⟩

end

/-! ## Power levels of the gates -/

theorem tget_keyed {α : Type} {d : α} {f : Nat → α} {l : List Nat} {k : Nat} (h : k ∈ l) : tget d (l.map fun j => (j, f j)) k = f k := by
  induction l with
  | nil => simp at h
  | cons j l ih =>
    simp only [List.map_cons, tget]
    split
    · next hj => rw [hj]
    · next hj => exact ih ((List.mem_cons.1 h).resolve_left (Ne.symm hj))

/-- The level of a domain in a list of levels; full where the list does not name it. -/
def levelIn (ls : List (Nat × Nat)) (k : Nat) : Nat := ((ls.find? fun x => x.1 == gateDom k).map (·.2)).getD 64

/-- The levels of the domains (R363), with what comes before the allocation (R358, R365). -/
def Power.levels (p : Power) (ph : Nat) : List (Nat × Nat) :=
  if p.mode = 0 ∧ p.effLim ≥ 1505 then [(0, 64), (1, 64), (2, 64)]
  else if p.fast then [(0, 0), (1, 0), (2, 0)]
  else p.alloc ph (((p.effLim : Int) * 92 - (p.pbase : Int) * 100) * 64) p.order

section
variable {p : Power} {ph k : Nat}

theorem Power.share_pwr (hk : k ∈ gateKeys) : ((p.share ph).gate k).pwr = levelIn (p.levels ph) k :=
  congrArg Gate.pwr (tget_keyed hk)

theorem levelIn_all (k n : Nat) : levelIn [(0, n), (1, n), (2, n)] k = n := by
  unfold levelIn gateDom
  split <;> [rfl; split <;> rfl]

theorem Power.share_fixed (hk : k ∈ gateKeys) (hm : p.mode = 0) (hl : 1505 ≤ p.effLim) : ((p.share ph).gate k).pwr = 64 := by
  rw [Power.share_pwr hk, Power.levels, if_pos ⟨hm, hl⟩, levelIn_all]

theorem Power.share_fast (hk : k ∈ gateKeys) (hm : p.mode ≠ 0 ∨ p.effLim < 1505) (hf : p.fast = true) : ((p.share ph).gate k).pwr = 0 := by
  rw [Power.share_pwr hk, Power.levels, if_neg (by omega), if_pos hf, levelIn_all]

/-- The example of R364. -/
theorem Power.levels_example (hminl : p.minl = 8) (hprio : p.prio = 0x24) (hcoef : p.coef = [(0, (120, 600)), (1, (90, 380)), (2, (100, 50))])
    (hdemand : p.demand = [(16, 5760), (17, 3040), (18, 960)]) (hlim : p.effLim = 1400) (hbase : p.pbase = 215) (hfast : p.fast = false)
    (hmode : p.mode = 1) : p.levels 2 = [(2, 26), (1, 49), (0, 48)] := by
  simp only [Power.levels, hmode, hfast, hlim, hbase, Power.order, hprio, Power.alloc, Power.demandOf, hcoef, hdemand, hminl]
  decide

end

/-- Settles O51: a domain's level draws what its grant allows, rounded up by one level at most (`Power.levelOf_spends`), and with no more
budget than the least load every domain stays at it (`Power.levelOf_short`), so that one rounding is not added to another. -/
theorem budgetIsSharedInPriorityOrder : Obligations.BudgetIsSharedInPriorityOrder := by
  refine ⟨?bounds, ?spends, ?full, ?sample, ?gates⟩
  case bounds =>
    intro p ph b l hm
    refine ⟨Power.alloc_domains ph b l, fun x hx => ?_⟩
    obtain ⟨hlo, hhi, hstatic⟩ := Power.alloc_bounds ph b l hm x hx
    exact ⟨hlo, hhi, fun h => hstatic (congrArg Nat.cast h)⟩
  case spends =>
    intro p ph b l k _ hk hb
    exact Power.alloc_spends ph b l (k := k) (fun d hd => Int.ofNat_le.2 (hk d hd)) (Int.natCast_nonneg k) hb
  case full =>
    intro p ph b l hm hdemand hb
    refine Power.alloc_full ph b l hm (fun d hd => ?_) hb
    have := hdemand d hd
    simp only [Power.stat, Power.dyn]
    omega
  case sample =>
    intro p hminl hprio hcoef hdemand hlim hbase hfast hmode
    have hlevels := Power.levels_example hminl hprio hcoef hdemand hlim hbase hfast hmode
    refine ⟨?_, ?_, ?_⟩ <;> rw [Power.share_pwr (by decide), hlevels] <;> rfl
  case gates => exact fun p ph k hk => ⟨Power.share_fixed hk, Power.share_fast hk⟩

end Sys2Proof.Machine
end

section
/-! PROOFS. The flush at a power failure: what it plans, what that costs, and what one unit leaves (15 R417, R418, R420, R432), and O58. -/

namespace Sys2Proof.Machine

/-! ## The plan -/

/-- The flush units of the waiting ledger entries, 128 to a unit. -/
def ledgerUnits (n : Nat) : List (Nat × Nat) := (List.range ((n + 127) / 128)).map fun i => (1, ledgerPages (min 128 (n - 128 * i)))

theorem ledgerUnits_bounds {n : Nat} : ∀ u ∈ ledgerUnits n, u.1 = 1 ∧ u.2 ≤ 16 := by
  intro u hu
  obtain ⟨i, _, rfl⟩ := List.mem_map.1 hu
  refine ⟨rfl, ?_⟩
  simp only [ledgerPages]
  omega

section
variable {s : State}

theorem State.flushPlan_length : s.flushPlan.length ≤ 48 := List.length_take_le _ _

theorem State.flushPlan_head : s.flushPlan.head? = some (3, 1) := rfl

theorem State.flushPlan_before_rails (hr : s.mod.rails = false) (hs : s.mod.step < 7) : s.flushPlan = [(3, 1)] := by
  simp [State.flushPlan, hr, hs]

/-- A planned unit is POWERFAIL, of the ledger, COUNTERS before step 5, or the capture before step 5; none is longer than 16 pages. -/
theorem State.flushPlan_mem {u : Nat × Nat} (h : u ∈ s.flushPlan) :
    u.2 ≤ 16 ∧ (u.1 = 3 ∨ u.1 = 1 ∨ s.mod.sdStep ≠ 5 ∧ (u.1 = 4 ∨ u.1 = 2)) := by
  obtain rfl | h := List.mem_cons.1 (List.mem_of_mem_take h)
  · exact ⟨by decide, .inl rfl⟩
  split at h
  · rcases List.mem_append.1 h with h | h
    · rcases List.mem_append.1 h with h | h
      · obtain ⟨hk, hn⟩ := ledgerUnits_bounds u h
        exact ⟨hn, .inr (.inl hk)⟩
      · split at h
        · exact nomatch h
        · next hs => obtain rfl := List.mem_singleton.1 h; exact ⟨by decide, .inr (.inr ⟨hs, .inl rfl⟩)⟩
    · split at h
      · next hs => obtain rfl := List.mem_singleton.1 h; exact ⟨by decide, .inr (.inr ⟨by omega, .inr rfl⟩)⟩
      · exact nomatch h
  · exact nomatch h

/-- 48 units of 16 pages cost 453.6 · 10⁶. -/
theorem State.flushPlan_cost : (s.flushPlan.map fun u => unitCost u.2).sum ≤ 454000000 := by
  have hunit : ∀ c ∈ s.flushPlan.map (fun u => unitCost u.2), c ≤ unitCost 16 := by
    intro c hc
    obtain ⟨u, hu, rfl⟩ := List.mem_map.1 hc
    obtain ⟨hn, -⟩ := State.flushPlan_mem hu
    simp only [unitCost]
    omega
  calc (s.flushPlan.map fun u => unitCost u.2).sum ≤ s.flushPlan.length * unitCost 16 := by
        simpa using List.sum_le_card_nsmul _ _ hunit
    _ ≤ 48 * unitCost 16 := Nat.mul_le_mul_right _ s.flushPlan_length
    _ ≤ 454000000 := by decide

/-! ## The store -/

/-- A store that reads 60 J holds 600 · 10⁶ of the flush's units, which is 49.35 J and more to spare. -/
theorem storeE4_of_storeEnergy {c v : Nat} (h : 600 ≤ storeEnergy c v) : 600000000 ≤ storeE4 c v := by
  unfold storeEnergy at h
  unfold storeE4
  rw [mul_assoc]
  omega

/-! ## One unit -/

@[simp] theorem State.report_mod (r : Report) : (s.report r).mod = s.mod := by
  unfold State.report
  split <;> rfl

@[simp] theorem State.writeEntry_mod (e : Ledg) : (s.writeEntry e).mod = s.mod := by
  unfold State.writeEntry
  dsimp only
  split
  · rfl
  · split
    · rfl
    · split
      · rfl
      · exact State.report_mod _

/-- A field of the module that a journal record leaves as it is. -/
def JournalKeeps {β : Type} (g : Module → β) : Prop := ∀ m js er, g { m with jrecs := js, erased := er } = g m

section
variable {β : Type} {g : Module → β} (hg : JournalKeeps g)
include hg

theorem State.writeJrec_keeps (kind n a b : Nat) : g (s.writeJrec kind n a b).mod = g s.mod := hg _ _ _

theorem State.writeLedgerUnit_keeps : g s.writeLedgerUnit.mod = g s.mod :=
  (congrArg g (foldl_keeps State.mod (fun _ e => State.writeEntry_mod e) _ _)).trans (State.writeJrec_keeps hg ..)

theorem State.flushLedger_keeps : g s.flushLedger.mod = g s.mod :=
  foldl_keeps (fun a : State => g a.mod) (fun _ _ => State.writeLedgerUnit_keeps hg) _ _

theorem State.flushCounters_keeps : g s.flushCounters.mod = g s.mod := State.writeJrec_keeps hg ..

theorem State.writeUnit_keeps (k : Nat) : g (s.writeUnit k).mod = g s.mod := by
  unfold State.writeUnit
  split
  · exact State.writeLedgerUnit_keeps hg
  · exact State.writeJrec_keeps hg ..
  · exact State.flushCounters_keeps hg
  · exact State.writeJrec_keeps hg ..

end

/-- Writing a unit does not itself count it. -/
theorem State.writeUnit_flDone (k : Nat) : (s.writeUnit k).mod.flDone = s.mod.flDone :=
  State.writeUnit_keeps (g := Module.flDone) (fun _ _ _ => rfl) k

theorem execFlushUnit_writes {v : Nat} {u : Nat × Nat} {l : List (Nat × Nat)} (hunits : s.mod.units = u :: l) (hl : l ≠ []) (hpf : s.mod.pf = 3)
    (he : unitCost u.2 + eTrunc ≤ storeE4 s.mod.cap v) :
    execFlushUnit v s = .next ((s.writeUnit u.1).updMod fun m => { m with units := l, flDone := m.flDone + 1 }) := by
  simp only [execFlushUnit, hunits, hpf, if_neg (Nat.not_lt.2 he)]
  simp [when, hl]

end

/-- Settles O58: a plan's units are bounded one by one (`State.flushPlan_mem`) and in number, which bounds their cost; 60 J are more than that
(`storeE4_of_storeEnergy`), and a store that holds the cost of all the units holds that of the next one. -/
theorem flushFitsTheStore : Obligations.FlushFitsTheStore := by
  refine ⟨fun s => ⟨s.flushPlan_length, s.flushPlan_head, fun u hu => (State.flushPlan_mem hu).1, s.flushPlan_cost,
    State.flushPlan_before_rails, fun hs u hu => ?step5⟩, fun c v _ he => ?store, fun s v u l hunits hl hpf he => ?unit⟩
  case step5 =>
    obtain ⟨-, hk⟩ := State.flushPlan_mem hu
    omega
  case store => exact le_trans (by decide) (storeE4_of_storeEnergy he)
  case unit =>
    rw [List.map_cons, List.sum_cons] at he
    exact ⟨_, execFlushUnit_writes hunits hl hpf (by omega), rfl, congrArg (· + 1) (s.writeUnit_flDone u.1)⟩

end Sys2Proof.Machine
end

section
/-! PROOFS. One step of the block (16 R435, log entries 1 and 2), and O1. -/

namespace Sys2Proof.Machine

theorem step_cons {s : State} {c : Instr} {rest : List Instr} (h : s.pending = c :: rest) : step s = exec c { s with pending := rest } := by
  simp only [step, h]

theorem step_nil {s : State} (h : s.pending = []) : step s = .next { s with now := s.now + 1 } := by
  simp only [step, h]

/-- Settles O1: the step goes by the two forms of the queue. -/
theorem stepRunsTheFrontCommand : Obligations.StepRunsTheFrontCommand :=
  ⟨fun _ _ => step_cons rfl, fun _ => step_nil⟩

end Sys2Proof.Machine
end

section
/-! PROOFS. Accesses to BAR0 (16 R436), and O35. -/

namespace Sys2Proof.Machine

section
variable {s : State} {off size : Nat} {v : W64}

theorem State.bar0Write_word (h : off % 4 = 0) : s.bar0Write off 4 v = s.writeWord off (v.setWidth 32) := if_pos ⟨rfl, h⟩

theorem State.bar0Write_words (h : off % 8 = 0) :
    s.bar0Write off 8 v = (s.writeWord off (v.setWidth 32)).writeWord (off + 4) ((v >>> 32).setWidth 32) :=
  (if_neg (by simp)).trans (if_pos ⟨rfl, h⟩)

theorem State.bar0Write_other (h4 : ¬(size = 4 ∧ off % 4 = 0)) (h8 : ¬(size = 8 ∧ off % 8 = 0)) : s.bar0Write off size v = s := by
  simp only [State.bar0Write, h4, h8, if_false]

theorem State.inBar0_of_open (ho : s.barOpen = true) (hn : 0 < size) (he : off + size ≤ 2 ^ 25) : s.inBar0 off size = true := by
  rw [State.inBar0, ho, Bool.true_and]
  exact decide_eq_true ⟨hn, he⟩

/-- A read of BAR0: the bytes asked for go out, and the RC fields of the words that it covers clear. -/
theorem execRcFieldRead_reads (h : s.inBar0 off size = true) {u : State}
    (hu : u = s.emit (.readData ((List.range size).map fun i => (wordBytes (s.regWord ((off + i) / 4 * 4))).getD ((off + i) % 4) 0#8) false)) :
    execRcFieldRead off size s = .next (if size = 4 ∧ off % 4 = 0 then u.rcClear off
      else if size = 8 ∧ off % 8 = 0 then (u.rcClear off).rcClear (off + 4) else u) := by
  subst hu
  exact when_next h

end

/-- Settles O35: an access that lies in BAR0 acts, and goes by its size and alignment. -/
theorem bar0AccessesAreWords : Obligations.Bar0AccessesAreWords := by
  have writes : ∀ {s t : State} {off size : Nat} {v : W64}, s.inBar0 off size = true → s.bar0Write off size v = t →
      Runs (.registerWrite off size v) s t ∧ Runs (.w1cWrite off size v) s t :=
    fun hin ht => ⟨(when_next hin).trans (congrArg _ ht), (when_next hin).trans (congrArg _ ht)⟩
  refine ⟨?word, ?words, ?other, ?reads⟩
  case word => exact fun s off v ho he h4 => writes (State.inBar0_of_open ho (by decide) he) (State.bar0Write_word h4)
  case words => exact fun s off v ho he h8 => writes (State.inBar0_of_open ho (by decide) he) (State.bar0Write_words h8)
  case other => exact fun s off size v ho hn he h4 h8 => writes (State.inBar0_of_open ho hn he) (State.bar0Write_other h4 h8)
  case reads =>
    intro s u off size ho hn he hu
    have read := execRcFieldRead_reads (State.inBar0_of_open ho hn he) hu
    refine ⟨fun h h4 => read.trans ?_, fun h h8 => read.trans ?_, fun h4 h8 => read.trans ?_⟩
    · rw [if_pos ⟨h, h4⟩]
    · rw [if_neg (by omega), if_pos ⟨h, h8⟩]
    · rw [if_neg h4, if_neg h8]

end Sys2Proof.Machine
end

section
/-! PROOFS. The management target (12 R356), and O38. -/

namespace Sys2Proof.Machine

/-- The STATUS word: bits 0 to 2, and the number of records in bits 23 to 16. -/
def statusWord (ready full waits : Bool) (n : Nat) : W32 :=
  wordOf [fldAt 0 1 (b2n ready), fldAt 1 1 (b2n full), fldAt 2 1 (b2n waits), fldAt 16 8 n]

theorem b2n_le (b : Bool) : b2n b ≤ 1 := by cases b <;> decide

theorem decide_b2n (b : Bool) : decide (b2n b = 1) = b := by cases b <;> rfl

theorem wordOf_four (a b c d : Nat) : (wordOf [a, b, c, d]).toNat = (a + b + c + d) % 2 ^ 32 := by
  simp only [wordOf, List.sum_cons, List.sum_nil, BitVec.toNat_ofNat, add_zero, add_assoc]

theorem fldAt_b2n (lo : Nat) (b : Bool) : fldAt lo 1 (b2n b) = b2n b * 2 ^ lo := by cases b <;> rfl

theorem statusWord_toNat (ready full waits : Bool) (n : Nat) :
    (statusWord ready full waits n).toNat = b2n ready + 2 * b2n full + 4 * b2n waits + 65536 * (n % 256) := by
  have hready := b2n_le ready
  have hfull := b2n_le full
  have hwaits := b2n_le waits
  rw [statusWord, wordOf_four, fldAt_b2n, fldAt_b2n, fldAt_b2n, fldAt]
  omega

theorem statusWord_fields (ready full waits : Bool) (n : Nat) : (statusWord ready full waits n).getLsbD 0 = ready ∧
    (statusWord ready full waits n).getLsbD 1 = full ∧ (statusWord ready full waits n).getLsbD 2 = waits ∧
    bitsOf (statusWord ready full waits n) 23 16 = n % 256 := by
  have hready := b2n_le ready
  have hfull := b2n_le full
  have hwaits := b2n_le waits
  have bit : ∀ i b, (statusWord ready full waits n).toNat / 2 ^ i % 2 = b2n b → (statusWord ready full waits n).getLsbD i = b := by
    intro i b h
    rw [BitVec.getLsbD, Nat.testBit_eq_decide_div_mod_eq, h, decide_b2n]
  simp only [statusWord_toNat] at bit
  exact ⟨bit 0 ready (by omega), bit 1 full (by omega), bit 2 waits (by omega), by rw [bitsOf, statusWord_toNat]; omega⟩

section
variable {s : State} (ho : s.i3cOn = true)
include ho

theorem execI3cSubmit_cases (b : List Byte) : execI3cSubmit b s = .next (if (s.que 8190).count ≥ 15 then s.emit .i3cNack
    else if b.length < 64 then s.dbErr 8190
    else (s.updHost fun h => { h with tray := h.tray ++ [bytesWords (b.take 64)] }).updQue 8190 fun e => { e with tail := e.next e.tail }) :=
  when_next ho

theorem execI3cFetch_takes {r : Rec} {rs : List Rec} (h : s.host.trayRecs = r :: rs) : execI3cFetch s = .next
    (((s.updHost fun h => { h with trayRecs := rs }).updQue 8191 fun e => { e with head := e.next e.head }).emit
      (.i3cData (r.bytes s.trayPhase))) := by
  refine (when_next ho).trans ?_
  simp only [h]

theorem execI3cFetch_empty (h : s.host.trayRecs = []) : execI3cFetch s = .next (s.emit (.i3cData (List.replicate 32 0#8))) := by
  refine (when_next ho).trans ?_
  simp only [h]

theorem execI3cStatus_answers : execI3cStatus s = .next (s.emit (.i3cData (wordBytes (statusWord s.host.ready
    (decide ((s.que 8190).count ≥ 15)) (decide (s.host.trayRecs.length > 0)) s.host.trayRecs.length)))) :=
  when_next ho

theorem execI3cBufread_answers {off len : Nat} (h4 : off % 4 = 0) (hoff : off < 65536) (hlen : len ≤ 256) : execI3cBufread off len s =
    .next (s.emit (.i3cData ((List.range len).map fun i => if off + i < 65536 then cellGet s.host.fbuf (off + i) else 0#8))) :=
  (when_next ho).trans (congrArg _ (if_neg (by omega)))

end

theorem execI3cAddressAssign_assigns {s : State} {a : Nat} (hs : s.mod.standby = true) (ha : a < 128) :
    execI3cAddressAssign false a s = .next (s.updHost fun h => { h with i3cAddr := some a }) :=
  when_next (by simp [hs, ha])

/-- Settles O38: a target that answers goes by its queue, its records and its buffer; the fields of STATUS lie apart (`statusWord_fields`). -/
theorem managementTargetAnswers : Obligations.ManagementTargetAnswers := by
  refine ⟨?submit, ?fetch, ?empty, ?status, ?bufread, ?assign⟩
  case submit =>
    intro s b ho
    have submit := execI3cSubmit_cases ho b
    refine ⟨fun hroom hlen => submit.trans ?_, fun hroom hlen => submit.trans ?_, fun hfull => submit.trans ?_⟩
    · rw [if_neg (by omega), if_neg (by omega)]
    · rw [if_neg (by omega), if_pos hlen]; rfl
    · rw [if_pos hfull]
  case fetch => exact fun s r rs ho h => execI3cFetch_takes ho h
  case empty => exact fun s ho h => execI3cFetch_empty ho h
  case status =>
    intro s ho
    obtain ⟨hready, hfull, hwaits, hn⟩ := statusWord_fields s.host.ready (decide ((s.que 8190).count ≥ 15))
      (decide (s.host.trayRecs.length > 0)) s.host.trayRecs.length
    exact ⟨_, execI3cStatus_answers ho, hready, hfull, hwaits.trans (by simp [List.length_pos_iff]), fun h => hn.trans (Nat.mod_eq_of_lt h)⟩
  case bufread => exact fun s off len ho h4 hoff hlen => execI3cBufread_answers ho h4 hoff hlen
  case assign => exact fun s a hs ha => execI3cAddressAssign_assigns hs ha

end Sys2Proof.Machine
end

section
/-! PROOFS. Doorbells, fetches, records and the admin queues (12 R336 to R338, R357), and O37. -/

namespace Sys2Proof.Machine

/-! ## Doorbells -/

section
variable {s : State} {q hi size : Nat} {v : W64}

theorem execDoorbellWrite_rings (hq : q < 8192) (ho : s.barOpen = true) (ht : (s.que q).typ ≠ 2) (hw : dbTaken hi size = true) :
    execDoorbellWrite q hi size v s = .next (if (s.que q).deaf q then s.dbErr q else s.setTail q (v.toNat % 65536)) :=
  (unit_of_lt hq).trans (when_next (by simp [ho, ht, hw]))

theorem execDoorbellWrite_untaken (hq : q < 8192) (hw : dbTaken hi size = false) : execDoorbellWrite q hi size v s = .next s :=
  (unit_of_lt hq).trans (when_idle (by simp [hw]))

theorem execCeqDoorbell_rings (hq : q < 8192) (ho : s.barOpen = true) (ht : (s.que q).typ = 2) (hw : dbTaken hi size = true) :
    execCeqDoorbell q hi size v s =
      .next (if (s.que q).deaf q then s.dbErr q else s.setHead q (v.toNat % 65536) (size == 8 && v.getLsbD 32)) :=
  (unit_of_lt hq).trans (when_next (by simp [ho, ht, hw]))

theorem QEnt.deaf_enabled {e : QEnt} (hq : q < 8190) (hs : e.st = 1) (hd : e.dbc = false) : e.deaf q = false := by
  simp [QEnt.deaf, hs, hd, hq]

theorem QEnt.deaf_disabled {e : QEnt} (hs : e.st = 0) : e.deaf q = true := by simp [QEnt.deaf, hs]

theorem State.setTail_moves {i : Nat} (hi : i < 2 ^ (s.que q).log2n)
    (hroom : (i + 2 ^ (s.que q).log2n - (s.que q).tail) % 2 ^ (s.que q).log2n ≤ 2 ^ (s.que q).log2n - 1 - (s.que q).count) :
    s.setTail q i = (s.updQue q fun e => { e with tail := i }).startFetch q :=
  if_neg (not_or.2 ⟨Nat.not_le.2 hi, Nat.not_lt.2 hroom⟩)

theorem State.setTail_outside {i : Nat} (hi : 2 ^ (s.que q).log2n ≤ i) : s.setTail q i = s.queueError q := if_pos (.inl hi)

theorem State.setHead_outside {i : Nat} {arm : Bool} (hi : 2 ^ (s.que q).log2n ≤ i) : s.setHead q i arm = (s.dbErr q).queueEvent q :=
  if_pos (.inl hi)

theorem State.setHead_moves {i n : Nat} {arm : Bool} (hi : i < 2 ^ (s.que q).log2n)
    (hn : n = (i + 2 ^ (s.que q).log2n - (s.que q).head) % 2 ^ (s.que q).log2n) (hle : n ≤ (s.que q).count) :
    s.setHead q i arm =
      (s.updQue q fun e => { e with head := i, arm := e.arm || arm, unsig := min e.unsig (e.count - n) }).signal q := by
  subst hn
  exact if_neg (not_or.2 ⟨Nat.not_le.2 hi, Nat.not_lt.2 hle⟩)

end

/-! ## Reads of host memory, records and signals -/

section
variable {s : State}

/-- The only read that waits is taken off the list. -/
theorem State.reads_taken {r : HRead} (h : s.host.reads = [r]) :
    (s.updHost fun h => { h with reads := h.reads.filter fun x => x.tag != r.tag }) = s.updHost fun h => { h with reads := [] } := by
  have hnone : (s.host.reads.filter fun x => x.tag != r.tag) = [] := by simp [h]
  exact congrArg (fun l => ({ s with host := { s.host with reads := l } } : State)) hnone

section
variable {r : HRead} {data : List Byte} (h : s.host.reads = [r]) (hlen : data.length = r.len)
include h hlen

theorem execHostReadCompletion_fetches (huse : r.use = 0) {u : State}
    (hu : u = (s.updHost fun h => { h with reads := [] }).updQue r.q fun e => { e with head := e.next e.head }) :
    execHostReadCompletion r.tag data s = .next ((u.updHost fun h =>
      { h with fetched := h.fetched ++ [{ q := r.q, d := bytesWords data, sqhead := (u.que r.q).head }] }).startFetch r.q) := by
  subst hu
  have hfind : s.host.reads.find? (fun x => x.tag == r.tag) = some r := by simp [h]
  simp only [execHostReadCompletion, hfind, hlen, huse, State.reads_taken h]
  exact when_next (beq_self_eq_true _)

theorem execHostReadCompletion_copies {l : Long} (huse : r.use = 1) (hl : s.longAt r.q = some l) {x : State × Option Nat}
    (hx : x = (s.updHost fun h => { h with reads := [] }).putParts (bitsOf (Desc.word l.d 8) 3 0) r.dst data) :
    execHostReadCompletion r.tag data s = .next (x.1.endCopy r.q { q := l.q, d := l.d, hd := l.sqhead } (some data) x.2) := by
  subst hx
  have hfind : s.host.reads.find? (fun x => x.tag == r.tag) = some r := by simp [h]
  have hl' : (s.updHost fun h => { h with reads := [] }).longAt r.q = some l := hl
  simp only [execHostReadCompletion, hfind, hlen, huse, State.reads_taken h, hl']
  exact when_next (beq_self_eq_true _)

end

theorem execCompletionRecordWrite_writes {q : Nat} {x : Nat × Rec} {xs : List (Nat × Rec)} (hq : q < 8192) (h : s.host.recs = x :: xs)
    (hx : s.effCeq x.1 = q) (hroom : (s.que q).room = true) : execCompletionRecordWrite q s = .next (s.writeRec q x.2) := by
  simp [execCompletionRecordWrite, unit_of_lt hq, h, hx, hroom, when]

theorem execMsixTimer_fires {q us : Nat} (hq : q < 8192) (ht : (s.que q).typ = 2) (ha : (s.que q).arm = true) (hu : 0 < (s.que q).unsig)
    (hus : (s.que q).tmr ≤ us) : execMsixTimer q us s = .next (s.fire q) :=
  (unit_of_lt hq).trans (when_next (by simp [ht, ha, hu, hus]))

/-! ## The admin queues -/

/-- The state whose queues EN = 1 opens: the fields written are taken, and reads of descriptors are dropped. -/
def State.aqTaken (s : State) (v : W32) (en : Bool) : State := ((s.aqFields v).updHost fun h => { h with aqEn := en }).dropAdmin

/-- A queue that EN = 1 opens is empty. -/
def QEnt.opened (e : QEnt) (n base : Nat) : QEnt := { e with st := 1, log2n := n, base := base, head := 0, tail := 0 }

theorem State.aqTaken_fields {v : W32} {en : Bool} (hact : s.aqAct = false) : (s.aqTaken v en).host.aqEn = en ∧
    (s.aqTaken v en).host.sqlog2 = bitsOf v 29 25 ∧ (s.aqTaken v en).host.cqlog2 = bitsOf v 24 20 ∧
    (s.aqTaken v en).host.aqVec = bitsOf v 10 0 := by
  simp only [State.aqTaken, State.aqFields, hact]
  exact ⟨rfl, rfl, rfl, rfl⟩

/-- Taking the fields leaves every queue and what was fetched, and changes the host interface alone. -/
theorem State.aqTaken_frame {v : W32} {en : Bool} : (∀ q, (s.aqTaken v en).que q = s.que q) ∧ (s.aqTaken v en).host.fetched = s.host.fetched ∧
    s.aqTaken v en = { s with host := (s.aqTaken v en).host } := by
  simp only [State.aqTaken, State.aqFields]
  split <;> exact ⟨fun _ => rfl, rfl, rfl⟩

theorem State.aqOn_que (v : W32) : (s.aqOn v).que 0 = (s.que 0).opened (s.aqTaken v true).host.sqlog2 (s.aqTaken v true).host.sqb.toNat ∧
    (s.aqOn v).que 1 = { (s.que 1).opened (s.aqTaken v true).host.cqlog2 (s.aqTaken v true).host.cqb.toNat with
      phase := true, arm := true, cnt := 0, tmr := 0, unsig := 0, vec := (s.aqTaken v true).host.aqVec } ∧
    ∀ q, 2 ≤ q → (s.aqOn v).que q = s.que q := by
  obtain ⟨hque, -, -⟩ := s.aqTaken_frame (v := v) (en := true)
  refine ⟨?_, ?_, fun q hq => ?_⟩
  · rw [← hque, State.aqOn, State.que_updQue, if_neg (by decide), State.que_updQue_same]
    rfl
  · rw [← hque, State.aqOn, State.que_updQue_same, State.que_updQue, if_neg (by decide)]
    rfl
  · rw [← hque q, State.aqOn, State.que_updQue, if_neg (by omega), State.que_updQue, if_neg (by omega)]
    rfl

/-- What EN = 1 leaves in both admin queues and in no other, with the fields written. -/
theorem State.aqOn_opens {v : W32} (hact : s.aqAct = false) : ∃ t, s.aqOn v = t ∧
    t.host.aqEn = true ∧ (t.que 0).st = 1 ∧ (t.que 0).head = 0 ∧ (t.que 0).tail = 0 ∧ (t.que 0).log2n = bitsOf v 29 25 ∧ (t.que 1).st = 1 ∧
      (t.que 1).head = 0 ∧ (t.que 1).tail = 0 ∧ (t.que 1).phase = true ∧ (t.que 1).log2n = bitsOf v 24 20 ∧ t.host.aqVec = bitsOf v 10 0 ∧
      (∀ q, 2 ≤ q → t.que q = s.que q) ∧ t = { s with host := t.host } := by
  obtain ⟨hen, hsq, hcq, hvec⟩ := State.aqTaken_fields (v := v) (en := true) hact
  obtain ⟨h0, h1, hother⟩ := s.aqOn_que v
  obtain ⟨-, -, hframe⟩ := s.aqTaken_frame (v := v) (en := true)
  exact ⟨_, rfl, hen, congrArg QEnt.st h0, congrArg QEnt.head h0, congrArg QEnt.tail h0, (congrArg QEnt.log2n h0).trans hsq,
    congrArg QEnt.st h1, congrArg QEnt.head h1, congrArg QEnt.tail h1, congrArg QEnt.phase h1, (congrArg QEnt.log2n h1).trans hcq, hvec,
    hother, congrArg (fun u : State => { u with host := (s.aqOn v).host }) hframe⟩

/-- Closing the admin CEQ leaves every other queue. -/
theorem State.aqSettle_frame : s.aqSettle.host.aqEn = s.host.aqEn ∧ (∀ q, q ≠ 1 → s.aqSettle.que q = s.que q) ∧
    s.aqSettle.host.fetched = s.host.fetched ∧ s.aqSettle = { s with host := s.aqSettle.host } := by
  unfold State.aqSettle
  split
  · exact ⟨rfl, fun _ _ => rfl, rfl, rfl⟩
  · exact ⟨rfl, fun q hq => by rw [State.que_updQue, if_neg hq], rfl, rfl⟩

/-- What EN = 0 leaves in queue 0: nothing that is not fetched. -/
theorem State.aqOff_closes (v : W32) : ∃ t, s.aqOff v = t ∧ t.host.aqEn = false ∧ (t.que 0).st = 0 ∧ (t.que 0).head = (s.que 0).head ∧
    (t.que 0).tail = (s.que 0).head ∧ t.host.fetched = s.host.fetched ∧ t = { s with host := t.host } := by
  obtain ⟨hque, hfetched, hframe⟩ := s.aqTaken_frame (v := v) (en := false)
  obtain ⟨hen, hother, hsame, hsettle⟩ := ((s.aqTaken v false).updQue 0 fun e => { e with st := 0, tail := e.head }).aqSettle_frame
  have h0 : (s.aqOff v).que 0 = { s.que 0 with st := 0, tail := (s.que 0).head } := by
    rw [← hque, ← State.que_updQue_same (s.aqTaken v false) 0 fun e => { e with st := 0, tail := e.head }]
    exact hother 0 (by decide)
  exact ⟨_, rfl, hen, congrArg QEnt.st h0, by rw [h0], congrArg QEnt.tail h0, hsame.trans hfetched,
    hsettle.trans (congrArg (fun u : State => { u with host := (s.aqOff v).host }) hframe)⟩

end

/-- Settles O37: a doorbell that is taken goes by its queue's state and its index (`State.setTail_moves`, `State.setHead_moves`), the read or
record that waits is the one found, and the admin queues open and close with the fields written (`State.aqOn_opens`,
`State.aqOff_closes`). -/
theorem doorbellsMoveQueues : Obligations.DoorbellsMoveQueues := by
  refine ⟨?tail, ?disabled, ?upper, ?head, ?fetch, ?copy, ?record, ?timer, ?opens, ?closes⟩
  case tail =>
    rintro s q _ v hq ho ht rfl hs hd
    have rings := execDoorbellWrite_rings (v := v) (size := 8) (hi := 0) (by omega) ho ht rfl
    rw [QEnt.deaf_enabled hq hs hd, if_neg Bool.false_ne_true] at rings
    exact ⟨fun hi hroom => rings.trans (congrArg _ (State.setTail_moves hi hroom)),
      fun hi => rings.trans (congrArg _ (State.setTail_outside hi))⟩
  case disabled =>
    exact fun s q v hq ho ht hs => (execDoorbellWrite_rings (by omega) ho ht rfl).trans (congrArg _ (if_pos (QEnt.deaf_disabled hs)))
  case upper => exact fun s q size v hq => execDoorbellWrite_untaken hq rfl
  case head =>
    intro s q v hq ho ht hs hd
    have rings := execCeqDoorbell_rings (v := v) (size := 8) (hi := 0) (by omega) ho ht rfl
    rw [QEnt.deaf_enabled hq hs hd, if_neg Bool.false_ne_true] at rings
    exact ⟨fun hi => rings.trans (congrArg _ (State.setHead_outside hi)),
      fun n hi hn hle => rings.trans (congrArg _ (State.setHead_moves hi hn hle))⟩
  case fetch =>
    rintro s _ data r h rfl hlen huse
    exact ⟨_, rfl, execHostReadCompletion_fetches h hlen huse rfl⟩
  case copy =>
    rintro s _ data r l x h rfl hlen huse hl hx
    exact execHostReadCompletion_copies h hlen huse hl hx
  case record => exact fun s q x xs hq h hx hroom => execCompletionRecordWrite_writes hq h hx hroom
  case timer => exact fun s q us hq ht ha hu hus => execMsixTimer_fires hq ht ha hu hus
  case opens =>
    intro s v ho hv hact
    obtain ⟨t, ht, hopen⟩ := s.aqOn_opens (v := v) hact
    exact ⟨t, (when_next (by rw [ho, hv]; rfl)).trans (congrArg _ ht), hopen⟩
  case closes =>
    intro s v ho hv
    obtain ⟨t, ht, hclosed⟩ := s.aqOff_closes v
    exact ⟨t, (when_next (by rw [ho, hv]; rfl)).trans (congrArg _ ht), hclosed⟩

end Sys2Proof.Machine
end

section
/-! PROOFS. Firmware, attestation and unlock on a command that meets their conditions (12 R348, 15 R426 to R428), and O46. -/

namespace Sys2Proof.Machine

section
variable {s u a t : State} {c : Cmd} {b : List Byte} {i : Nat}

theorem runFwStage_stages (hlo : 512 ≤ c.n 4) (hhi : c.n 4 ≤ 2 ^ 26) (h5 : c.zero 5 = true) (hr : Reads s c u b)
    (hfree : u.mod.stHnd = none) (ha : Accepts u c i a) :
    runFwStage c s = a.updMod fun m => { m with stHnd := some i, staged := 2, imgs := tput m.imgs (1 - m.bank) b } := by
  have hgood : (decide (512 ≤ c.n 4 ∧ c.n 4 ≤ 2 ^ 26) && c.zero 5) = true := by rw [decide_eq_true ⟨hlo, hhi⟩, h5]; rfl
  have hidle : ¬u.mod.stHnd.isSome = true := by simp [hfree]
  exact (structure_good_runs _ hgood hr).trans ((if_neg hidle).trans (accepted_runs _ ha))

theorem runFwActivate_activates (h2 : c.zero 2 = true) (hst : s.mod.staged = 1) :
    runFwActivate c s = (s.updMod fun m => { m with sel := 1 - m.bank, selSeq := m.selSeq + 1, pend := true }).ok c := by
  simp [runFwActivate, h2, hst]

theorem runAttest_attests {n m : List Byte} (h2 : c.addrOk 2 = true) (h12 : c.zero 12 = true) (hn : n = wordsBytes ((from_ 4 8).map c.w))
    (hm : m = s.imageDigest ++ natLe s.mod.svn 1 ++ natLe s.mod.svnFuse 1 ++ n)
    (hput : s.memPut .hub 0 (c.dw 2) (m ++ sized 96 (Config.sign m)) = (t, none)) :
    runAttest c s = (t.updHost fun h => { h with nonce := some n }).ok c := by
  subst hm hn
  simp only [runAttest, h2, h12, hput]
  rfl

/-- What DBG_UNLOCK does with a token, by whether it is good for the nonce that was issued. -/
theorem runDbgUnlock_reads (h4 : c.n 4 ≠ 0) (h5 : c.zero 5 = true) (hr : Reads s c u b) {good : Bool}
    (hgood : good = (u.host.nonce.map fun n => Config.tokenGood b (serialBytes ++ n)).getD false) : runDbgUnlock c s =
      if good then (u.updHost fun h => { h with sess := tput h.sess (u.sidOf c) { u.sess (u.sidOf c) with unlocked := true } }).ok c
      else (u.authReport 0x0820).deny c 0x10F := by
  subst hgood
  refine (structure_good_runs _ (by simp [h4, h5]) hr).trans ?_
  cases u.host.nonce <;> rfl

theorem imageOk_iff {fuse : Nat} {good : Bool} : imageOk b fuse good = true ↔
    good = true ∧ b.take 6 = [0x46#8, 0x57#8, 0x49#8, 0x4D#8, 1#8, 2#8] ∧ fuse ≤ fieldLe b 6 1 ∧ fieldLe b 6 1 ≤ 63 ∧ fieldLe b 7 1 ≤ 1 ∧
      fieldLe b 8 4 + 512 = b.length := by
  simp only [imageOk, Bool.and_eq_true, beq_iff_eq, decide_eq_true_eq, and_assoc]

theorem execFwStageComplete_ends {good : Bool} (h : s.mod.stHnd = some i)
    (ht : t = s.updMod fun m =>
      { m with stHnd := none, staged := if imageOk (tget [] s.mod.imgs (1 - s.mod.bank)) s.mod.svnFuse good then 1 else 2 }) :
    execFwStageComplete good s = .next (if imageOk (tget [] s.mod.imgs (1 - s.mod.bank)) s.mod.svnFuse good then t.doneLong i
      else (t.authReport 0x0800).finishLong i 0x10F 0#32 0#32 0#32 0#32) := by
  subst ht
  simp only [execFwStageComplete, h]

end

/-- Settles O46: each command of group 0x08 that passes its frame is its rule's effect (`Runs.of_passes`), and each rule's conditions lead to
the one branch that the statement names. -/
theorem firmwareCommandsComplete : Obligations.FirmwareCommandsComplete := by
  refine ⟨?commands, fun s good i h => ⟨_, rfl, execFwStageComplete_ends h rfl⟩, fun b fuse good => imageOk_iff⟩
  rintro s q d _ rfl
  refine ⟨?stage, ?activate, ?attest, ?unlock, ?unissued⟩
  case stage => exact fun u b i a h hlo hhi h5 hr hfree ha => .of_passes rfl h (runFwStage_stages hlo hhi h5 hr hfree ha)
  case activate => exact fun h h2 hst => .of_passes rfl h (runFwActivate_activates h2 hst)
  case attest => exact fun n m t h h2 h12 hn hm hput => .of_passes rfl h (runAttest_attests h2 h12 hn hm hput)
  case unlock =>
    intro u b n h h4 h5 hr hn
    exact ⟨fun hgood => .of_passes rfl h ((runDbgUnlock_reads h4 h5 hr (by rw [hn]; exact hgood.symm)).trans (if_pos rfl)),
      fun hbad => .of_passes rfl h ((runDbgUnlock_reads h4 h5 hr (by rw [hn]; exact hbad.symm)).trans (if_neg Bool.false_ne_true))⟩
  case unissued =>
    exact fun u b h h4 h5 hr hn =>
      .of_passes rfl h ((runDbgUnlock_reads h4 h5 hr (by rw [hn]; rfl)).trans (if_neg Bool.false_ne_true))

end Sys2Proof.Machine
end

section
/-! PROOFS. Power samples, shares, clock changes, droop and trims (13 R358, R363 to R370), and O50. -/

namespace Sys2Proof.Machine

/-! ## What a report leaves -/

section
variable {s : State} {r : Report}

@[simp] theorem State.report_power : (s.report r).power = s.power := by
  unfold State.report
  split <;> rfl

theorem Flt.collect_dayDroop (f : Flt) : (f.collect r).dayDroop = f.dayDroop := by
  unfold Flt.collect Flt.pendCorrected
  split_ifs <;> rfl

theorem State.report_dayDroop : (s.report r).flt.dayDroop = s.flt.dayDroop := by
  unfold State.report
  split <;> exact s.flt.collect_dayDroop

end

/-! ## The share -/

section
variable {s : State}

/-- A share of the budget gives the gates their levels, may end FFHELD, and changes nothing else. -/
theorem State.shareBudget_keeps : ∃ gs held, s.shareBudget = s.updPower fun p => { p with gates := gs, ffheld := held } := ⟨_, _, rfl⟩

theorem State.shareBudget_coef : s.shareBudget.power.coef = s.power.coef := rfl

theorem State.updPower_shareBudget {f : Power → Power} :
    (s.updPower f).shareBudget = { s with power := (s.updPower f).shareBudget.power } := rfl

/-- A 10 µs sample as it is kept. -/
def State.sampled (s : State) (w a v i avg : Nat) : State :=
  (s.updPower fun p => { p with
    peak := min 65535 (max p.peak w), avg1s := min 65535 avg, fast := decide (w > 1850)
    excur := if a > p.effLim then satAdd 8 p.excur 1 else p.excur }).updMod fun m =>
  { m with vin := min 65535 v, iin := min 65535 i }

theorem execInputPowerSample_samples (w a v i avg : Nat) :
    execInputPowerSample w a avg v i s = .next ((s.sampled w a v i avg).shareBudget.fixedExceeded avg) := rfl

theorem State.fixedExceeded_within {avg : Nat} (h : ¬(s.power.mode = 0 ∧ 1600 < avg)) : s.fixedExceeded avg = s := if_neg h

theorem State.fixedExceeded_ends {avg : Nat} (hm : s.power.mode = 0) (h : 1600 < avg) : s.fixedExceeded avg =
    (((s.updPower fun p => { (p.setMode (1, 180, 0)) with ffcap := false }).report (rep 1 9 0 3 0x52 avg)).postDev
      0x0006 0#32 0#32 0#32).shareBudget :=
  if_pos ⟨hm, h⟩

/-- What a share measures, before the budget is shared. -/
def State.measuredPowers (s : State) (b : Nat) (l m c : DomRead) : State :=
  s.updPower fun p => { (((p.measure 2 l).measure 1 m).measure 0 c) with
    pbase := b, cpw := min 1023 c.meas, memw := min 1023 m.meas, lnkw := min 1023 l.meas }

theorem execBudgetShare_shares (b : Nat) (l m c : DomRead) : execBudgetShare b l m c s = .next (s.measuredPowers b l m c).shareBudget := rfl

theorem Power.measure_coef (p : Power) (d : Nat) (r : DomRead) : (p.measure d r).coef = tput p.coef d (r.stat, r.dyn) := by
  unfold Power.measure
  dsimp only
  split <;> rfl

/-! ## Clock changes -/

theorem Power.setMode_sets (p : Power) (x : Nat × Nat × Nat) : (p.setMode x).next = none ∧
    (p.setMode x).mode = (if x.1 = 0 ∧ p.fmax < 180 then 1 else x.1) ∧ (p.setMode x).fcur = (if (p.setMode x).mode = 0 then 180
      else if (p.setMode x).mode = 1 then min (if x.1 = 0 then 180 else x.2.1) p.fmax else min (pstateClk x.2.2) p.fmax) :=
  ⟨rfl, rfl, rfl⟩

theorem State.applyMode_applies {x : Nat × Nat × Nat} (h : s.power.next = some x) : s.applyMode = (s.updPower (·.setMode x)).shareBudget := by
  simp only [State.applyMode, h]

/-! ## Droop -/

/-- What window 10 makes of a droop event is of the fault state alone, and keeps the day's counts. -/
theorem State.winEvent_corrected {w i : Nat} {f : State → Report} (hf : ∀ t, (f t).cls = 1) :
    ∃ g, s.winEvent w i (fun t => t.report (f t)) = s.updFlt g ∧ (g s.flt).dayDroop = s.flt.dayDroop := by
  unfold State.winEvent
  split
  · obtain ⟨g, hg⟩ := State.report_corrected (s := s.winPut w i) (hf (s.winPut w i))
    have hday := State.report_dayDroop (s := s.winPut w i) (r := f (s.winPut w i))
    rw [hg] at hday
    exact ⟨fun _ => g (s.winPut w i).flt, hg, hday⟩
  · exact ⟨fun _ => (s.winPut w i).flt, rfl, rfl⟩

theorem execDroopDetect_stretches {i : Nat} (hi : i < 12) (h : s.power.stretched.contains i = false) : ∃ g,
    execDroopDetect i s = .next ((s.updPower fun p => { p with
      stretched := setIns p.stretched i, droop := satAdd 16 p.droop 1, ddroop := tupd 0 p.ddroop i (satAdd 8 · 1) }).updFlt g) ∧
    (g s.flt).dayDroop = tupd 0 s.flt.dayDroop i (satAdd 32 · 1) := by
  obtain ⟨g, hg, hday⟩ := State.winEvent_corrected (w := 10) (i := i)
    (f := fun t => rep 1 (islandSite i).1 (islandSite i).2.1 (islandSite i).2.2 0x23 ((t.win 10).1 + 1)) (fun _ => rfl)
    (s := (s.updPower fun p => { p with
      stretched := setIns p.stretched i, droop := satAdd 16 p.droop 1, ddroop := tupd 0 p.ddroop i (satAdd 8 · 1) }).updFlt
        fun f => { f with dayDroop := tupd 0 f.dayDroop i (satAdd 32 · 1) })
  refine ⟨fun f => g { f with dayDroop := tupd 0 f.dayDroop i (satAdd 32 · 1) }, ?_, hday⟩
  exact (unit_of_lt hi).trans ((when_next (by rw [h]; rfl)).trans (congrArg _ hg))

/-! ## Trims -/

@[simp] theorem State.trimEntry_power {i : Nat} : (s.trimEntry i).power = s.power := rfl

@[simp] theorem State.fmaxReport_power {i old : Nat} : (s.fmaxReport i old).power = s.power := by
  unfold State.fmaxReport
  dsimp only
  split_ifs <;> simp

/-- The margin that a measurement leaves. -/
def State.measured (s : State) (i k : Nat) : State := s.updPower fun p => { p with margin := tput p.margin i (min 255 k) }

/-- What a die leaves that cannot be trimmed higher: FMAX 10 MHz lower, entered and reported. -/
def State.slowed (s : State) (i k : Nat) : State :=
  (((s.measured i k).updPower fun p => { p with dfmax := tupd 0 p.dfmax i (· - 1) }).trimEntry i).fmaxReport i (tget 0 s.power.dfmax i)

theorem State.slowed_power (i k : Nat) :
    (s.slowed i k).power = { s.power with margin := tput s.power.margin i (min 255 k), dfmax := tupd 0 s.power.dfmax i (· - 1) } :=
  State.fmaxReport_power

section
variable {i k : Nat} (l : List Nat)

theorem State.trimStep_slack (h : 8 ≤ k) : s.trimStep i (k :: l) = s.measured i k := if_pos h

theorem State.trimStep_raises (h : k < 8) (hv : tget 0 s.power.vtrim i < 30) :
    s.trimStep i (k :: l) = ((s.measured i k).updPower fun p => { p with vtrim := tupd 0 p.vtrim i (· + 1) }).trimEntry i :=
  (if_neg (Nat.not_le.2 h)).trans (if_pos hv)

theorem State.trimStep_slows (h : k < 8) (hv : 30 ≤ tget 0 s.power.vtrim i) : s.trimStep i (k :: l) = (s.slowed i k).trimStep i l :=
  (if_neg (Nat.not_le.2 h)).trans (if_neg (not_lt.2 hv))

end

end

/-- Settles O50: a sample and a share change the power state by rule and share the budget again, a droop counts in the power and fault states
alone (`execDroopDetect_stretches`), and each measurement of a trim takes one of three ways (`State.trimStep_slack`,
`State.trimStep_raises`, `State.trimStep_slows`). -/
theorem powerIsMeasuredAndShared : Obligations.PowerIsMeasuredAndShared := by
  refine ⟨?sample, ?share, ?change, ?droop, ?recover, ?daily, ?trim⟩
  case sample =>
    intro s w a v i avg
    have samples := execInputPowerSample_samples (s := s) w a v i avg
    obtain ⟨gs, held, hkeeps⟩ := State.shareBudget_keeps (s := s.sampled w a v i avg)
    exact ⟨_, rfl, congrArg (·.power.peak) hkeeps, congrArg (·.power.avg1s) hkeeps, congrArg (·.power.excur) hkeeps,
      fun h => samples.trans (congrArg _ (State.fixedExceeded_within h)),
      fun hm h => samples.trans (congrArg _ (State.fixedExceeded_ends hm h))⟩
  case share =>
    intro s b l m c
    obtain ⟨gs, held, hkeeps⟩ := State.shareBudget_keeps (s := s.measuredPowers b l m c)
    have hcoef : tget (0, 0) (s.measuredPowers b l m c).power.coef 0 = (c.stat, c.dyn) := by
      rw [State.measuredPowers, State.updPower_power, Power.measure_coef, tget_tput_same]
    exact ⟨_, execBudgetShare_shares b l m c, congrArg (·.power.pbase) hkeeps, congrArg (·.power.cpw) hkeeps, congrArg (·.power.memw) hkeeps,
      congrArg (·.power.lnkw) hkeeps, by rw [State.shareBudget_coef, hcoef], State.updPower_shareBudget⟩
  case change =>
    intro s x hx hb
    obtain ⟨gs, held, hkeeps⟩ := State.shareBudget_keeps (s := s.updPower (·.setMode x))
    obtain ⟨hnext, hmode, hclk⟩ := s.power.setMode_sets x
    exact ⟨_, (when_next (by rw [hx, hb]; rfl)).trans (congrArg _ ((State.applyMode_applies hx).trans hkeeps)), hnext, hmode, hclk, rfl⟩
  case droop =>
    intro s i hi h
    obtain ⟨g, hg, hday⟩ := execDroopDetect_stretches hi h
    refine ⟨_, hg, rfl, rfl, tget_tupd_same 0 s.power.ddroop i (satAdd 8 · 1), ?_, rfl⟩
    exact (congrArg (tget 0 · i) hday).trans (tget_tupd_same 0 s.flt.dayDroop i (satAdd 32 · 1))
  case recover => exact fun s i n hi h hn => (unit_of_lt hi).trans (when_next (by rw [h, decide_eq_true hn]; rfl))
  case daily => exact fun s k hr hb hk => when_next (by rw [hr, hb, hk]; rfl)
  case trim =>
    rintro s i k l _ rfl
    refine ⟨rfl, ?margin, fun h => ?slack, fun h hv => ?raises, fun h hv => ?slows⟩
    case margin =>
      obtain h | h := le_or_gt 8 k
      · rw [State.trimStep_slack _ h]
        exact tget_tput_same 0 s.power.margin i _
      obtain hv | hv := lt_or_ge (tget 0 s.power.vtrim i) 30
      · rw [State.trimStep_raises _ h hv]
        exact tget_tput_same 0 s.power.margin i _
      · rw [State.trimStep_slows _ h hv, State.trimStep, State.slowed_power, tget_tput_same]
    case slack =>
      rw [State.trimStep_slack _ h, State.trimStep_slack _ h]
      exact ⟨rfl, rfl, rfl⟩
    case raises =>
      rw [State.trimStep_raises _ h hv, State.trimStep_raises _ h hv]
      exact ⟨rfl, tget_tupd_same 0 s.power.vtrim i (· + 1), rfl⟩
    case slows =>
      rw [State.trimStep_slows _ h hv, State.trimStep_slows _ h hv, State.trimStep, State.slowed_power]
      exact ⟨rfl, tget_tupd_same 0 s.power.dfmax i (· - 1), rfl⟩

end Sys2Proof.Machine
end

section
/-! PROOFS. The collector, the ledger and the watchdogs (14 R387 to R390, R399, R405, R406, 15 R425), and O55. -/

namespace Sys2Proof.Machine

section
variable {s : State} {r : Report}

/-! ## The collector -/

/-- The state in which a FATAL report is ACTIVE and every gate is closed (Table 14-6, step 1). -/
def State.fatalClosed (s : State) (r : Report) : State :=
  (s.updFlt fun f => { f with fatal := true, faultN := true, pwrCyc := true, pendFatal := [], active := some r
                              stopped := f.active.toList ++ f.stopped }).dropMode.settleGates

theorem State.fatalClosed_gates {k : Nat} (hk : k ∈ gateKeys) : ((s.fatalClosed r).power.gate k).eff = 0 :=
  congrArg Gate.eff (tget_keyed hk)

theorem execCollectorTake_fatal {l : List Report} (hf : s.flt.fatal = false) (hp : s.flt.pendFatal = r :: l) :
    execCollectorTake s = .next ((((s.fatalClosed r).postFault r).fenceAll false).parkAll) := by
  simp only [execCollectorTake, hf, hp]
  rfl

theorem execCollectorTake_busy (h : s.flt.fatal = true ∨ s.flt.pendFatal = [] ∧ s.flt.active ≠ none) : execCollectorTake s = .next s := by
  by_cases hf : s.flt.fatal = true
  · exact if_pos hf
  obtain ⟨hp, ha⟩ := h.resolve_left hf
  obtain ⟨x, hx⟩ := Option.ne_none_iff_exists'.1 ha
  simp only [execCollectorTake, hf, hp, hx]
  rfl

section
variable (hf : s.flt.fatal = false) (hp : s.flt.pendFatal = []) (ha : s.flt.active = none)
include hf hp ha

theorem execCollectorTake_contained {l : List Report} (hc : s.flt.pendCont = r :: l) :
    execCollectorTake s = .next ((s.updFlt fun f => { f with active := some r, pendCont := l }).react r) := by
  simp only [execCollectorTake, hf, hp, ha, hc]
  rfl

theorem execCollectorTake_corrected {l : List Report} (hc : s.flt.pendCont = []) (he : s.flt.pendCe = r :: l) :
    execCollectorTake s = .next ((s.updFlt fun f => ({ f with pendCe := l } : Flt).hold r.key).postFault r) := by
  simp only [execCollectorTake, hf, hp, ha, hc, he]
  rfl

end

theorem execContainedReactionDone_ends (ha : s.flt.active = some r) (hf : s.flt.fatal = false) (hc : (s.reactCores r).all s.coreDone = true) :
    execContainedReactionDone s = .next
      ((((s.reactCores r).foldl (fun (a : State) c => a.finishRetire c r.cause) s).updFlt fun f => { f with active := none }).postFault r) := by
  simp only [execContainedReactionDone, ha]
  exact when_next (by rw [hf, hc]; rfl)

section
variable {a b c ms : Nat} {o : Option Report}
  (h : s.flt.heldCe.find? (fun h => (h.1, h.2.1, h.2.2.1) == (a, b, c)) = some (a, b, c, o)) (hms : 1000 ≤ ms) (hf : s.flt.fatal = false)
include h hms hf

theorem execCoalesceHoldExpiry_posts (ho : o = some r) :
    execCoalesceHoldExpiry a b c ms s = .next ((s.updFlt fun f => f.hold (a, b, c)).postFault r) := by
  subst ho
  simp only [execCoalesceHoldExpiry, h]
  exact when_next (by rw [hf, decide_eq_true hms]; rfl)

theorem execCoalesceHoldExpiry_ends (ho : o = none) :
    execCoalesceHoldExpiry a b c ms s = .next (s.updFlt fun f => { f with heldCe := f.heldCe.erase (a, b, c, o) }) := by
  subst ho
  simp only [execCoalesceHoldExpiry, h]
  exact when_next (by rw [hf, decide_eq_true hms]; rfl)

end

/-! ## The capture and the ledger -/

theorem execFatalCaptureWritten_proceeds {w : Bool} {u : State} (ha : s.flt.active = some r) (hf : s.flt.fatal = true) (hsd : s.mod.sdStep < 5)
    (hpf : s.mod.pf = 0) (hu : u = if w then s.writeJrec 2 16 0 0 else s) : execFatalCaptureWritten w s = .next
      (((u.writeEntry { typ := 9, die := r.die, sub := r.sub, unit := r.unit, time := u.mod.onSec + u.now / 1000000, seq := 0
                        body := natLe r.word.toNat 4 ++ natLe r.info 6 ++ natLe (b2n w) 1 ++ List.replicate 5 0#8 }).updMod fun m =>
        { m with resetAfter := false }).shutStep3.shutEnd) := by
  subst hu
  simp only [execFatalCaptureWritten, ha]
  exact when_next (by rw [hf, hpf, decide_eq_true hsd]; rfl)

theorem State.writeEntry_room (e : Ledg) (h : s.flt.ledger.length < ledgerRoom) : s.writeEntry e =
    s.updFlt fun f => { f with ledger := s.flt.ledger ++ [{ e with seq := f.ledgSeq }], ledgSeq := f.ledgSeq + 1 } := if_pos h

theorem execLedgerEntryWrite_writes {e : Ledg} {l : List Ledg} (h : s.flt.ledgq = e :: l) (hs : s.mod.standby = true) (hpf : s.mod.pf = 0)
    (hroom : s.flt.ledger.length < ledgerRoom) : execLedgerEntryWrite s = .next ((s.writeJrec 1 1 0 0).updFlt fun f =>
      { f with ledgq := l, ledger := f.ledger ++ [{ e with seq := f.ledgSeq }], ledgSeq := f.ledgSeq + 1 }) := by
  have hwrite := State.writeEntry_room (s := (s.updFlt fun f => { f with ledgq := l }).writeJrec 1 1 0 0) e hroom
  simp only [execLedgerEntryWrite, h]
  exact (when_next (by rw [hs, hpf]; rfl)).trans (congrArg _ hwrite)

/-- The DAILY entry of die index `i`. -/
def State.dailyEntry (s : State) (i : Nat) : Ledg :=
  { typ := 10, die := (thermSite i).1, sub := (thermSite i).2.1, unit := (thermSite i).2.2, time := s.mod.onSec + s.now / 1000000, seq := 0
    body := ((natLe (tget 0 s.flt.lifeCe i) 4 ++ natLe (tget 0 s.flt.lifeCont i) 2 ++ natLe (tget 0 s.flt.dayTj i) 1
      ++ natLe (tget 0 s.flt.dayDroop i) 4) ++ List.replicate 16 0#8).take 16 }

theorem State.dailyEntry_body (i : Nat) : (s.dailyEntry i).body.length = 16 := by
  simp [State.dailyEntry]

/-- Each day an entry of every die index joins the ledger's queue. -/
theorem execDailyLedger_queues (hs : s.mod.standby = true) : execDailyLedger s =
    .next (s.updFlt fun f => { f with ledgq := f.ledgq ++ (List.range 31).map s.dailyEntry, dayTj := [], dayDroop := [] }) := by
  have joins : ∀ (l : List Nat) (q : List Ledg), l.foldl (fun (a : State) i => a.updFlt fun f => { f with ledgq := f.ledgq ++ [a.dailyEntry i] })
      (s.updFlt fun f => { f with ledgq := q }) = s.updFlt fun f => { f with ledgq := q ++ l.map s.dailyEntry } := by
    intro l
    induction l with
    | nil => exact fun q => by simp
    | cons i l ih =>
      intro q
      have := ih (q ++ [s.dailyEntry i])
      rw [List.append_assoc] at this
      exact this
  exact (when_next hs).trans (congrArg _ (congrArg (State.updFlt · fun f => { f with dayTj := [], dayDroop := [] }) (joins _ s.flt.ledgq)))

/-! ## Watchdogs -/

theorem State.deviceReset_runs (hf : s.flt.fatal = false) :
    s.deviceReset = if 1 ≤ s.mod.sdStep ∧ s.mod.sdStep < 5 then s.updMod fun m => { m with resetAfter := true } else s.resetRun :=
  if_neg (by simp [hf])

theorem execHubWatchdog_acts {control : Bool} (hs : s.mod.standby = true) (hf : s.flt.fatal = false) :
    execHubWatchdog control s = .next (if control then s.report (rep 3 9 0 3 0x59 0) else s.deviceReset) :=
  when_next (by rw [hs, hf]; rfl)

end

/-- Settles O55: the collector takes the first report of the highest class that waits (`execCollectorTake_fatal`,
`execCollectorTake_contained`, `execCollectorTake_corrected`), and each other event's condition holds under its clause's hypotheses
(`when_next`). -/
theorem faultReportsAreHandled : Obligations.FaultReportsAreHandled := by
  refine ⟨?fatal, ?busy, ?contained, ?corrected, ?done, ?held, ?capture, ?entry, ?daily, ?watchdog⟩
  case fatal =>
    exact fun s r l hf hp =>
      ⟨s.fatalClosed r, rfl, rfl, rfl, rfl, rfl, fun k hk => State.fatalClosed_gates hk, rfl, execCollectorTake_fatal hf hp⟩
  case busy => exact fun s h => execCollectorTake_busy h
  case contained => exact fun s r l hf hp ha hc => execCollectorTake_contained hf hp ha hc
  case corrected => exact fun s r l hf hp ha hc he => execCollectorTake_corrected hf hp ha hc he
  case done => exact fun s r ha hf hc => execContainedReactionDone_ends ha hf hc
  case held =>
    intro s a b c ms o h hms hf
    cases o with
    | none => exact execCoalesceHoldExpiry_ends h hms hf rfl
    | some r => exact execCoalesceHoldExpiry_posts h hms hf rfl
  case capture => exact fun s r w ha hf hsd hpf => ⟨_, rfl, execFatalCaptureWritten_proceeds ha hf hsd hpf rfl⟩
  case entry => exact fun s e l h hs hpf hroom => execLedgerEntryWrite_writes h hs hpf hroom
  case daily =>
    intro s hs
    refine ⟨(List.range 31).map s.dailyEntry, by simp, fun e he => ?_, execDailyLedger_queues hs⟩
    obtain ⟨i, _, rfl⟩ := List.mem_map.1 he
    exact ⟨rfl, State.dailyEntry_body i, rfl⟩
  case watchdog =>
    exact fun s hs hf => ⟨execHubWatchdog_acts hs hf, (execHubWatchdog_acts hs hf).trans (congrArg _ (State.deviceReset_runs hf))⟩

end Sys2Proof.Machine
end

section
/-! PROOFS. Orderly shutdowns and the service panel (15 R429 to R432), and O59. -/

namespace Sys2Proof.Machine

section
variable {s : State} {us ms : Nat}

theorem State.shutOpen_powered (h : s.shutOpen = true) : s.powered = true ∧ s.mod.sdStep = 0 := by
  simp only [State.shutOpen, Bool.and_eq_true, beq_iff_eq] at h
  exact ⟨h.1.1, h.2⟩

theorem State.shutOpen_running (h : s.mod.sdStep = 1) : s.shutOpen = false := by simp [State.shutOpen, h]

/-! ## QUIESCE_REQ_N -/

theorem execQuiesceRequest_short (h : us < 1000) :
    execQuiesceRequest us s = .next (s.updMod fun m => { m with quiesce := decide (0 < us) }) := if_pos h

/-- QUIESCE_REQ_N low for 1 ms. -/
theorem execQuiesceRequest_long (h : 1000 ≤ us) {t : State} (ht : t = s.updMod fun m => { m with quiesce := true }) :
    execQuiesceRequest us s = if t.shutOpen then .next (t.acceptShut 1).holdJob
      else when (t.mod.sdStep == 1 && t.mod.sdCause == 2) t ((t.updMod fun m => { m with sdCause := 1 }).holdJob) := by
  have hlow : decide (us > 0) = true := decide_eq_true (by omega)
  simp only [execQuiesceRequest, hlow, ← ht, if_neg (Nat.not_lt.2 h)]

theorem execQuiesceRequest_accepts (h : 1000 ≤ us) (ho : s.shutOpen = true) : execQuiesceRequest us s = .next
    (((s.updMod fun m => { m with quiesce := true, sdCause := 1, sdStep := 1, shut := true }).report (rep 1 9 0 9 0x69 4)).holdJob) :=
  (execQuiesceRequest_long h rfl).trans (if_pos ho)

theorem execQuiesceRequest_takesOver (h : 1000 ≤ us) (hs : s.mod.sdStep = 1) (hc : s.mod.sdCause = 2) :
    execQuiesceRequest us s = .next ((s.updMod fun m => { m with quiesce := true, sdCause := 1 }).holdJob) := by
  refine (execQuiesceRequest_long h rfl).trans ((if_neg ?_).trans (when_next ?_))
  · exact Bool.eq_false_iff.1 (State.shutOpen_running hs)
  · rw [State.updMod_mod, hs, hc]; rfl

/-! ## The button -/

/-- What a press of 2 s or longer does. -/
theorem execButtonLongPress_acts (hp : s.powered = true) (h : 2000 ≤ ms) : execButtonLongPress ms s = .next (if ms < 5000 then s.press
    else if s.mod.sdStep = 1 ∧ s.mod.sdCause = 2 then s.press.updMod fun m => { m with sdCause := 0, sdStep := 0, shut := false }
    else if s.shutOpen then s.press.acceptShut 2 else s.press) :=
  when_next (by rw [hp, decide_eq_true h]; rfl)

theorem execButtonLongPress_asks (ho : s.shutOpen = true) (h : 5000 ≤ ms) : execButtonLongPress ms s = .next ((s.updMod fun m =>
    { m with btn := satAdd 8 m.btn 1, sdCause := 2, sdStep := 1, shut := true }).report (rep 1 9 0 9 0x69 4)) := by
  obtain ⟨hp, hs⟩ := State.shutOpen_powered ho
  rw [execButtonLongPress_acts hp (by omega), if_neg (by omega), if_neg (by omega), if_pos ho]
  rfl

theorem execButtonLongPress_cancels (hp : s.powered = true) (hs : s.mod.sdStep = 1) (hc : s.mod.sdCause = 2) (h : 5000 ≤ ms) :
    execButtonLongPress ms s = .next (s.updMod fun m => { m with btn := satAdd 8 m.btn 1, sdCause := 0, sdStep := 0, shut := false }) := by
  rw [execButtonLongPress_acts hp (by omega), if_neg (by omega), if_pos ⟨hs, hc⟩]
  rfl

theorem execButtonLongPress_counts (hp : s.powered = true) (h : 2000 ≤ ms) (h' : ms < 5000) :
    execButtonLongPress ms s = .next (s.updMod fun m => { m with btn := satAdd 8 m.btn 1 }) := by
  rw [execButtonLongPress_acts hp h, if_pos h']
  rfl

theorem execButtonShortPress_locates (hp : s.powered = true) (h : ms < 2000) : execButtonShortPress ms s = .next
    ((s.updMod fun m => { m with btn := satAdd 8 m.btn 1, locate := !m.locate }).report (rep 1 9 0 9 0x69 1)) :=
  when_next (by rw [hp, decide_eq_true h]; rfl)

/-! ## The latch -/

/-- A latch that opens is reported, and after 2 s asks for its shutdown. -/
theorem execLatchOpen_opens (hl : s.mod.latch = false) (hp : s.powered = true) {t : State}
    (ht : t = (s.updMod fun m => { m with latch := true }).report (rep 1 9 0 9 0x69 2)) : execLatchOpen ms s = if ms < 2000 then .next t
      else if t.shutOpen then .next (t.acceptShut 3) else when (t.mod.sdStep == 1) t (t.updMod fun m => { m with sdCause := 3 }) := by
  subst ht
  have hopens : (!s.mod.latch && s.powered) = true := by rw [hl, hp]; rfl
  simp only [execLatchOpen, hopens]
  rfl

theorem execLatchClose_reports (hl : s.mod.latch = true) (hp : s.powered = true) :
    execLatchClose s = .next ((s.updMod fun m => { m with latch := false }).report (rep 1 9 0 9 0x69 3)) :=
  (when_next hl).trans (congrArg _ (if_pos hp))

/-! ## Steps 3 to 5 -/

theorem execShutdownProceed_stops (hs : s.mod.sdStep = 1) (hp : s.powered = true) (hw : s.waitOver = true) :
    execShutdownProceed s = .next s.shutStep3 :=
  (if_pos hs).trans (when_next (by rw [hp, hw]; rfl))

theorem execShutdownProceed_ends (hs : s.mod.sdStep = 3) (hp : s.powered = true) (hd : s.drained = true) :
    execShutdownProceed s = .next s.shutEnd :=
  (if_neg (by omega)).trans (when_next (by rw [hp, hs, hd]; rfl))

theorem State.parkPort_mod (s : State) (p : Nat) : (s.parkPort p).mod = s.mod :=
  foldl_keeps State.mod (f := fun a w => a.updLine p w Line.park) (fun _ _ => rfl) (List.range 17) s

theorem State.parkAll_mod (s : State) : s.parkAll.mod = s.mod := foldl_keeps State.mod State.parkPort_mod (List.range 6) s

/-- Without a reset that waits, steps 4 and 5 end with the main rails off and SAFE_TO_REMOVE high. -/
theorem State.shutEnd_safe (h : s.mod.resetAfter = false) : s.shutEnd =
    (s.parkAll.flushLedger.flushCounters.railsOff false).updMod fun m => { m with sdStep := 5, safe := true, shut := true } := by
  have hkeeps : JournalKeeps Module.resetAfter := fun _ _ _ => rfl
  have hreset : s.parkAll.flushLedger.flushCounters.mod.resetAfter = false := by
    rw [State.flushCounters_keeps hkeeps, State.flushLedger_keeps hkeeps, State.parkAll_mod, h]
  exact if_neg (by simp [State.railsOff, hreset])

theorem execShutdownWaitTimeout_stops (hp : s.powered = true) (hs : s.mod.sdStep = 1) (hc : s.mod.sdCause = 1) (h : 10000 ≤ ms) :
    execShutdownWaitTimeout ms s = .next s.shutStep3 :=
  when_next (by rw [hp, hs, hc, decide_eq_true h]; rfl)

end

/-- Settles O59: each event goes by the level's time and the shutdown that runs (`execQuiesceRequest_long`, `execButtonLongPress_acts`,
`execLatchOpen_opens`), and the journals keep what decides step 5 (`State.shutEnd_safe`). -/
theorem shutdownsAndPanelEvents : Obligations.ShutdownsAndPanelEvents := by
  refine ⟨?quiesce, ?takesOver, ?asks, ?cancels, ?counts, ?locates, ?opens, ?closes, ?step3, ?step5, ?timeout, ?short, ?wait⟩
  case quiesce => exact fun s us ho h => execQuiesceRequest_accepts h ho
  case takesOver => exact fun s us hs hc h => execQuiesceRequest_takesOver h hs hc
  case asks => exact fun s ms ho h => execButtonLongPress_asks ho h
  case cancels => exact fun s ms hp hs hc h => execButtonLongPress_cancels hp hs hc h
  case counts => exact fun s ms hp h h' => execButtonLongPress_counts hp h h'
  case locates => exact fun s ms hp h => execButtonShortPress_locates hp h
  case opens =>
    intro s ms hl hp
    have opens := execLatchOpen_opens (ms := ms) hl hp rfl
    exact ⟨_, rfl, fun h => opens.trans (if_pos h), fun h ho => opens.trans ((if_neg (Nat.not_lt.2 h)).trans (if_pos ho))⟩
  case closes => exact fun s hl hp => execLatchClose_reports hl hp
  case step3 => exact fun s hs hp hw => execShutdownProceed_stops hs hp hw
  case step5 => exact fun s hs hp hd h => ⟨_, (execShutdownProceed_ends hs hp hd).trans (congrArg _ (State.shutEnd_safe h)), rfl⟩
  case timeout => exact fun s ms hp hs hc h => execShutdownWaitTimeout_stops hp hs hc h
  case short => exact fun s us h => execQuiesceRequest_short h
  case wait => exact fun s => rfl

end Sys2Proof.Machine
end
